-- ==== Sys2Proof/Word.lean ====
section
/-! DEFINITION. Words, bytes and the plainest arithmetic on them (00 R4, R9). -/
namespace Sys2Proof

/-- A general register's value (04 R69). -/
abbrev Word := BitVec 64
/-- One byte of memory. -/
abbrev Byte := BitVec 8
/-- A 32-bit value: an instruction word, a mask, a lane set. -/
abbrev W32 := BitVec 32

/-- The bits `[hi:lo]` of a natural number, as a number (00 R4). -/
def fld (w hi lo : Nat) : Nat := w / 2 ^ lo % 2 ^ (hi - lo + 1)

/-- Bit `i` of a natural number. -/
def bitAt (w i : Nat) : Bool := w / 2 ^ i % 2 == 1

end Sys2Proof
end

