-- ==== Sys2Proof/Syntax.lean ====
section
/-! DEFINITION. The instruction set: one constructor per row of the opcode table (10 R225; 95). -/

namespace Sys2Proof

/-- The stored state a soft error strikes (22 R399, 23 R409): the operands name the place. -/
inductive SoftWhere where
  /-- a granule of HBM or the second tier, by physical address -/
  | memory (pa : Nat)
  /-- a granule of the home slice's chip SRAM, by physical address -/
  | sram (pa : Nat)
  /-- a granule of a core's scratchpad, by physical scratchpad address -/
  | pad (core addr : Nat)
  /-- a general register -/
  | register (core slot lane n : Nat)
  /-- a lane's predicates -/
  | predicates (core slot lane : Nat)
  /-- a mask of a warp -/
  | mask (core slot k : Nat)
  /-- a lane's PC-table entry -/
  | pcEntry (core slot lane : Nat)
  /-- a lane's skip count -/
  | skipCount (core slot lane : Nat)
  /-- a line of the instruction cache under a warp's fetch -/
  | code (core slot lane : Nat)
  /-- a frame of a deck -/
  | deck (core entry : Nat)
  /-- a barrier record -/
  | barrier (core group n : Nat)
  /-- a word of an accumulator tile -/
  | tile (core tile row col : Nat)
  /-- a word of a weight plane -/
  | weight (core plane row col : Nat)
  deriving DecidableEq, Repr

/-- One constructor per row of the opcode table: 172 instruction words, whose fields are those of the row
(`c` the chain bit, `g` the guard), and 128 steps without an encoding, whose operands name their object. -/
inductive Instr where
  /-- ADD (R233): Adds packed sub-elements of xa and xb at the width the major selects, with wrap. -/
  | add (c : BitVec 1) (w : BitVec 2) (g : BitVec 3) (d a b : BitVec 6)
  /-- SUB (R233): Subtracts packed sub-elements with wrap. -/
  | sub (c : BitVec 1) (w : BitVec 2) (g : BitVec 3) (d a b : BitVec 6)
  /-- MIN_S (R233): Signed minimum of each sub-element. -/
  | minS (c : BitVec 1) (w : BitVec 2) (g : BitVec 3) (d a b : BitVec 6)
  /-- MIN_Z (R233): Unsigned minimum of each sub-element. -/
  | minZ (c : BitVec 1) (w : BitVec 2) (g : BitVec 3) (d a b : BitVec 6)
  /-- MAX_S (R233): Signed maximum of each sub-element. -/
  | maxS (c : BitVec 1) (w : BitVec 2) (g : BitVec 3) (d a b : BitVec 6)
  /-- MAX_Z (R233): Unsigned maximum of each sub-element. -/
  | maxZ (c : BitVec 1) (w : BitVec 2) (g : BitVec 3) (d a b : BitVec 6)
  /-- ABS (R233): Absolute value of each signed sub-element, with wrap. -/
  | abs (c : BitVec 1) (w : BitVec 2) (g : BitVec 3) (d a : BitVec 6)
  /-- AND (R233): Bitwise AND of each sub-element. -/
  | and (c : BitVec 1) (w : BitVec 2) (g : BitVec 3) (d a b : BitVec 6)
  /-- OR (R233): Bitwise OR of each sub-element. -/
  | or (c : BitVec 1) (w : BitVec 2) (g : BitVec 3) (d a b : BitVec 6)
  /-- XOR (R233): Bitwise XOR of each sub-element. -/
  | xor (c : BitVec 1) (w : BitVec 2) (g : BitVec 3) (d a b : BitVec 6)
  /-- ANDN (R233): a AND NOT b for each sub-element. -/
  | andn (c : BitVec 1) (w : BitVec 2) (g : BitVec 3) (d a b : BitVec 6)
  /-- SHL (R233): Shift left by b modulo the width. -/
  | shl (c : BitVec 1) (w : BitVec 2) (g : BitVec 3) (d a b : BitVec 6)
  /-- SHR (R233): Logical shift right by b modulo the width. -/
  | shr (c : BitVec 1) (w : BitVec 2) (g : BitVec 3) (d a b : BitVec 6)
  /-- SRA (R233): Arithmetic shift right by b modulo the width. -/
  | sra (c : BitVec 1) (w : BitVec 2) (g : BitVec 3) (d a b : BitVec 6)
  /-- ROT (R233): Rotate left by b modulo the width. -/
  | rot (c : BitVec 1) (w : BitVec 2) (g : BitVec 3) (d a b : BitVec 6)
  /-- MUL (R235): Low half of the product of each sub-element. -/
  | mul (c w : BitVec 1) (g : BitVec 3) (d a b : BitVec 6)
  /-- MULH_S (R235): High half of the signed product. -/
  | mulhS (c w : BitVec 1) (g : BitVec 3) (d a b : BitVec 6)
  /-- MULH_Z (R235): High half of the unsigned product. -/
  | mulhZ (c w : BitVec 1) (g : BitVec 3) (d a b : BitVec 6)
  /-- MAD (R235): a times b plus xd for each sub-element. -/
  | mad (c w : BitVec 1) (g : BitVec 3) (d a b : BitVec 6)
  /-- DIV_S (R236): Signed division toward zero, never faulting. -/
  | divS (c w : BitVec 1) (g : BitVec 3) (d a b : BitVec 6)
  /-- DIV_Z (R236): Unsigned division toward zero, never faulting. -/
  | divZ (c w : BitVec 1) (g : BitVec 3) (d a b : BitVec 6)
  /-- REM_S (R236): Signed remainder with the sign of the dividend. -/
  | remS (c w : BitVec 1) (g : BitVec 3) (d a b : BitVec 6)
  /-- REM_Z (R236): Unsigned remainder. -/
  | remZ (c w : BitVec 1) (g : BitVec 3) (d a b : BitVec 6)
  /-- CLZ (R235): Counts leading zero bits of each sub-element. -/
  | clz (c w : BitVec 1) (g : BitVec 3) (d a : BitVec 6)
  /-- POPC (R235): Counts one bits of each sub-element. -/
  | popc (c w : BitVec 1) (g : BitVec 3) (d a : BitVec 6)
  /-- BREV (R235): Reverses the bits of each sub-element. -/
  | brev (c w : BitVec 1) (g : BitVec 3) (d a : BitVec 6)
  /-- BFX (R237): Extracts a bit field, sign- or zero-extended. -/
  | bfx (c w : BitVec 1) (g : BitVec 3) (d a b : BitVec 6)
  /-- BFI (R237): Inserts a bit field of xa into xd. -/
  | bfi (c w : BitVec 1) (g : BitVec 3) (d a b : BitVec 6)
  /-- ADDI (R238): Adds a sign-extended immediate to xa. -/
  | addi (c : BitVec 1) (g : BitVec 3) (h : BitVec 4) (d a i : BitVec 6)
  /-- ANDI (R238): ANDs xa with a zero-extended immediate. -/
  | andi (c : BitVec 1) (g : BitVec 3) (h : BitVec 2) (d a i : BitVec 6)
  /-- ORI (R238): ORs xa with a zero-extended immediate. -/
  | ori (c : BitVec 1) (g : BitVec 3) (h : BitVec 2) (d a i : BitVec 6)
  /-- XORI (R238): XORs xa with a zero-extended immediate. -/
  | xori (c : BitVec 1) (g : BitVec 3) (h : BitVec 2) (d a i : BitVec 6)
  /-- SHLI (R238): Shifts xa left by an immediate amount. -/
  | shli (c : BitVec 1) (g : BitVec 3) (d a i : BitVec 6)
  /-- SHRI (R238): Shifts xa right logically by an immediate amount. -/
  | shri (c : BitVec 1) (g : BitVec 3) (d a i : BitVec 6)
  /-- SRAI (R238): Shifts xa right arithmetically by an immediate amount. -/
  | srai (c : BitVec 1) (g : BitVec 3) (d a i : BitVec 6)
  /-- MOVI (R238): Writes a sign-extended 16-bit immediate to xd. -/
  | movi (c : BitVec 1) (g : BitVec 3) (h : BitVec 4) (d j i : BitVec 6)
  /-- CMPI (R239): Compares xa with an immediate and writes a predicate. -/
  | cmpi (c : BitVec 1) (g : BitVec 3) (h : BitVec 4) (e p : BitVec 3) (a i : BitVec 6)
  /-- CMP (R239): Compares sub-element 0 of xa and xb at a width and writes a predicate. -/
  | cmp (c : BitVec 1) (g : BitVec 3) (w : BitVec 2) (e p : BitVec 3) (a b : BitVec 6)
  /-- PAND (R240): ANDs two predicates. -/
  | pand (c : BitVec 1) (g p q r : BitVec 3)
  /-- POR (R240): ORs two predicates. -/
  | por (c : BitVec 1) (g p q r : BitVec 3)
  /-- PXOR (R240): XORs two predicates. -/
  | pxor (c : BitVec 1) (g p q r : BitVec 3)
  /-- PNOT (R240): Inverts a predicate. -/
  | pnot (c : BitVec 1) (g p q : BitVec 3)
  /-- SEL (R241): Bitwise select of xa and xb by the bits of xd. -/
  | sel (c : BitVec 1) (g : BitVec 3) (d a b : BitVec 6)
  /-- MOV (R241): Copies xa to xd. -/
  | mov (c : BitVec 1) (g : BitVec 3) (d a : BitVec 6)
  /-- LEA (R241): Writes xa plus 8 times xb. -/
  | lea (c : BitVec 1) (g : BitVec 3) (d a b : BitVec 6)
  /-- IXGET (R242): Reads the register named by each lane's index. -/
  | ixget (c : BitVec 1) (g : BitVec 3) (d a : BitVec 6)
  /-- IXPUT (R242): Writes the register named by each lane's index. -/
  | ixput (c : BitVec 1) (g : BitVec 3) (a b : BitVec 6)
  /-- GETS (R243): Reads a system value into xd. -/
  | gets (c : BitVec 1) (g : BitVec 3) (d a : BitVec 6)
  /-- PUTS (R243): Sets the thread's SEED from xb. -/
  | puts (c : BitVec 1) (g : BitVec 3) (b : BitVec 6)
  /-- BRA (R244): Branches PC-relative. -/
  | bra (c : BitVec 1) (g : BitVec 3) (o : BitVec 22)
  /-- CALL (R244): Writes the return address to x31 and branches PC-relative. -/
  | call (c : BitVec 1) (g : BitVec 3) (o : BitVec 22)
  /-- BRX (R245): Branches to the address in xa. -/
  | brx (c : BitVec 1) (g : BitVec 3) (a : BitVec 6)
  /-- RET (R245): Returns to the address in xa, x31 by default. -/
  | ret (c : BitVec 1) (g : BitVec 3) (a : BitVec 6)
  /-- EXIT (R247): Ends the thread, clears its mask bits and evaluates releases. -/
  | exit (c : BitVec 1) (g : BitVec 3)
  /-- NOP (R247): Advances the PC only. -/
  | nop (c : BitVec 1) (g : BitVec 3)
  /-- YIELD (R247): Advances the PC and makes the scheduler leave the warp. -/
  | yield (c : BitVec 1) (g : BitVec 3)
  /-- MJOIN (R30): Sets the issuing threads' bits in mask mk. -/
  | mjoin (c : BitVec 1) (g : BitVec 3) (a : BitVec 6)
  /-- MLEAVE (R30): Clears the issuing threads' bits in mk and evaluates its release. -/
  | mleave (c : BitVec 1) (g : BitVec 3) (a : BitVec 6)
  /-- MWAIT (R30): Parks member threads on mk and evaluates its release. -/
  | mwait (c : BitVec 1) (g : BitVec 3) (a : BitVec 6)
  /-- MSET (R249): Sets mask mk from the leader's register and evaluates its release. -/
  | mset (c : BitVec 1) (g : BitVec 3) (d a : BitVec 6)
  /-- MGET (R249): Copies mask mk to xd. -/
  | mget (c : BitVec 1) (g : BitVec 3) (d a : BitVec 6)
  /-- VOTE_BALLOT (R250): Writes the ballot of a predicate across the voters. -/
  | voteBallot (c : BitVec 1) (g : BitVec 3) (d : BitVec 6) (a : BitVec 3)
  /-- VOTE_ALL (R250): True if the predicate holds for every voter. -/
  | voteAll (c : BitVec 1) (g d a : BitVec 3)
  /-- VOTE_ANY (R250): True if the predicate holds for some voter. -/
  | voteAny (c : BitVec 1) (g d a : BitVec 3)
  /-- VOTE_UNI (R250): True if every voter holds the same predicate value. -/
  | voteUni (c : BitVec 1) (g d a : BitVec 3)
  /-- LDG (R254): Loads from global memory with an order and scope. -/
  | ldg (c : BitVec 1) (g : BitVec 3) (s : BitVec 2) (o : BitVec 3) (d a : BitVec 6) (k : BitVec 5)
  /-- STG (R254): Stores to global memory with an order and scope. -/
  | stg (c : BitVec 1) (g : BitVec 3) (s : BitVec 2) (o : BitVec 3) (d a : BitVec 6) (k : BitVec 5)
  /-- LDS (R254): Loads from the scratchpad window. -/
  | lds (c : BitVec 1) (g : BitVec 3) (s : BitVec 2) (o : BitVec 3) (d a : BitVec 6) (k : BitVec 5)
  /-- STS (R254): Stores to the scratchpad window. -/
  | sts (c : BitVec 1) (g : BitVec 3) (s : BitVec 2) (o : BitVec 3) (d a : BitVec 6) (k : BitVec 5)
  /-- ATOM_ADD (R258): Atomic add returning the old value. -/
  | atomAdd (c : BitVec 1) (g : BitVec 3) (s : BitVec 1) (o : BitVec 3) (d a : BitVec 6) (e p : BitVec 1)
  /-- ATOM_MIN_S (R258): Atomic signed minimum returning the old value. -/
  | atomMinS (c : BitVec 1) (g : BitVec 3) (s : BitVec 1) (o : BitVec 3) (d a : BitVec 6) (e p : BitVec 1)
  /-- ATOM_MAX_S (R258): Atomic signed maximum returning the old value. -/
  | atomMaxS (c : BitVec 1) (g : BitVec 3) (s : BitVec 1) (o : BitVec 3) (d a : BitVec 6) (e p : BitVec 1)
  /-- ATOM_AND (R258): Atomic AND returning the old value. -/
  | atomAnd (c : BitVec 1) (g : BitVec 3) (s : BitVec 1) (o : BitVec 3) (d a : BitVec 6) (e p : BitVec 1)
  /-- ATOM_OR (R258): Atomic OR returning the old value. -/
  | atomOr (c : BitVec 1) (g : BitVec 3) (s : BitVec 1) (o : BitVec 3) (d a : BitVec 6) (e p : BitVec 1)
  /-- ATOM_XOR (R258): Atomic XOR returning the old value. -/
  | atomXor (c : BitVec 1) (g : BitVec 3) (s : BitVec 1) (o : BitVec 3) (d a : BitVec 6) (e p : BitVec 1)
  /-- ATOM_EXCH (R258): Atomic exchange returning the old value. -/
  | atomExch (c : BitVec 1) (g : BitVec 3) (s : BitVec 1) (o : BitVec 3) (d a : BitVec 6) (e p : BitVec 1)
  /-- ATOM_INC (R258): Atomic wrapping increment up to b, returning the old value. -/
  | atomInc (c : BitVec 1) (g : BitVec 3) (s : BitVec 1) (o : BitVec 3) (d a : BitVec 6) (e p : BitVec 1)
  /-- ATOMF_ADD (R259): Atomic floating-point add in f32 or bf16, rounded once. -/
  | atomfAdd (c : BitVec 1) (g : BitVec 3) (s : BitVec 2) (o : BitVec 3) (d a : BitVec 6) (e p : BitVec 1)
  /-- CAS (R260): Atomic compare-and-swap returning the old value. -/
  | cas (c : BitVec 1) (g : BitVec 3) (s : BitVec 1) (o : BitVec 3) (d a : BitVec 6) (p : BitVec 1)
  /-- NIBINS (R261): Atomically writes one nibble of a byte. -/
  | nibins (c : BitVec 1) (g o : BitVec 3) (d a : BitVec 6) (n p : BitVec 1)
  /-- RED_ADD (R262): Atomic add with no result. -/
  | redAdd (c : BitVec 1) (g : BitVec 3) (s : BitVec 1) (o : BitVec 3) (d a : BitVec 6) (e p : BitVec 1)
  /-- RED_MIN_S (R262): Atomic signed minimum with no result. -/
  | redMinS (c : BitVec 1) (g : BitVec 3) (s : BitVec 1) (o : BitVec 3) (d a : BitVec 6) (e p : BitVec 1)
  /-- RED_MAX_S (R262): Atomic signed maximum with no result. -/
  | redMaxS (c : BitVec 1) (g : BitVec 3) (s : BitVec 1) (o : BitVec 3) (d a : BitVec 6) (e p : BitVec 1)
  /-- RED_AND (R262): Atomic AND with no result. -/
  | redAnd (c : BitVec 1) (g : BitVec 3) (s : BitVec 1) (o : BitVec 3) (d a : BitVec 6) (e p : BitVec 1)
  /-- RED_OR (R262): Atomic OR with no result. -/
  | redOr (c : BitVec 1) (g : BitVec 3) (s : BitVec 1) (o : BitVec 3) (d a : BitVec 6) (e p : BitVec 1)
  /-- RED_XOR (R262): Atomic XOR with no result. -/
  | redXor (c : BitVec 1) (g : BitVec 3) (s : BitVec 1) (o : BitVec 3) (d a : BitVec 6) (e p : BitVec 1)
  /-- RED_FADD (R262): Atomic floating-point add with no result. -/
  | redFadd (c : BitVec 1) (g : BitVec 3) (s : BitVec 2) (o : BitVec 3) (d a : BitVec 6) (e p : BitVec 1)
  /-- RED_INC (R262): Atomic wrapping increment with no result. -/
  | redInc (c : BitVec 1) (g : BitVec 3) (s : BitVec 1) (o : BitVec 3) (d a : BitVec 6) (e p : BitVec 1)
  /-- WAITV (R264): Waits, parked, until a global location meets a condition. -/
  | waitv (c : BitVec 1) (g : BitVec 3) (s : BitVec 2) (o : BitVec 3) (d a : BitVec 6) (e : BitVec 3)
  /-- FENCE (R265): Holds later memory accesses until the fence completes at its scope. -/
  | fence (c : BitVec 1) (g o : BitVec 3)
  /-- FENCE_ENG (R265): A .core fence that also posts the thread's earlier STS to engines. -/
  | fenceEng (c : BitVec 1) (g : BitVec 3)
  /-- BAR_ARRIVE (R267): Arrives at a named barrier without waiting and returns a phase token. -/
  | barArrive (c : BitVec 1) (g : BitVec 3) (d : BitVec 6) (n : BitVec 10)
  /-- BAR_SYNC (R267): Arrives at a named barrier and waits for its phase to end. -/
  | barSync (c : BitVec 1) (g : BitVec 3) (d : BitVec 6) (n : BitVec 10)
  /-- BAR_WAIT (R267): Waits for the phase named by a token to end. -/
  | barWait (c : BitVec 1) (g : BitVec 3) (d : BitVec 6) (n : BitVec 10)
  /-- BAR_SYNC_ENG (R267): BAR.SYNC whose phase end posts the arrivals' STS. -/
  | barSyncEng (c : BitVec 1) (g : BitVec 3) (d : BitVec 6) (n : BitVec 10)
  /-- BAR_WAIT_ENG (R267): BAR.WAIT that posts the arrivals' STS when it leaves. -/
  | barWaitEng (c : BitVec 1) (g : BitVec 3) (d : BitVec 6) (n : BitVec 10)
  /-- CBINIT (R270): Initialises a completion object with a count and scope. -/
  | cbinit (c : BitVec 1) (g s : BitVec 3) (a b : BitVec 6)
  /-- CBWAIT (R270): Parks until a completion object's count is zero or ERROR is set. -/
  | cbwait (c : BitVec 1) (g : BitVec 3) (d a : BitVec 6)
  /-- CBTEST (R270): Tests whether a completion object's count is zero. -/
  | cbtest (c : BitVec 1) (g p : BitVec 3) (a : BitVec 6)
  /-- CBADD (R270): Adds to or counts down a completion object atomically. -/
  | cbadd (c : BitVec 1) (g : BitVec 3) (a b : BitVec 6)
  /-- PREF (R271): Fills home-slice lines of a range. -/
  | pref (c : BitVec 1) (g : BitVec 3) (a b : BitVec 6)
  /-- FLUSHL (R271): Invalidates fetch-unit cache lines overlapping a range. -/
  | flushl (c : BitVec 1) (g : BitVec 3) (a b : BitVec 6)
  /-- FADD (R274): Packed floating-point add rounded once. -/
  | fadd (c : BitVec 1) (w : BitVec 2) (g : BitVec 3) (r : BitVec 2) (d a b : BitVec 6)
  /-- FSUB (R274): Packed floating-point subtract rounded once. -/
  | fsub (c : BitVec 1) (w : BitVec 2) (g : BitVec 3) (r : BitVec 2) (d a b : BitVec 6)
  /-- FMUL (R274): Packed floating-point multiply rounded once. -/
  | fmul (c : BitVec 1) (w : BitVec 2) (g : BitVec 3) (r : BitVec 2) (d a b : BitVec 6)
  /-- FFMA (R274): Packed fused multiply-add into xd, rounded once. -/
  | ffma (c : BitVec 1) (w : BitVec 2) (g : BitVec 3) (r : BitVec 2) (d a b : BitVec 6)
  /-- FMIN_F32 (R276): FP32 minimum preferring numbers over NaN. -/
  | fminS (c : BitVec 1) (g : BitVec 3) (d a b : BitVec 6)
  /-- FMIN_F16_BF16 (R276): FP16 or BF16 minimum preferring numbers over NaN. -/
  | fminH (c w : BitVec 1) (g : BitVec 3) (d a b : BitVec 6)
  /-- FMAX_F32 (R276): FP32 maximum preferring numbers over NaN. -/
  | fmaxS (c : BitVec 1) (g : BitVec 3) (d a b : BitVec 6)
  /-- FMAX_F16_BF16 (R276): FP16 or BF16 maximum preferring numbers over NaN. -/
  | fmaxH (c w : BitVec 1) (g : BitVec 3) (d a b : BitVec 6)
  /-- FABS_F32 (R276): Clears the sign of each FP32 sub-element. -/
  | fabsS (c : BitVec 1) (g : BitVec 3) (d a : BitVec 6)
  /-- FABS_F16_BF16 (R276): Clears the sign of each FP16 or BF16 sub-element. -/
  | fabsH (c w : BitVec 1) (g : BitVec 3) (d a : BitVec 6)
  /-- FNEG_F32 (R276): Inverts the sign of each FP32 sub-element. -/
  | fnegS (c : BitVec 1) (g : BitVec 3) (d a : BitVec 6)
  /-- FNEG_F16_BF16 (R276): Inverts the sign of each FP16 or BF16 sub-element. -/
  | fnegH (c w : BitVec 1) (g : BitVec 3) (d a : BitVec 6)
  /-- FCMP_F32 (R277): Compares FP32 sub-element 0 and writes a predicate. -/
  | fcmpS (c : BitVec 1) (g e p : BitVec 3) (a b : BitVec 6)
  /-- FCMP_F16_BF16 (R277): Compares FP16 or BF16 sub-element 0 and writes a predicate. -/
  | fcmpH (c w : BitVec 1) (g e p : BitVec 3) (a b : BitVec 6)
  /-- FCLASS_F32 (R278): Writes a class mask for each FP32 sub-element. -/
  | fclassS (c : BitVec 1) (g : BitVec 3) (d a : BitVec 6)
  /-- FCLASS_F16_BF16 (R278): Writes a class mask for each FP16 or BF16 sub-element. -/
  | fclassH (c w : BitVec 1) (g : BitVec 3) (d a : BitVec 6)
  /-- FCVT (R280): Converts between float formats field by field. -/
  | fcvt (c : BitVec 1) (g e : BitVec 3) (t : BitVec 1) (d a : BitVec 6) (f r : BitVec 3)
  /-- ICVT (R281): Converts floats to saturated integers. -/
  | icvt (c : BitVec 1) (g f : BitVec 3) (d a : BitVec 6) (i r : BitVec 3)
  /-- FCVTI (R281): Converts integers to floats. -/
  | fcvti (c : BitVec 1) (g f : BitVec 3) (d a : BitVec 6) (i r : BitVec 3)
  /-- PACK (R283): Narrows the sub-elements of two registers into one. -/
  | pack (c : BitVec 1) (g : BitVec 3) (d a : BitVec 6) (x t : BitVec 1) (w : BitVec 2)
  /-- UNPK (R283): Widens one half of a register's sub-elements. -/
  | unpk (c : BitVec 1) (g : BitVec 3) (d a : BitVec 6) (x h : BitVec 1) (w : BitVec 2)
  /-- FRCP (R284): FP32 reciprocal rounded RNE. -/
  | frcp (c : BitVec 1) (g : BitVec 3) (d a : BitVec 6)
  /-- FRSQ (R284): FP32 reciprocal square root. -/
  | frsq (c : BitVec 1) (g : BitVec 3) (d a : BitVec 6)
  /-- FSQRT (R284): FP32 square root. -/
  | fsqrt (c : BitVec 1) (g : BitVec 3) (d a : BitVec 6)
  /-- FEXP2 (R284): FP32 base-2 exponential. -/
  | fexp2 (c : BitVec 1) (g : BitVec 3) (d a : BitVec 6)
  /-- FLOG2 (R284): FP32 base-2 logarithm. -/
  | flog2 (c : BitVec 1) (g : BitVec 3) (d a : BitVec 6)
  /-- FSIN (R284): FP32 sine. -/
  | fsin (c : BitVec 1) (g : BitVec 3) (d a : BitVec 6)
  /-- FCOS (R284): FP32 cosine. -/
  | fcos (c : BitVec 1) (g : BitVec 3) (d a : BitVec 6)
  /-- PERM (R287): Gathers 16-bit fields from sub-elements of other lanes. -/
  | perm (c : BitVec 1) (g : BitVec 3) (d a b : BitVec 6)
  /-- SHFL (R288): Reads xa from the lane each thread selects. -/
  | shfl (c : BitVec 1) (g : BitVec 3) (d a b : BitVec 6)
  /-- LBCAST (R289): Broadcasts xa of one lane to every thread. -/
  | lbcast (c : BitVec 1) (g : BitVec 3) (d a : BitVec 6) (l : BitVec 5)
  /-- TIDSET (R296): Copies a 64-byte image into a TID table entry. -/
  | tidset (c : BitVec 1) (g : BitVec 3) (a b : BitVec 6)
  /-- TIDGET (R296): Reads one word of a TID entry. -/
  | tidget (c : BitVec 1) (g : BitVec 3) (d a : BitVec 6)
  /-- WLOAD (R298): Issues a weight-plane load command. -/
  | wload (c : BitVec 1) (g : BitVec 3) (a : BitVec 6)
  /-- WLOADSP (R298): Issues a four-in-eight sparse weight load command. -/
  | wloadsp (c : BitVec 1) (g : BitVec 3) (a : BitVec 6)
  /-- WSWAP (R300): Issues a swap of the shadow and active planes. -/
  | wswap (c : BitVec 1) (g : BitVec 3)
  /-- MSTREAM (R301): Issues an activation stream into a tile. -/
  | mstream (c : BitVec 1) (g : BitVec 3) (a : BitVec 6)
  /-- MDRAIN (R302): Issues a drain of a tile through the drain chain. -/
  | mdrain (c : BitVec 1) (g : BitVec 3) (a : BitVec 6)
  /-- EPISET (R303): Issues a load of an epilogue set from the scratchpad. -/
  | episet (c : BitVec 1) (g : BitVec 3) (k : BitVec 2) (a : BitVec 6)
  /-- ACCZ (R304): Zeroes a tile once its count is zero. -/
  | accz (c : BitVec 1) (g : BitVec 3) (t : BitVec 2)
  /-- ACCRD (R304): Reads two raw tile words per thread. -/
  | accrd (c : BitVec 1) (g : BitVec 3) (d a : BitVec 6) (t : BitVec 2)
  /-- ACCWR (R304): Writes two tile words per thread. -/
  | accwr (c : BitVec 1) (g : BitVec 3) (d a : BitVec 6) (t : BitVec 2)
  /-- SPCMP (R305): Compresses eight 8-bit values to four kept values and metadata. -/
  | spcmp (c : BitVec 1) (g : BitVec 3) (d a : BitVec 6) (f : BitVec 3)
  /-- KICK (R306): Lists a chain head on a copy queue and counts its tiles. -/
  | kick (c : BitVec 1) (g n : BitVec 3) (a : BitVec 6) (t : BitVec 4)
  /-- QSTAT (R306): Returns a copy queue's status word. -/
  | qstat (c : BitVec 1) (g : BitVec 3) (d : BitVec 6) (n : BitVec 3)
  /-- EVSET (R306): Pulses an event line once per bundle. -/
  | evset (c : BitVec 1) (g : BitVec 3) (n : BitVec 5)
  /-- EVCLR (R306): Clears an event line's count and overflow bit. -/
  | evclr (c : BitVec 1) (g : BitVec 3) (n : BitVec 5)
  /-- FETCH (R307): Reads and decodes tensor elements through the fetch unit. -/
  | fetch (c : BitVec 1) (g : BitVec 3) (d a b : BitVec 6)
  /-- EREF (R311): Resolves a handle to a row reference and predicate. -/
  | eref (c : BitVec 1) (g : BitVec 3) (d a : BitVec 6) (p : BitVec 3)
  /-- ECOL (R312): Gives the address of a component element of a row, or the sink. -/
  | ecol (c : BitVec 1) (g : BitVec 3) (d a b : BitVec 6)
  /-- ESPAN (R313): Finds the next run of matching query rows from a cursor. -/
  | espan (c : BitVec 1) (g : BitVec 3) (d a b : BitVec 6)
  /-- ENEW (R315): Reserves an index and queues a creation edit. -/
  | enew (c : BitVec 1) (g : BitVec 3) (d a b : BitVec 6)
  /-- EDEL (R315): Queues a deletion edit. -/
  | edel (c : BitVec 1) (g : BitVec 3) (a : BitVec 6)
  /-- EADD (R315): Queues an add-component edit. -/
  | eadd (c : BitVec 1) (g : BitVec 3) (d a b : BitVec 6)
  /-- EREM (R315): Queues a remove-component edit. -/
  | erem (c : BitVec 1) (g : BitVec 3) (a b : BitVec 6)
  /-- VOPEN (R160): Opens a view slot and returns its token. -/
  | vopen (c : BitVec 1) (g : BitVec 3) (d a : BitVec 6)
  /-- VCLOSE (R160): Frees a view slot named by a token. -/
  | vclose (c : BitVec 1) (g : BitVec 3) (a : BitVec 6)
  /-- BEAMQ (R320): Submits a beam record to the beam engine. -/
  | beamq (c : BitVec 1) (g : BitVec 3) (a : BitVec 6)
  /-- RAYQ (R187): Submits a ray record per lane to the beam engine. -/
  | rayq (c : BitVec 1) (g : BitVec 3) (a : BitVec 6)
  /-- SPAWN (R322): Pushes a task frame per lane, adding to its join counter. -/
  | spawn (c : BitVec 1) (g : BitVec 3) (a : BitVec 6)
  /-- JOIN (R323): Parks until a join counter reads zero, then acquires. -/
  | join (c : BitVec 1) (g s : BitVec 3) (a : BitVec 6)
  /-- TDONE (R324): Decrements the task's join counter with release and exits. -/
  | tdone (c : BitVec 1) (g : BitVec 3)
  /-- LQPUB (R325): Publishes a launch-queue packet by its start offset. -/
  | lqpub (c : BitVec 1) (g : BitVec 3) (a b : BitVec 6)
  /-- TRAP (R326): Raises SOFTWARE_TRAP with a code. -/
  | trap (c : BitVec 1) (g : BitVec 3) (i : BitVec 12)
  /-- BKPT (R326): Raises BREAKPOINT with a code. -/
  | bkpt (c : BitVec 1) (g : BitVec 3) (i : BitVec 12)
  /-- RESUME_REPLAY (R327): Resumes a halted group, replaying the faulting group or held command. -/
  | resumeReplay (c : BitVec 1) (g : BitVec 3) (a : BitVec 6)
  /-- RESUME_SKIP (R327): Resumes a halted group, passing over the faulting group. -/
  | resumeSkip (c : BitVec 1) (g : BitVec 3) (a : BitVec 6)
  /-- RESUME_END (R327): Ends the halted work-group. -/
  | resumeEnd (c : BitVec 1) (g : BitVec 3) (a : BitVec 6)
  /-- EXT (R219): Prefix that widens the immediate of the next word. -/
  | extWord (i : BitVec 25)
  /-- REP (R221): Prefix that issues the next word N times with stepped register fields. -/
  | repWord (d a b : BitVec 2) (n : BitVec 6)
  /-- POWER_ON (R23): Host turns the package on, a cold reset that restores reset values and boots. -/
  | powerOn
  /-- POWER_OFF (R23): Host turns the package off, ending all work at once. -/
  | powerOff
  /-- PGLIM_WRITE (R22): Write of a sector power limit, clamped to keep the sum at 3,800 W. -/
  | pglimWrite (sector : Nat) (v : Word)
  /-- LEAVE_REQUEST (R21): A heavy command asks its sector governor for power leave. -/
  | leaveRequest (core unit : Nat)
  /-- LEAVE_GRANT (R21): Governor grants leave once the charge fits under PGLIM. -/
  | leaveGrant (sector : Nat)
  /-- PC_TABLE_RESORT (R25): Every fourth clk the PC table is re-sorted. -/
  | pcTableResort (core slot : Nat)
  /-- THREAD_WAKE (R36): A parked thread becomes ready once its condition holds. -/
  | threadWake (core slot lane : Nat)
  /-- WARP_LOAD_COMPLETE (R37): A launched or restored warp finishes loading and becomes ready. -/
  | warpLoadComplete (core slot : Nat)
  /-- WARP_DRAIN_COMPLETE (R37): A draining warp's issued words have all completed and it starts saving. -/
  | warpDrainComplete (core slot : Nat)
  /-- WARP_SAVE_COMPLETE (R40): The warp's save record is written and the slot is freed. -/
  | warpSaveComplete (core slot : Nat)
  /-- WARP_EXIT_COMPLETE (R37): An exiting warp's issued words complete and its slot is freed. -/
  | warpExitComplete (core slot : Nat)
  /-- INSTRUCTION_BOUNDARY_SAVE (R38): A save request stops every warp of the context at its next issue slot. -/
  | instructionBoundarySave (ctx : Nat)
  /-- RECONVERGENCE_PREEMPTION (R39): Warps enter DRAINING at their first fully reconverged boundary. -/
  | reconvergencePreemption (ctx : Nat)
  /-- RECONVERGENCE_TIMEOUT (R39): Expiry of the reconvergence timeout switches remaining warps to instruction-boundary save. -/
  | reconvergenceTimeout (ctx : Nat)
  /-- WARP_RESTORE (R40): A saved warp and its scratchpad windows are restored onto a core. -/
  | warpRestore (ctx idx core slot : Nat)
  /-- PUBLICATION_ARRIVAL (R45): The arbiter receives a publication, reads its header and advances the tail. -/
  | publicationArrival (ctx q : Nat)
  /-- LQTAIL_WRITE (R45): Host write of the tail publishes everything below it. -/
  | lqtailWrite (ctx q : Nat) (v : Word)
  /-- LQCTL_ERR_CLEAR (R375): Clearing ERR treats the malformed entry as ended and resumes the queue. -/
  | lqctlErrClear (ctx q : Nat)
  /-- LQCTL_RESET (R375): Resets a queue's offsets and inherited fields. -/
  | lqctlReset (ctx q : Nat)
  /-- LQCTL_ENABLE (R375): Enables or disables the arbiter's reading of a queue. -/
  | lqctlEnable (ctx q : Nat) (en : Bool)
  /-- QUEUE_NOP (R47): The arbiter starts a NOP entry, which does nothing. -/
  | queueNop (ctx q : Nat)
  /-- QUEUE_LAUNCH (R49): The arbiter starts a LAUNCH entry, inheriting absent fields. -/
  | queueLaunch (ctx q : Nat)
  /-- QUEUE_WSYNC (R155): The arbiter starts a WSYNC entry, which runs a sync point. -/
  | queueWsync (ctx q : Nat)
  /-- QUEUE_FENCE (R47): The arbiter starts a FENCE entry holding later entries. -/
  | queueFence (ctx q : Nat)
  /-- WORKGROUP_PLACEMENT (R54): The arbiter makes the next work-group or team resident once it fits. -/
  | workgroupPlacement (ctx launch : Nat)
  /-- GRID_END (R56): A grid ends once its threads, tasks and frames are done, releasing at .package. -/
  | gridEnd (ctx launch : Nat)
  /-- TASK_DISPATCH (R60): The dispatcher pops up to 32 like frames into a new task warp. -/
  | taskDispatch (core : Nat)
  /-- DECK_REFILL (R63): A deck below 32 frames refills from its stocks. -/
  | deckRefill (core : Nat)
  /-- STEAL_REQUEST (R64): An idle core sends a steal request to its next victim. -/
  | stealRequest (core : Nat)
  /-- STEAL_ROUND_BACKOFF (R64): After a fruitless round the thief waits 256 clk before the next. -/
  | stealRoundBackoff (core : Nat)
  /-- STEAL_SERVE (R65): The victim selects a frame into an in-transit slot and sends it, or replies empty. -/
  | stealServe (core : Nat)
  /-- STEAL_FRAME_ARRIVAL (R65): The thief pushes the frame and sends ACK, or sends NACK if being saved. -/
  | stealFrameArrival (core : Nat)
  /-- STEAL_ACK (R65): The victim frees the in-transit slot on ACK. -/
  | stealAck (core : Nat)
  /-- STEAL_NACK (R66): The victim returns the frame to the front of its launch and frees the slot. -/
  | stealNack (core : Nat)
  /-- STORE_DRAIN (R94): A buffered store leaves the store buffer and is applied at its sector. -/
  | storeDrain (core slot lane idx : Nat)
  /-- LOAD_PERFORM (R94): A load takes its bytes from the store buffer or sector state. -/
  | loadPerform (core slot lane idx : Nat)
  /-- ATOMIC_PERFORM (R96): An atomic performs at its home sector and joins the location's atomic order. -/
  | atomicPerform (core slot lane idx : Nat)
  /-- CAUSAL_DELIVERY (R95): A queued write is applied at another sector once its stamp allows. -/
  | causalDelivery (src dst : Nat)
  /-- FENCE_COMPLETE (R101): A fence completes once its conditions at its scope hold. -/
  | fenceComplete (core slot lane : Nat)
  /-- PAGE_REQUEST_RETRY (R406): Host answers RETRY and waiting accesses re-walk. -/
  | pageRequestRetry (sector n : Nat)
  /-- PAGE_REQUEST_FAIL (R406): Host answers FAIL and waiting accesses raise TRANSLATION. -/
  | pageRequestFail (sector n : Nat)
  /-- GENERATION_REJECT_REPLAY (R85): A home slice rejects a stale-generation access, which the core re-translates and replays. -/
  | generationRejectReplay (core slot lane : Nat)
  /-- ASGEN_BUMP (R86): Writing BUMP makes the next generation current and discards old TLB entries. -/
  | asgenBump (ctx : Nat)
  /-- ASGEN_BUMP_COMPLETE (R86): BUSY clears once no older-generation access remains in flight. -/
  | asgenBumpComplete (ctx : Nat)
  /-- RWINCTL_WRITE (R77): Enabling a resident window, refused with OVER above 96 MiB. -/
  | rwinctlWrite (sector window : Nat) (v : Word)
  /-- HBMRTCTL_WRITE (R91): Write of the retraining interval, clamped to range. -/
  | hbmrtctlWrite (stack : Nat) (v : Word)
  /-- HBM_RETRAIN (R91): A stack retrains its next channel in a refresh slot when the interval expires. -/
  | hbmRetrain (stack : Nat)
  /-- REMOTE_WRITE_APPLY (R107): A received remote write or reduce is applied at the target in send order. -/
  | remoteWriteApply (idx : Nat)
  /-- NUMCTL_WRITE (R133): Write of numerical mode and SAMPLELOG, clamped to range. -/
  | numctlWrite (ctx : Nat) (v : Word)
  /-- NUMDROP_CLEAR (R135): A write of all ones clears the dropped-record count. -/
  | numdropClear (ctx : Nat) (v : Word)
  /-- SYNC_POINT (R156): The ESU applies a batch's edits and raises the world version. -/
  | syncPoint (ctx q : Nat)
  /-- SYNC_POINT_RESUME (R166): An interrupted sync point continues from SYNCPOS at switch-in. -/
  | syncPointResume (ctx q : Nat)
  /-- BEAM_QUERY_START (R178): The beam engine starts an accepted query and traverses it. -/
  | beamQueryStart (core : Nat)
  /-- WEIGHT_LOAD_START (R195): A WLOAD or WLOADSP starts once its order conditions and leave allow. -/
  | weightLoadStart (core idx : Nat)
  /-- SWAP_START (R193): A WSWAP takes effect once earlier loads and streams complete. -/
  | swapStart (core idx : Nat)
  /-- STREAM_START (R194): An MSTREAM starts and passes its activation rows through the array. -/
  | streamStart (core idx : Nat)
  /-- DRAIN_START (R197): An MDRAIN starts and writes its tile through the drain chain. -/
  | drainStart (core idx : Nat)
  /-- EPISET_START (R303): An EPISET starts and loads its set, or raises ENGINE_ENTRY. -/
  | episetStart (core idx : Nat)
  /-- MATRIX_COMMAND_COMPLETE (R295): A matrix command completes: flags merge, count-down, pulse, tile count falls. -/
  | matrixCommandComplete (core idx : Nat)
  /-- TIDSET_COMPLETE (R296): A TIDSET's entry becomes the one later commands use. -/
  | tidsetComplete (core : Nat)
  /-- FLUSHL_COMPLETE (R271): A FLUSHL finishes invalidating and releases waiting FETCH words. -/
  | flushlComplete (core : Nat)
  /-- CHAIN_COPY (R201): Copy queue runs a COPY entry. -/
  | chainCopy (core q : Nat)
  /-- CHAIN_STRIDED (R201): Copy queue runs a STRIDED entry. -/
  | chainStrided (core q : Nat)
  /-- CHAIN_GATHER (R201): Copy queue runs a GATHER entry. -/
  | chainGather (core q : Nat)
  /-- CHAIN_SCATTER (R201): Copy queue runs a SCATTER entry. -/
  | chainScatter (core q : Nat)
  /-- CHAIN_NMGATHER (R201): Copy queue runs a near-memory gather entry. -/
  | chainNmgather (core q : Nat)
  /-- CHAIN_MASKROW (R201): Copy queue runs a MASKROW entry. -/
  | chainMaskrow (core q : Nat)
  /-- CHAIN_INSTAR (R203): Copy queue decodes an Instar stream. -/
  | chainInstar (core q : Nat)
  /-- RWRITE (R201): Copy queue sends a remote write to a fabric package. -/
  | rwrite (core q : Nat)
  /-- RREDUCE (R201): Copy queue sends a remote atomic reduce to a fabric package. -/
  | rreduce (core q : Nat)
  /-- CHAIN_LOOP (R202): Copy queue runs a LOOP entry, stepping its body's addresses. -/
  | chainLoop (core q : Nat)
  /-- CHAIN_COND (R202): Copy queue tests a word and continues or branches. -/
  | chainCond (core q : Nat)
  /-- COND_POLL (R202): A waiting COND reads its word again every 64 clk. -/
  | condPoll (core q : Nat)
  /-- CHAIN_QFENCE (R201): Copy queue holds until named queues' earlier entries complete. -/
  | chainQfence (core q : Nat)
  /-- CHAIN_FOLLOW (R201): Copy queue copies operands and hands a matrix command on. -/
  | chainFollow (core q : Nat)
  /-- CHAIN_SIGNAL (R201): Copy queue stores or adds a value as a release. -/
  | chainSignal (core q : Nat)
  /-- CHAIN_ENTRY_COMPLETE (R104): A chain entry's writes land: count-down, pulse, next entry or next head. -/
  | chainEntryComplete (core q : Nat)
  /-- CHAIN_ACCESS_FAILED (R426): A copy access answered FAIL stops the entry at that access. -/
  | chainAccessFailed (core q : Nat)
  /-- PARTCTL_ENABLE (R367): Setting EN reads the partition record and brings the partition into use. -/
  | partctlEnable (p : Nat) (v : Word)
  /-- PARTITION_RESIZE (R368): Changing SECTORS with EN set starts a resize. -/
  | partitionResize (p : Nat) (v : Word)
  /-- PARTITION_RESIZE_COMPLETE (R368): The resize finishes and BUSY clears. -/
  | partitionResizeComplete (p : Nat)
  /-- PARTCTL_DISABLE (R369): Clearing EN, refused while work is resident. -/
  | partctlDisable (p : Nat) (v : Word)
  /-- CTXCTL_SAVE (R371): Host orders an instruction-boundary save of a context. -/
  | ctxctlSave (ctx : Nat)
  /-- CTXCTL_RUN (R371): Host returns a saved context to rotation. -/
  | ctxctlRun (ctx : Nat)
  /-- CTXCTL_RESET (R371): Host discards a context's state, retires its address space and marks pages for scrub. -/
  | ctxctlReset (ctx : Nat)
  /-- CTXCTL_RETRAP (R396): Host redispatches handlers for records sent to the host. -/
  | ctxctlRetrap (ctx : Nat)
  /-- SLICE_END (R371): A time slice expires and the next runnable context is switched in. -/
  | sliceEnd (ctx : Nat)
  /-- CLUSTER_RECLAIM (R373): Borrowed cores are reclaimed when their owner becomes due. -/
  | clusterReclaim (ctx cluster : Nat)
  /-- RECLAIM_TIMEOUT (R373): The 40 µs reclaim timeout expires and instruction-boundary save follows. -/
  | reclaimTimeout (ctx cluster : Nat)
  /-- BLOCK_RECEIVE (R361): A FloxLink block is received, accepted or discarded with BNAK. -/
  | blockReceive (port : Nat) (good : Bool) (hdr : BitVec 20)
  /-- BLOCK_RESEND (R361): On BNAK the sender resends its kept blocks from BACK + 1. -/
  | blockResend (port : Nat)
  /-- LINK_DOWN (R361): A port without BACK progress or FEC lock goes down and retrains. -/
  | linkDown (port : Nat)
  /-- LINK_RETRAIN_COMPLETE (R361): A retrained port restarts at BSEQ 0. -/
  | linkRetrainComplete (port : Nat)
  /-- RDREQ (R364): Host register read, answered with RDRSP. -/
  | rdreq (port : Nat) (hdr : BitVec 256) (data : List Byte)
  /-- WRREQ (R364): Host register write. -/
  | wrreq (port : Nat) (hdr : BitVec 256) (data : List Byte)
  /-- MRDREQ (R364): Host memory read, answered with MRDRSP. -/
  | mrdreq (port : Nat) (hdr : BitVec 256) (data : List Byte)
  /-- MWRREQ (R364): Host memory write. -/
  | mwrreq (port : Nat) (hdr : BitVec 256) (data : List Byte)
  /-- RWRITE_PACKET (R365): Received remote write packet matched to a context and queued for apply. -/
  | rwritePacket (port : Nat) (hdr : BitVec 256) (data : List Byte)
  /-- RREDUCE_PACKET (R365): Received remote reduce packet matched to a context and queued for apply. -/
  | rreducePacket (port : Nat) (hdr : BitVec 256) (data : List Byte)
  /-- TIME_PACKET (R364): Received IEEE 1588 message on the PTP port. -/
  | timePacket (port : Nat) (hdr : BitVec 256) (data : List Byte)
  /-- CREDIT_PACKET (R362): Received credit return for virtual channels. -/
  | creditPacket (port : Nat) (hdr : BitVec 256)
  /-- HEADCFG_WRITE (R376): Enabling a display head, refused with ERR when it does not fit. -/
  | headcfgWrite (ctx head : Nat) (v : Word)
  /-- HEADSURF_WRITE (R377): Presents a surface to a head's encoder. -/
  | headsurfWrite (ctx head : Nat) (v : Word)
  /-- FRAME_ENCODE_COMPLETE (R377): An encoded frame is written to the ring and HEADSEQ increments. -/
  | frameEncodeComplete (ctx head : Nat)
  /-- PTPCTL_WRITE (R378): Write of PTP control, with WINLEN refusal while fabric launches are bound. -/
  | ptpctlWrite (v : Word)
  /-- PTP_LOCK (R378): First lock sets FABTIME to the disciplined time. -/
  | ptpLock (time : Nat) (offset : BitVec 32)
  /-- BOOT_START (R379): Host starts the boot ROM's firmware verification. -/
  | bootStart
  /-- BOOT_COMPLETE (R379): Verification ends with READY or FAIL. -/
  | bootComplete
  /-- ATTEST_REQUEST (R380): Host asks for a signed attestation report. -/
  | attestRequest
  /-- ATTEST_COMPLETE (R380): The signed report is in ATTREPORT and ATTCTL bit 63 sets. -/
  | attestComplete
  /-- ATTNONCE_WRITE (R380): Writing the nonce clears the report-ready bit. -/
  | attnonceWrite (idx : Nat) (v : Word)
  /-- CKPT_NOW (R381): Host triggers a checkpoint at once. -/
  | ckptNow (ctx : Nat)
  /-- CKPT_PERIOD_EXPIRY (R381): The checkpoint period expires and triggers a checkpoint. -/
  | ckptPeriodExpiry (ctx : Nat)
  /-- CKPT_STEPS_REACHED (R381): The count of sync points reaches STEPS and triggers a checkpoint. -/
  | ckptStepsReached (ctx : Nat)
  /-- CKPT_HASHES_RECEIVED (R382): Peers' hashes arrive; owned chunks and the manifest are written and the context resumes. -/
  | ckptHashesReceived (ctx : Nat) (hashes : List (List Nat))
  /-- CKPT_PEER_TIMEOUT (R383): Peers silent for 10 ms: the rank writes all its own chunks. -/
  | ckptPeerTimeout (ctx : Nat)
  /-- HANDLER_DISPATCH (R394): Once the halted group is HALTED and drained, handler warps start. -/
  | handlerDispatch (core group : Nat)
  /-- HANDLER_RESOURCE_TIMEOUT (R394): No slot or registers within 10 µs: records go to the host. -/
  | handlerResourceTimeout (core group : Nat)
  /-- WATCHDOG (R400): A group parked past WDLIMIT raises WATCHDOG. -/
  | watchdog (core group : Nat)
  /-- CORE_DISABLED (R388): A failing core is taken out of service and its work moved. -/
  | coreDisabled (core source : Nat)
  /-- PAGE_SCRUB (R413): The background scrubber zeroes a scrub-pending page. -/
  | pageScrub (page : Nat)
  /-- REGISTER_WRITE (R359): Write to a device register that has no behaviour of its own. -/
  | registerWrite (addr : Nat) (v : Word)
  /-- SOFT_ERROR (R409): A soft error strikes a granule, register or other stored state and leaves it damaged until repaired or read. -/
  | softError (where_ : SoftWhere) (hard : Bool)
  /-- BLOCK_SEND (R361): A FloxLink port sends its next block, idle or carrying flits, with the next BSEQ and kept for resend. -/
  | blockSend (port : Nat)
  /-- PTP_LOCK_LOSS (R417): The IEEE 1588 protocol loses lock and PTPSTAT.LOCKED falls to 0 while FABTIME runs on at its last rate. -/
  | ptpLockLoss
  /-- SYNC_INTERVAL (R378): The 2^LOGSYNC interval of the protocol expires and the FX9 sends its next timing message. -/
  | syncInterval
  /-- THROTTLED (R22): A leave request's wait passes 200 ns and PGSTAT.THROTTLED sets. -/
  | throttled (sector : Nat)
  /-- RESULT_DELIVERED (R35): A pipe's result reaches its register or predicate after the word's latency and its scoreboard pending bits clear. -/
  | resultDelivered (core slot : Nat)
  deriving DecidableEq, Repr

end Sys2Proof
end

