-- ==== Sys2Proof/WellFormed.lean ====
section
/-! DEFINITION. Which instructions are well formed: the codes that R98, R119, R225, R290, R309 and R330 exclude
make a word raise ILLEGAL_WORD (10 R226, 22 R398). -/

namespace Sys2Proof

/-- An order-scope code is 0 to 5 (05 R98). -/
def orderOk (o : BitVec 3) : Bool := o.toNat ≤ 5
/-- FENCE's OS names a scope: 1 to 5 (12 R265). -/
def fenceOk (o : BitVec 3) : Bool := 1 ≤ o.toNat && o.toNat ≤ 5
/-- The SIZE of a floating atomic: 1 is bf16, 2 is f32 (12 R259, R262). -/
def fltSizeOk (s : BitVec 2) : Bool := s.toNat == 1 || s.toNat == 2
/-- A mask number is 0 to 11 (10 R222). -/
def maskOk (k : BitVec 6) : Bool := k.toNat < 12
/-- A system value that GETS may name (10 R224). -/
def sysOk (n : BitVec 6) : Bool := n.toNat ≤ 5 || (8 ≤ n.toNat && n.toNat ≤ 32)
/-- A scope code of R50 that is not reserved. -/
def scopeOk (s : BitVec 3) : Bool := s.toNat ≤ 4
/-- The three majors of floating-point arithmetic (10 R225). -/
def arithFmtOk (w : BitVec 2) : Bool := w.toNat < 3
/-- A float code other than 7 (10 R223). -/
def fltOk (f : BitVec 3) : Bool := f.toNat < 7
/-- A rounding code of a conversion: 0 to 4 (06 R119). -/
def rndOk (r : BitVec 3) : Bool := r.toNat ≤ 4
/-- PACK with SIGNED set and SAT clear is excluded (13 R290). -/
def packOk (x t : BitVec 1) : Bool := !(x == 1 && t == 0)
/-- A REP step code other than 3 (10 R221). -/
def stepOk (s : BitVec 2) : Bool := s.toNat < 3
/-- SPCMP's format codes (14 R305). -/
def spFmtOk (f : BitVec 3) : Bool := f.toNat < 3
/-- The word 0x0000_0000 is no instruction (10 R226). -/
def notZeroWord (c : BitVec 1) (w : BitVec 2) (g : BitVec 3) (d a b : BitVec 6) : Bool :=
  !(c == 0 && w == 0 && g == 0 && d == 0 && a == 0 && b == 0)

/-- `i` uses no code that the spec excludes.  Steps without an encoding carry no field to check. -/
def Instr.wf (i : Instr) : Bool :=
  match i with
  | .add c w g d a b => notZeroWord c w g d a b
  | .sub _ _ _ _ _ _ => true
  | .minS _ _ _ _ _ _ => true
  | .minZ _ _ _ _ _ _ => true
  | .maxS _ _ _ _ _ _ => true
  | .maxZ _ _ _ _ _ _ => true
  | .abs _ _ _ _ _ => true
  | .and _ _ _ _ _ _ => true
  | .or _ _ _ _ _ _ => true
  | .xor _ _ _ _ _ _ => true
  | .andn _ _ _ _ _ _ => true
  | .shl _ _ _ _ _ _ => true
  | .shr _ _ _ _ _ _ => true
  | .sra _ _ _ _ _ _ => true
  | .rot _ _ _ _ _ _ => true
  | .mul _ _ _ _ _ _ => true
  | .mulhS _ _ _ _ _ _ => true
  | .mulhZ _ _ _ _ _ _ => true
  | .mad _ _ _ _ _ _ => true
  | .divS _ _ _ _ _ _ => true
  | .divZ _ _ _ _ _ _ => true
  | .remS _ _ _ _ _ _ => true
  | .remZ _ _ _ _ _ _ => true
  | .clz _ _ _ _ _ => true
  | .popc _ _ _ _ _ => true
  | .brev _ _ _ _ _ => true
  | .bfx _ _ _ _ _ _ => true
  | .bfi _ _ _ _ _ _ => true
  | .addi _ _ _ _ _ _ => true
  | .andi _ _ _ _ _ _ => true
  | .ori _ _ _ _ _ _ => true
  | .xori _ _ _ _ _ _ => true
  | .shli _ _ _ _ _ => true
  | .shri _ _ _ _ _ => true
  | .srai _ _ _ _ _ => true
  | .movi _ _ _ _ _ _ => true
  | .cmpi _ _ _ _ _ _ _ => true
  | .cmp _ _ _ _ _ _ _ => true
  | .pand _ _ _ _ _ => true
  | .por _ _ _ _ _ => true
  | .pxor _ _ _ _ _ => true
  | .pnot _ _ _ _ => true
  | .sel _ _ _ _ _ => true
  | .mov _ _ _ _ => true
  | .lea _ _ _ _ _ => true
  | .ixget _ _ _ _ => true
  | .ixput _ _ _ _ => true
  | .gets _ _ _ a => sysOk a
  | .puts _ _ _ => true
  | .bra _ _ _ => true
  | .call _ _ _ => true
  | .brx _ _ _ => true
  | .ret _ _ _ => true
  | .exit _ _ => true
  | .nop _ _ => true
  | .yield _ _ => true
  | .mjoin _ _ a => maskOk a
  | .mleave _ _ a => maskOk a
  | .mwait _ _ a => maskOk a
  | .mset _ _ d _ => maskOk d
  | .mget _ _ _ a => maskOk a
  | .voteBallot _ _ _ _ => true
  | .voteAll _ _ _ _ => true
  | .voteAny _ _ _ _ => true
  | .voteUni _ _ _ _ => true
  | .ldg _ _ _ o _ _ _ => orderOk o
  | .stg _ _ _ o _ _ _ => orderOk o
  | .lds _ _ _ o _ _ _ => orderOk o
  | .sts _ _ _ o _ _ _ => orderOk o
  | .atomAdd _ _ _ o _ _ _ _ => orderOk o
  | .atomMinS _ _ _ o _ _ _ _ => orderOk o
  | .atomMaxS _ _ _ o _ _ _ _ => orderOk o
  | .atomAnd _ _ _ o _ _ _ _ => orderOk o
  | .atomOr _ _ _ o _ _ _ _ => orderOk o
  | .atomXor _ _ _ o _ _ _ _ => orderOk o
  | .atomExch _ _ _ o _ _ _ _ => orderOk o
  | .atomInc _ _ _ o _ _ _ _ => orderOk o
  | .atomfAdd _ _ s o _ _ _ _ => orderOk o && fltSizeOk s
  | .cas _ _ _ o _ _ _ => orderOk o
  | .nibins _ _ o _ _ _ _ => orderOk o
  | .redAdd _ _ _ o _ _ _ _ => orderOk o
  | .redMinS _ _ _ o _ _ _ _ => orderOk o
  | .redMaxS _ _ _ o _ _ _ _ => orderOk o
  | .redAnd _ _ _ o _ _ _ _ => orderOk o
  | .redOr _ _ _ o _ _ _ _ => orderOk o
  | .redXor _ _ _ o _ _ _ _ => orderOk o
  | .redFadd _ _ s o _ _ _ _ => orderOk o && fltSizeOk s
  | .redInc _ _ _ o _ _ _ _ => orderOk o
  | .waitv _ _ _ o _ _ _ => orderOk o
  | .fence _ _ o => fenceOk o
  | .fenceEng _ _ => true
  | .barArrive _ _ _ _ => true
  | .barSync _ _ _ _ => true
  | .barWait _ _ _ _ => true
  | .barSyncEng _ _ _ _ => true
  | .barWaitEng _ _ _ _ => true
  | .cbinit _ _ s _ _ => scopeOk s
  | .cbwait _ _ _ _ => true
  | .cbtest _ _ _ _ => true
  | .cbadd _ _ _ _ => true
  | .pref _ _ _ _ => true
  | .flushl _ _ _ _ => true
  | .fadd _ w _ _ _ _ _ => arithFmtOk w
  | .fsub _ w _ _ _ _ _ => arithFmtOk w
  | .fmul _ w _ _ _ _ _ => arithFmtOk w
  | .ffma _ w _ _ _ _ _ => arithFmtOk w
  | .fminS _ _ _ _ _ => true
  | .fminH _ _ _ _ _ _ => true
  | .fmaxS _ _ _ _ _ => true
  | .fmaxH _ _ _ _ _ _ => true
  | .fabsS _ _ _ _ => true
  | .fabsH _ _ _ _ _ => true
  | .fnegS _ _ _ _ => true
  | .fnegH _ _ _ _ _ => true
  | .fcmpS _ _ _ _ _ _ => true
  | .fcmpH _ _ _ _ _ _ _ => true
  | .fclassS _ _ _ _ => true
  | .fclassH _ _ _ _ _ => true
  | .fcvt _ _ e _ _ _ f r => fltOk e && fltOk f && rndOk r
  | .icvt _ _ f _ _ _ r => fltOk f && rndOk r
  | .fcvti _ _ f _ _ _ r => fltOk f && rndOk r
  | .pack _ _ _ _ x t _ => packOk x t
  | .unpk _ _ _ _ _ _ _ => true
  | .frcp _ _ _ _ => true
  | .frsq _ _ _ _ => true
  | .fsqrt _ _ _ _ => true
  | .fexp2 _ _ _ _ => true
  | .flog2 _ _ _ _ => true
  | .fsin _ _ _ _ => true
  | .fcos _ _ _ _ => true
  | .perm _ _ _ _ _ => true
  | .shfl _ _ _ _ _ => true
  | .lbcast _ _ _ _ _ => true
  | .tidset _ _ _ _ => true
  | .tidget _ _ _ _ => true
  | .wload _ _ _ => true
  | .wloadsp _ _ _ => true
  | .wswap _ _ => true
  | .mstream _ _ _ => true
  | .mdrain _ _ _ => true
  | .episet _ _ _ _ => true
  | .accz _ _ _ => true
  | .accrd _ _ _ _ _ => true
  | .accwr _ _ _ _ _ => true
  | .spcmp _ _ _ _ f => spFmtOk f
  | .kick _ _ _ _ _ => true
  | .qstat _ _ _ _ => true
  | .evset _ _ _ => true
  | .evclr _ _ _ => true
  | .fetch _ _ _ _ _ => true
  | .eref _ _ _ _ _ => true
  | .ecol _ _ _ _ _ => true
  | .espan _ _ _ _ _ => true
  | .enew _ _ _ _ _ => true
  | .edel _ _ _ => true
  | .eadd _ _ _ _ _ => true
  | .erem _ _ _ _ => true
  | .vopen _ _ _ _ => true
  | .vclose _ _ _ => true
  | .beamq _ _ _ => true
  | .rayq _ _ _ => true
  | .spawn _ _ _ => true
  | .join _ _ s _ => scopeOk s
  | .tdone _ _ => true
  | .lqpub _ _ _ _ => true
  | .trap _ _ _ => true
  | .bkpt _ _ _ => true
  | .resumeReplay _ _ _ => true
  | .resumeSkip _ _ _ => true
  | .resumeEnd _ _ _ => true
  | .extWord _ => true
  | .repWord d a b _ => stepOk d && stepOk a && stepOk b
  | .powerOn => true
  | .powerOff => true
  | .pglimWrite _ _ => true
  | .leaveRequest _ _ => true
  | .leaveGrant _ => true
  | .pcTableResort _ _ => true
  | .threadWake _ _ _ => true
  | .warpLoadComplete _ _ => true
  | .warpDrainComplete _ _ => true
  | .warpSaveComplete _ _ => true
  | .warpExitComplete _ _ => true
  | .instructionBoundarySave _ => true
  | .reconvergencePreemption _ => true
  | .reconvergenceTimeout _ => true
  | .warpRestore _ _ _ _ => true
  | .publicationArrival _ _ => true
  | .lqtailWrite _ _ _ => true
  | .lqctlErrClear _ _ => true
  | .lqctlReset _ _ => true
  | .lqctlEnable _ _ _ => true
  | .queueNop _ _ => true
  | .queueLaunch _ _ => true
  | .queueWsync _ _ => true
  | .queueFence _ _ => true
  | .workgroupPlacement _ _ => true
  | .gridEnd _ _ => true
  | .taskDispatch _ => true
  | .deckRefill _ => true
  | .stealRequest _ => true
  | .stealRoundBackoff _ => true
  | .stealServe _ => true
  | .stealFrameArrival _ => true
  | .stealAck _ => true
  | .stealNack _ => true
  | .storeDrain _ _ _ _ => true
  | .loadPerform _ _ _ _ => true
  | .atomicPerform _ _ _ _ => true
  | .causalDelivery _ _ => true
  | .fenceComplete _ _ _ => true
  | .pageRequestRetry _ _ => true
  | .pageRequestFail _ _ => true
  | .generationRejectReplay _ _ _ => true
  | .asgenBump _ => true
  | .asgenBumpComplete _ => true
  | .rwinctlWrite _ _ _ => true
  | .hbmrtctlWrite _ _ => true
  | .hbmRetrain _ => true
  | .remoteWriteApply _ => true
  | .numctlWrite _ _ => true
  | .numdropClear _ _ => true
  | .syncPoint _ _ => true
  | .syncPointResume _ _ => true
  | .beamQueryStart _ => true
  | .weightLoadStart _ _ => true
  | .swapStart _ _ => true
  | .streamStart _ _ => true
  | .drainStart _ _ => true
  | .episetStart _ _ => true
  | .matrixCommandComplete _ _ => true
  | .tidsetComplete _ => true
  | .flushlComplete _ => true
  | .chainCopy _ _ => true
  | .chainStrided _ _ => true
  | .chainGather _ _ => true
  | .chainScatter _ _ => true
  | .chainNmgather _ _ => true
  | .chainMaskrow _ _ => true
  | .chainInstar _ _ => true
  | .rwrite _ _ => true
  | .rreduce _ _ => true
  | .chainLoop _ _ => true
  | .chainCond _ _ => true
  | .condPoll _ _ => true
  | .chainQfence _ _ => true
  | .chainFollow _ _ => true
  | .chainSignal _ _ => true
  | .chainEntryComplete _ _ => true
  | .chainAccessFailed _ _ => true
  | .partctlEnable _ _ => true
  | .partitionResize _ _ => true
  | .partitionResizeComplete _ => true
  | .partctlDisable _ _ => true
  | .ctxctlSave _ => true
  | .ctxctlRun _ => true
  | .ctxctlReset _ => true
  | .ctxctlRetrap _ => true
  | .sliceEnd _ => true
  | .clusterReclaim _ _ => true
  | .reclaimTimeout _ _ => true
  | .blockReceive _ _ _ => true
  | .blockResend _ => true
  | .linkDown _ => true
  | .linkRetrainComplete _ => true
  | .rdreq _ _ _ => true
  | .wrreq _ _ _ => true
  | .mrdreq _ _ _ => true
  | .mwrreq _ _ _ => true
  | .rwritePacket _ _ _ => true
  | .rreducePacket _ _ _ => true
  | .timePacket _ _ _ => true
  | .creditPacket _ _ => true
  | .headcfgWrite _ _ _ => true
  | .headsurfWrite _ _ _ => true
  | .frameEncodeComplete _ _ => true
  | .ptpctlWrite _ => true
  | .ptpLock _ _ => true
  | .bootStart => true
  | .bootComplete => true
  | .attestRequest => true
  | .attestComplete => true
  | .attnonceWrite _ _ => true
  | .ckptNow _ => true
  | .ckptPeriodExpiry _ => true
  | .ckptStepsReached _ => true
  | .ckptHashesReceived _ _ => true
  | .ckptPeerTimeout _ => true
  | .handlerDispatch _ _ => true
  | .handlerResourceTimeout _ _ => true
  | .watchdog _ _ => true
  | .coreDisabled _ _ => true
  | .pageScrub _ => true
  | .registerWrite _ _ => true
  | .softError _ _ => true
  | .blockSend _ => true
  | .ptpLockLoss => true
  | .syncInterval => true
  | .throttled _ => true
  | .resultDelivered _ _ => true

/-- `i` is an instruction word, not a step without an encoding. -/
def Instr.isWord (i : Instr) : Bool :=
  match i with
  | .add _ _ _ _ _ _ => true
  | .sub _ _ _ _ _ _ => true
  | .minS _ _ _ _ _ _ => true
  | .minZ _ _ _ _ _ _ => true
  | .maxS _ _ _ _ _ _ => true
  | .maxZ _ _ _ _ _ _ => true
  | .abs _ _ _ _ _ => true
  | .and _ _ _ _ _ _ => true
  | .or _ _ _ _ _ _ => true
  | .xor _ _ _ _ _ _ => true
  | .andn _ _ _ _ _ _ => true
  | .shl _ _ _ _ _ _ => true
  | .shr _ _ _ _ _ _ => true
  | .sra _ _ _ _ _ _ => true
  | .rot _ _ _ _ _ _ => true
  | .mul _ _ _ _ _ _ => true
  | .mulhS _ _ _ _ _ _ => true
  | .mulhZ _ _ _ _ _ _ => true
  | .mad _ _ _ _ _ _ => true
  | .divS _ _ _ _ _ _ => true
  | .divZ _ _ _ _ _ _ => true
  | .remS _ _ _ _ _ _ => true
  | .remZ _ _ _ _ _ _ => true
  | .clz _ _ _ _ _ => true
  | .popc _ _ _ _ _ => true
  | .brev _ _ _ _ _ => true
  | .bfx _ _ _ _ _ _ => true
  | .bfi _ _ _ _ _ _ => true
  | .addi _ _ _ _ _ _ => true
  | .andi _ _ _ _ _ _ => true
  | .ori _ _ _ _ _ _ => true
  | .xori _ _ _ _ _ _ => true
  | .shli _ _ _ _ _ => true
  | .shri _ _ _ _ _ => true
  | .srai _ _ _ _ _ => true
  | .movi _ _ _ _ _ _ => true
  | .cmpi _ _ _ _ _ _ _ => true
  | .cmp _ _ _ _ _ _ _ => true
  | .pand _ _ _ _ _ => true
  | .por _ _ _ _ _ => true
  | .pxor _ _ _ _ _ => true
  | .pnot _ _ _ _ => true
  | .sel _ _ _ _ _ => true
  | .mov _ _ _ _ => true
  | .lea _ _ _ _ _ => true
  | .ixget _ _ _ _ => true
  | .ixput _ _ _ _ => true
  | .gets _ _ _ _ => true
  | .puts _ _ _ => true
  | .bra _ _ _ => true
  | .call _ _ _ => true
  | .brx _ _ _ => true
  | .ret _ _ _ => true
  | .exit _ _ => true
  | .nop _ _ => true
  | .yield _ _ => true
  | .mjoin _ _ _ => true
  | .mleave _ _ _ => true
  | .mwait _ _ _ => true
  | .mset _ _ _ _ => true
  | .mget _ _ _ _ => true
  | .voteBallot _ _ _ _ => true
  | .voteAll _ _ _ _ => true
  | .voteAny _ _ _ _ => true
  | .voteUni _ _ _ _ => true
  | .ldg _ _ _ _ _ _ _ => true
  | .stg _ _ _ _ _ _ _ => true
  | .lds _ _ _ _ _ _ _ => true
  | .sts _ _ _ _ _ _ _ => true
  | .atomAdd _ _ _ _ _ _ _ _ => true
  | .atomMinS _ _ _ _ _ _ _ _ => true
  | .atomMaxS _ _ _ _ _ _ _ _ => true
  | .atomAnd _ _ _ _ _ _ _ _ => true
  | .atomOr _ _ _ _ _ _ _ _ => true
  | .atomXor _ _ _ _ _ _ _ _ => true
  | .atomExch _ _ _ _ _ _ _ _ => true
  | .atomInc _ _ _ _ _ _ _ _ => true
  | .atomfAdd _ _ _ _ _ _ _ _ => true
  | .cas _ _ _ _ _ _ _ => true
  | .nibins _ _ _ _ _ _ _ => true
  | .redAdd _ _ _ _ _ _ _ _ => true
  | .redMinS _ _ _ _ _ _ _ _ => true
  | .redMaxS _ _ _ _ _ _ _ _ => true
  | .redAnd _ _ _ _ _ _ _ _ => true
  | .redOr _ _ _ _ _ _ _ _ => true
  | .redXor _ _ _ _ _ _ _ _ => true
  | .redFadd _ _ _ _ _ _ _ _ => true
  | .redInc _ _ _ _ _ _ _ _ => true
  | .waitv _ _ _ _ _ _ _ => true
  | .fence _ _ _ => true
  | .fenceEng _ _ => true
  | .barArrive _ _ _ _ => true
  | .barSync _ _ _ _ => true
  | .barWait _ _ _ _ => true
  | .barSyncEng _ _ _ _ => true
  | .barWaitEng _ _ _ _ => true
  | .cbinit _ _ _ _ _ => true
  | .cbwait _ _ _ _ => true
  | .cbtest _ _ _ _ => true
  | .cbadd _ _ _ _ => true
  | .pref _ _ _ _ => true
  | .flushl _ _ _ _ => true
  | .fadd _ _ _ _ _ _ _ => true
  | .fsub _ _ _ _ _ _ _ => true
  | .fmul _ _ _ _ _ _ _ => true
  | .ffma _ _ _ _ _ _ _ => true
  | .fminS _ _ _ _ _ => true
  | .fminH _ _ _ _ _ _ => true
  | .fmaxS _ _ _ _ _ => true
  | .fmaxH _ _ _ _ _ _ => true
  | .fabsS _ _ _ _ => true
  | .fabsH _ _ _ _ _ => true
  | .fnegS _ _ _ _ => true
  | .fnegH _ _ _ _ _ => true
  | .fcmpS _ _ _ _ _ _ => true
  | .fcmpH _ _ _ _ _ _ _ => true
  | .fclassS _ _ _ _ => true
  | .fclassH _ _ _ _ _ => true
  | .fcvt _ _ _ _ _ _ _ _ => true
  | .icvt _ _ _ _ _ _ _ => true
  | .fcvti _ _ _ _ _ _ _ => true
  | .pack _ _ _ _ _ _ _ => true
  | .unpk _ _ _ _ _ _ _ => true
  | .frcp _ _ _ _ => true
  | .frsq _ _ _ _ => true
  | .fsqrt _ _ _ _ => true
  | .fexp2 _ _ _ _ => true
  | .flog2 _ _ _ _ => true
  | .fsin _ _ _ _ => true
  | .fcos _ _ _ _ => true
  | .perm _ _ _ _ _ => true
  | .shfl _ _ _ _ _ => true
  | .lbcast _ _ _ _ _ => true
  | .tidset _ _ _ _ => true
  | .tidget _ _ _ _ => true
  | .wload _ _ _ => true
  | .wloadsp _ _ _ => true
  | .wswap _ _ => true
  | .mstream _ _ _ => true
  | .mdrain _ _ _ => true
  | .episet _ _ _ _ => true
  | .accz _ _ _ => true
  | .accrd _ _ _ _ _ => true
  | .accwr _ _ _ _ _ => true
  | .spcmp _ _ _ _ _ => true
  | .kick _ _ _ _ _ => true
  | .qstat _ _ _ _ => true
  | .evset _ _ _ => true
  | .evclr _ _ _ => true
  | .fetch _ _ _ _ _ => true
  | .eref _ _ _ _ _ => true
  | .ecol _ _ _ _ _ => true
  | .espan _ _ _ _ _ => true
  | .enew _ _ _ _ _ => true
  | .edel _ _ _ => true
  | .eadd _ _ _ _ _ => true
  | .erem _ _ _ _ => true
  | .vopen _ _ _ _ => true
  | .vclose _ _ _ => true
  | .beamq _ _ _ => true
  | .rayq _ _ _ => true
  | .spawn _ _ _ => true
  | .join _ _ _ _ => true
  | .tdone _ _ => true
  | .lqpub _ _ _ _ => true
  | .trap _ _ _ => true
  | .bkpt _ _ _ => true
  | .resumeReplay _ _ _ => true
  | .resumeSkip _ _ _ => true
  | .resumeEnd _ _ _ => true
  | .extWord _ => true
  | .repWord _ _ _ _ => true
  | .powerOn => false
  | .powerOff => false
  | .pglimWrite _ _ => false
  | .leaveRequest _ _ => false
  | .leaveGrant _ => false
  | .pcTableResort _ _ => false
  | .threadWake _ _ _ => false
  | .warpLoadComplete _ _ => false
  | .warpDrainComplete _ _ => false
  | .warpSaveComplete _ _ => false
  | .warpExitComplete _ _ => false
  | .instructionBoundarySave _ => false
  | .reconvergencePreemption _ => false
  | .reconvergenceTimeout _ => false
  | .warpRestore _ _ _ _ => false
  | .publicationArrival _ _ => false
  | .lqtailWrite _ _ _ => false
  | .lqctlErrClear _ _ => false
  | .lqctlReset _ _ => false
  | .lqctlEnable _ _ _ => false
  | .queueNop _ _ => false
  | .queueLaunch _ _ => false
  | .queueWsync _ _ => false
  | .queueFence _ _ => false
  | .workgroupPlacement _ _ => false
  | .gridEnd _ _ => false
  | .taskDispatch _ => false
  | .deckRefill _ => false
  | .stealRequest _ => false
  | .stealRoundBackoff _ => false
  | .stealServe _ => false
  | .stealFrameArrival _ => false
  | .stealAck _ => false
  | .stealNack _ => false
  | .storeDrain _ _ _ _ => false
  | .loadPerform _ _ _ _ => false
  | .atomicPerform _ _ _ _ => false
  | .causalDelivery _ _ => false
  | .fenceComplete _ _ _ => false
  | .pageRequestRetry _ _ => false
  | .pageRequestFail _ _ => false
  | .generationRejectReplay _ _ _ => false
  | .asgenBump _ => false
  | .asgenBumpComplete _ => false
  | .rwinctlWrite _ _ _ => false
  | .hbmrtctlWrite _ _ => false
  | .hbmRetrain _ => false
  | .remoteWriteApply _ => false
  | .numctlWrite _ _ => false
  | .numdropClear _ _ => false
  | .syncPoint _ _ => false
  | .syncPointResume _ _ => false
  | .beamQueryStart _ => false
  | .weightLoadStart _ _ => false
  | .swapStart _ _ => false
  | .streamStart _ _ => false
  | .drainStart _ _ => false
  | .episetStart _ _ => false
  | .matrixCommandComplete _ _ => false
  | .tidsetComplete _ => false
  | .flushlComplete _ => false
  | .chainCopy _ _ => false
  | .chainStrided _ _ => false
  | .chainGather _ _ => false
  | .chainScatter _ _ => false
  | .chainNmgather _ _ => false
  | .chainMaskrow _ _ => false
  | .chainInstar _ _ => false
  | .rwrite _ _ => false
  | .rreduce _ _ => false
  | .chainLoop _ _ => false
  | .chainCond _ _ => false
  | .condPoll _ _ => false
  | .chainQfence _ _ => false
  | .chainFollow _ _ => false
  | .chainSignal _ _ => false
  | .chainEntryComplete _ _ => false
  | .chainAccessFailed _ _ => false
  | .partctlEnable _ _ => false
  | .partitionResize _ _ => false
  | .partitionResizeComplete _ => false
  | .partctlDisable _ _ => false
  | .ctxctlSave _ => false
  | .ctxctlRun _ => false
  | .ctxctlReset _ => false
  | .ctxctlRetrap _ => false
  | .sliceEnd _ => false
  | .clusterReclaim _ _ => false
  | .reclaimTimeout _ _ => false
  | .blockReceive _ _ _ => false
  | .blockResend _ => false
  | .linkDown _ => false
  | .linkRetrainComplete _ => false
  | .rdreq _ _ _ => false
  | .wrreq _ _ _ => false
  | .mrdreq _ _ _ => false
  | .mwrreq _ _ _ => false
  | .rwritePacket _ _ _ => false
  | .rreducePacket _ _ _ => false
  | .timePacket _ _ _ => false
  | .creditPacket _ _ => false
  | .headcfgWrite _ _ _ => false
  | .headsurfWrite _ _ _ => false
  | .frameEncodeComplete _ _ => false
  | .ptpctlWrite _ => false
  | .ptpLock _ _ => false
  | .bootStart => false
  | .bootComplete => false
  | .attestRequest => false
  | .attestComplete => false
  | .attnonceWrite _ _ => false
  | .ckptNow _ => false
  | .ckptPeriodExpiry _ => false
  | .ckptStepsReached _ => false
  | .ckptHashesReceived _ _ => false
  | .ckptPeerTimeout _ => false
  | .handlerDispatch _ _ => false
  | .handlerResourceTimeout _ _ => false
  | .watchdog _ _ => false
  | .coreDisabled _ _ => false
  | .pageScrub _ => false
  | .registerWrite _ _ => false
  | .softError _ _ => false
  | .blockSend _ => false
  | .ptpLockLoss => false
  | .syncInterval => false
  | .throttled _ => false
  | .resultDelivered _ _ => false

end Sys2Proof
end

