-- ==== Sys2Proof/Decode.lean ====
section
/-! DEFINITION. Decoding and encoding of instruction words (10 R213, R214, R219-R227, R398).
The decoder is written from the major-opcode map and the fields of each row; the encoder from the same fields. -/

namespace Sys2Proof

/-- The field of `n` bits of a word that begins at bit `lo`. -/
def bf (n w lo : Nat) : BitVec n := .ofNat n (w / 2 ^ lo)

/-- Majors 0x00, 0x01, 0x02, 0x03: ADD.w, SUB.w, MIN.s.w, MIN.z.w, MAX.s.w, MAX.z.w, ABS.w, AND.w, OR.w, XOR.w, ANDN.w, SHL.w, SHR.w, SRA.w, ROT.w. -/
def decodeMajor00_01_02_03 (w : Nat) : Option Instr :=
  if fld w 21 18 = 0 then
    some (.add (bf 1 w 31) (bf 2 w 25) (bf 3 w 22) (bf 6 w 12) (bf 6 w 6) (bf 6 w 0))
  else if fld w 21 18 = 1 then
    some (.sub (bf 1 w 31) (bf 2 w 25) (bf 3 w 22) (bf 6 w 12) (bf 6 w 6) (bf 6 w 0))
  else if fld w 21 18 = 2 then
    some (.minS (bf 1 w 31) (bf 2 w 25) (bf 3 w 22) (bf 6 w 12) (bf 6 w 6) (bf 6 w 0))
  else if fld w 21 18 = 3 then
    some (.minZ (bf 1 w 31) (bf 2 w 25) (bf 3 w 22) (bf 6 w 12) (bf 6 w 6) (bf 6 w 0))
  else if fld w 21 18 = 4 then
    some (.maxS (bf 1 w 31) (bf 2 w 25) (bf 3 w 22) (bf 6 w 12) (bf 6 w 6) (bf 6 w 0))
  else if fld w 21 18 = 5 then
    some (.maxZ (bf 1 w 31) (bf 2 w 25) (bf 3 w 22) (bf 6 w 12) (bf 6 w 6) (bf 6 w 0))
  else if fld w 5 0 = 0 ∧ fld w 21 18 = 6 then
    some (.abs (bf 1 w 31) (bf 2 w 25) (bf 3 w 22) (bf 6 w 12) (bf 6 w 6))
  else if fld w 21 18 = 7 then
    some (.and (bf 1 w 31) (bf 2 w 25) (bf 3 w 22) (bf 6 w 12) (bf 6 w 6) (bf 6 w 0))
  else if fld w 21 18 = 8 then
    some (.or (bf 1 w 31) (bf 2 w 25) (bf 3 w 22) (bf 6 w 12) (bf 6 w 6) (bf 6 w 0))
  else if fld w 21 18 = 9 then
    some (.xor (bf 1 w 31) (bf 2 w 25) (bf 3 w 22) (bf 6 w 12) (bf 6 w 6) (bf 6 w 0))
  else if fld w 21 18 = 10 then
    some (.andn (bf 1 w 31) (bf 2 w 25) (bf 3 w 22) (bf 6 w 12) (bf 6 w 6) (bf 6 w 0))
  else if fld w 21 18 = 11 then
    some (.shl (bf 1 w 31) (bf 2 w 25) (bf 3 w 22) (bf 6 w 12) (bf 6 w 6) (bf 6 w 0))
  else if fld w 21 18 = 12 then
    some (.shr (bf 1 w 31) (bf 2 w 25) (bf 3 w 22) (bf 6 w 12) (bf 6 w 6) (bf 6 w 0))
  else if fld w 21 18 = 13 then
    some (.sra (bf 1 w 31) (bf 2 w 25) (bf 3 w 22) (bf 6 w 12) (bf 6 w 6) (bf 6 w 0))
  else if fld w 21 18 = 14 then
    some (.rot (bf 1 w 31) (bf 2 w 25) (bf 3 w 22) (bf 6 w 12) (bf 6 w 6) (bf 6 w 0))
  else none

/-- Majors 0x04, 0x05: MUL.w, MULH.s.w, MULH.z.w, MAD.w, DIV.s.w, DIV.z.w, REM.s.w, REM.z.w, CLZ.w, POPC.w, BREV.w, BFX.w, BFI.w. -/
def decodeMajor04_05 (w : Nat) : Option Instr :=
  if fld w 21 18 = 0 then
    some (.mul (bf 1 w 31) (bf 1 w 25) (bf 3 w 22) (bf 6 w 12) (bf 6 w 6) (bf 6 w 0))
  else if fld w 21 18 = 1 then
    some (.mulhS (bf 1 w 31) (bf 1 w 25) (bf 3 w 22) (bf 6 w 12) (bf 6 w 6) (bf 6 w 0))
  else if fld w 21 18 = 2 then
    some (.mulhZ (bf 1 w 31) (bf 1 w 25) (bf 3 w 22) (bf 6 w 12) (bf 6 w 6) (bf 6 w 0))
  else if fld w 21 18 = 3 then
    some (.mad (bf 1 w 31) (bf 1 w 25) (bf 3 w 22) (bf 6 w 12) (bf 6 w 6) (bf 6 w 0))
  else if fld w 21 18 = 4 then
    some (.divS (bf 1 w 31) (bf 1 w 25) (bf 3 w 22) (bf 6 w 12) (bf 6 w 6) (bf 6 w 0))
  else if fld w 21 18 = 5 then
    some (.divZ (bf 1 w 31) (bf 1 w 25) (bf 3 w 22) (bf 6 w 12) (bf 6 w 6) (bf 6 w 0))
  else if fld w 21 18 = 6 then
    some (.remS (bf 1 w 31) (bf 1 w 25) (bf 3 w 22) (bf 6 w 12) (bf 6 w 6) (bf 6 w 0))
  else if fld w 21 18 = 7 then
    some (.remZ (bf 1 w 31) (bf 1 w 25) (bf 3 w 22) (bf 6 w 12) (bf 6 w 6) (bf 6 w 0))
  else if fld w 5 0 = 0 ∧ fld w 21 18 = 8 then
    some (.clz (bf 1 w 31) (bf 1 w 25) (bf 3 w 22) (bf 6 w 12) (bf 6 w 6))
  else if fld w 5 0 = 0 ∧ fld w 21 18 = 9 then
    some (.popc (bf 1 w 31) (bf 1 w 25) (bf 3 w 22) (bf 6 w 12) (bf 6 w 6))
  else if fld w 5 0 = 0 ∧ fld w 21 18 = 10 then
    some (.brev (bf 1 w 31) (bf 1 w 25) (bf 3 w 22) (bf 6 w 12) (bf 6 w 6))
  else if fld w 21 18 = 11 then
    some (.bfx (bf 1 w 31) (bf 1 w 25) (bf 3 w 22) (bf 6 w 12) (bf 6 w 6) (bf 6 w 0))
  else if fld w 21 18 = 12 then
    some (.bfi (bf 1 w 31) (bf 1 w 25) (bf 3 w 22) (bf 6 w 12) (bf 6 w 6) (bf 6 w 0))
  else none

/-- Major 0x06: ADDI. -/
def decodeMajor06 (w : Nat) : Option Instr :=
  some (.addi (bf 1 w 31) (bf 3 w 22) (bf 4 w 18) (bf 6 w 12) (bf 6 w 6) (bf 6 w 0))

/-- Major 0x07: ANDI, ORI, XORI. -/
def decodeMajor07 (w : Nat) : Option Instr :=
  if fld w 21 20 = 0 then
    some (.andi (bf 1 w 31) (bf 3 w 22) (bf 2 w 18) (bf 6 w 12) (bf 6 w 6) (bf 6 w 0))
  else if fld w 21 20 = 1 then
    some (.ori (bf 1 w 31) (bf 3 w 22) (bf 2 w 18) (bf 6 w 12) (bf 6 w 6) (bf 6 w 0))
  else if fld w 21 20 = 2 then
    some (.xori (bf 1 w 31) (bf 3 w 22) (bf 2 w 18) (bf 6 w 12) (bf 6 w 6) (bf 6 w 0))
  else none

/-- Major 0x08: SHLI, SHRI, SRAI. -/
def decodeMajor08 (w : Nat) : Option Instr :=
  if fld w 21 18 = 0 then
    some (.shli (bf 1 w 31) (bf 3 w 22) (bf 6 w 12) (bf 6 w 6) (bf 6 w 0))
  else if fld w 21 18 = 4 then
    some (.shri (bf 1 w 31) (bf 3 w 22) (bf 6 w 12) (bf 6 w 6) (bf 6 w 0))
  else if fld w 21 18 = 8 then
    some (.srai (bf 1 w 31) (bf 3 w 22) (bf 6 w 12) (bf 6 w 6) (bf 6 w 0))
  else none

/-- Major 0x09: MOVI. -/
def decodeMajor09 (w : Nat) : Option Instr :=
  some (.movi (bf 1 w 31) (bf 3 w 22) (bf 4 w 18) (bf 6 w 12) (bf 6 w 6) (bf 6 w 0))

/-- Major 0x0A: CMPI.cond. -/
def decodeMajor0A (w : Nat) : Option Instr :=
  some (.cmpi (bf 1 w 31) (bf 3 w 22) (bf 4 w 18) (bf 3 w 15) (bf 3 w 12) (bf 6 w 6) (bf 6 w 0))

/-- Major 0x0B: CMP.w.cond, PAND, POR, PXOR, PNOT, SEL, MOV, LEA, IXGET, IXPUT, GETS, PUTS. -/
def decodeMajor0B (w : Nat) : Option Instr :=
  if fld w 21 20 = 0 then
    some (.cmp (bf 1 w 31) (bf 3 w 22) (bf 2 w 18) (bf 3 w 15) (bf 3 w 12) (bf 6 w 6) (bf 6 w 0))
  else if fld w 5 3 = 0 ∧ fld w 11 9 = 0 ∧ fld w 21 15 = 32 then
    some (.pand (bf 1 w 31) (bf 3 w 22) (bf 3 w 12) (bf 3 w 6) (bf 3 w 0))
  else if fld w 5 3 = 0 ∧ fld w 11 9 = 0 ∧ fld w 21 15 = 40 then
    some (.por (bf 1 w 31) (bf 3 w 22) (bf 3 w 12) (bf 3 w 6) (bf 3 w 0))
  else if fld w 5 3 = 0 ∧ fld w 11 9 = 0 ∧ fld w 21 15 = 48 then
    some (.pxor (bf 1 w 31) (bf 3 w 22) (bf 3 w 12) (bf 3 w 6) (bf 3 w 0))
  else if fld w 5 0 = 0 ∧ fld w 11 9 = 0 ∧ fld w 21 15 = 56 then
    some (.pnot (bf 1 w 31) (bf 3 w 22) (bf 3 w 12) (bf 3 w 6))
  else if fld w 21 18 = 8 then
    some (.sel (bf 1 w 31) (bf 3 w 22) (bf 6 w 12) (bf 6 w 6) (bf 6 w 0))
  else if fld w 5 0 = 0 ∧ fld w 21 18 = 9 then
    some (.mov (bf 1 w 31) (bf 3 w 22) (bf 6 w 12) (bf 6 w 6))
  else if fld w 21 18 = 10 then
    some (.lea (bf 1 w 31) (bf 3 w 22) (bf 6 w 12) (bf 6 w 6) (bf 6 w 0))
  else if fld w 5 0 = 0 ∧ fld w 21 18 = 11 then
    some (.ixget (bf 1 w 31) (bf 3 w 22) (bf 6 w 12) (bf 6 w 6))
  else if fld w 21 12 = 768 then
    some (.ixput (bf 1 w 31) (bf 3 w 22) (bf 6 w 6) (bf 6 w 0))
  else if fld w 5 0 = 0 ∧ fld w 21 18 = 13 then
    some (.gets (bf 1 w 31) (bf 3 w 22) (bf 6 w 12) (bf 6 w 6))
  else if fld w 21 6 = 57375 then
    some (.puts (bf 1 w 31) (bf 3 w 22) (bf 6 w 0))
  else none

/-- Major 0x0C: BRA. -/
def decodeMajor0C (w : Nat) : Option Instr :=
  some (.bra (bf 1 w 31) (bf 3 w 22) (bf 22 w 0))

/-- Major 0x0D: CALL. -/
def decodeMajor0D (w : Nat) : Option Instr :=
  some (.call (bf 1 w 31) (bf 3 w 22) (bf 22 w 0))

/-- Major 0x0E: BRX, RET, EXIT, NOP, YIELD. -/
def decodeMajor0E (w : Nat) : Option Instr :=
  if fld w 5 0 = 0 ∧ fld w 21 12 = 0 then
    some (.brx (bf 1 w 31) (bf 3 w 22) (bf 6 w 6))
  else if fld w 5 0 = 0 ∧ fld w 21 12 = 64 then
    some (.ret (bf 1 w 31) (bf 3 w 22) (bf 6 w 6))
  else if fld w 21 0 = 524288 then
    some (.exit (bf 1 w 31) (bf 3 w 22))
  else if fld w 21 0 = 786432 then
    some (.nop (bf 1 w 31) (bf 3 w 22))
  else if fld w 21 0 = 1048576 then
    some (.yield (bf 1 w 31) (bf 3 w 22))
  else none

/-- Major 0x0F: MJOIN, MLEAVE, MWAIT, MSET, MGET, VOTE.ballot, VOTE.all, VOTE.any, VOTE.uni. -/
def decodeMajor0F (w : Nat) : Option Instr :=
  if fld w 5 0 = 0 ∧ fld w 21 12 = 0 then
    some (.mjoin (bf 1 w 31) (bf 3 w 22) (bf 6 w 6))
  else if fld w 5 0 = 0 ∧ fld w 21 12 = 64 then
    some (.mleave (bf 1 w 31) (bf 3 w 22) (bf 6 w 6))
  else if fld w 5 0 = 0 ∧ fld w 21 12 = 128 then
    some (.mwait (bf 1 w 31) (bf 3 w 22) (bf 6 w 6))
  else if fld w 5 0 = 0 ∧ fld w 21 18 = 3 then
    some (.mset (bf 1 w 31) (bf 3 w 22) (bf 6 w 12) (bf 6 w 6))
  else if fld w 5 0 = 0 ∧ fld w 21 18 = 4 then
    some (.mget (bf 1 w 31) (bf 3 w 22) (bf 6 w 12) (bf 6 w 6))
  else if fld w 5 0 = 0 ∧ fld w 11 9 = 0 ∧ fld w 21 18 = 5 then
    some (.voteBallot (bf 1 w 31) (bf 3 w 22) (bf 6 w 12) (bf 3 w 6))
  else if fld w 5 0 = 1 ∧ fld w 11 9 = 0 ∧ fld w 21 15 = 40 then
    some (.voteAll (bf 1 w 31) (bf 3 w 22) (bf 3 w 12) (bf 3 w 6))
  else if fld w 5 0 = 2 ∧ fld w 11 9 = 0 ∧ fld w 21 15 = 40 then
    some (.voteAny (bf 1 w 31) (bf 3 w 22) (bf 3 w 12) (bf 3 w 6))
  else if fld w 5 0 = 3 ∧ fld w 11 9 = 0 ∧ fld w 21 15 = 40 then
    some (.voteUni (bf 1 w 31) (bf 3 w 22) (bf 3 w 12) (bf 3 w 6))
  else none

/-- Major 0x10: LDG.sz.order.scope. -/
def decodeMajor10 (w : Nat) : Option Instr :=
  some (.ldg (bf 1 w 31) (bf 3 w 22) (bf 2 w 20) (bf 3 w 17) (bf 6 w 11) (bf 6 w 5) (bf 5 w 0))

/-- Major 0x11: STG.sz.order.scope. -/
def decodeMajor11 (w : Nat) : Option Instr :=
  some (.stg (bf 1 w 31) (bf 3 w 22) (bf 2 w 20) (bf 3 w 17) (bf 6 w 11) (bf 6 w 5) (bf 5 w 0))

/-- Major 0x12: LDS.sz. -/
def decodeMajor12 (w : Nat) : Option Instr :=
  some (.lds (bf 1 w 31) (bf 3 w 22) (bf 2 w 20) (bf 3 w 17) (bf 6 w 11) (bf 6 w 5) (bf 5 w 0))

/-- Major 0x13: STS.sz. -/
def decodeMajor13 (w : Nat) : Option Instr :=
  some (.sts (bf 1 w 31) (bf 3 w 22) (bf 2 w 20) (bf 3 w 17) (bf 6 w 11) (bf 6 w 5) (bf 5 w 0))

/-- Major 0x14: ATOM.add.sz, ATOM.min.s.sz, ATOM.max.s.sz, ATOM.and.sz, ATOM.or.sz, ATOM.xor.sz, ATOM.exch.sz, ATOM.inc.sz. -/
def decodeMajor14 (w : Nat) : Option Instr :=
  if fld w 4 2 = 0 ∧ fld w 21 21 = 1 then
    some (.atomAdd (bf 1 w 31) (bf 3 w 22) (bf 1 w 20) (bf 3 w 17) (bf 6 w 11) (bf 6 w 5) (bf 1 w 1) (bf 1 w 0))
  else if fld w 4 2 = 1 ∧ fld w 21 21 = 1 then
    some (.atomMinS (bf 1 w 31) (bf 3 w 22) (bf 1 w 20) (bf 3 w 17) (bf 6 w 11) (bf 6 w 5) (bf 1 w 1) (bf 1 w 0))
  else if fld w 4 2 = 2 ∧ fld w 21 21 = 1 then
    some (.atomMaxS (bf 1 w 31) (bf 3 w 22) (bf 1 w 20) (bf 3 w 17) (bf 6 w 11) (bf 6 w 5) (bf 1 w 1) (bf 1 w 0))
  else if fld w 4 2 = 3 ∧ fld w 21 21 = 1 then
    some (.atomAnd (bf 1 w 31) (bf 3 w 22) (bf 1 w 20) (bf 3 w 17) (bf 6 w 11) (bf 6 w 5) (bf 1 w 1) (bf 1 w 0))
  else if fld w 4 2 = 4 ∧ fld w 21 21 = 1 then
    some (.atomOr (bf 1 w 31) (bf 3 w 22) (bf 1 w 20) (bf 3 w 17) (bf 6 w 11) (bf 6 w 5) (bf 1 w 1) (bf 1 w 0))
  else if fld w 4 2 = 5 ∧ fld w 21 21 = 1 then
    some (.atomXor (bf 1 w 31) (bf 3 w 22) (bf 1 w 20) (bf 3 w 17) (bf 6 w 11) (bf 6 w 5) (bf 1 w 1) (bf 1 w 0))
  else if fld w 4 2 = 6 ∧ fld w 21 21 = 1 then
    some (.atomExch (bf 1 w 31) (bf 3 w 22) (bf 1 w 20) (bf 3 w 17) (bf 6 w 11) (bf 6 w 5) (bf 1 w 1) (bf 1 w 0))
  else if fld w 4 2 = 7 ∧ fld w 21 21 = 1 then
    some (.atomInc (bf 1 w 31) (bf 3 w 22) (bf 1 w 20) (bf 3 w 17) (bf 6 w 11) (bf 6 w 5) (bf 1 w 1) (bf 1 w 0))
  else none

/-- Major 0x15: ATOMF.add.fmt. -/
def decodeMajor15 (w : Nat) : Option Instr :=
  if fld w 4 2 = 0 then
    some (.atomfAdd (bf 1 w 31) (bf 3 w 22) (bf 2 w 20) (bf 3 w 17) (bf 6 w 11) (bf 6 w 5) (bf 1 w 1) (bf 1 w 0))
  else none

/-- Major 0x16: CAS.sz. -/
def decodeMajor16 (w : Nat) : Option Instr :=
  if fld w 4 1 = 0 ∧ fld w 21 21 = 1 then
    some (.cas (bf 1 w 31) (bf 3 w 22) (bf 1 w 20) (bf 3 w 17) (bf 6 w 11) (bf 6 w 5) (bf 1 w 0))
  else none

/-- Major 0x17: NIBINS.lo. -/
def decodeMajor17 (w : Nat) : Option Instr :=
  if fld w 3 1 = 0 ∧ fld w 21 20 = 0 then
    some (.nibins (bf 1 w 31) (bf 3 w 22) (bf 3 w 17) (bf 6 w 11) (bf 6 w 5) (bf 1 w 4) (bf 1 w 0))
  else none

/-- Major 0x18: RED.add.sz, RED.min.s.sz, RED.max.s.sz, RED.and.sz, RED.or.sz, RED.xor.sz, RED.fadd.fmt, RED.inc.sz. -/
def decodeMajor18 (w : Nat) : Option Instr :=
  if fld w 4 2 = 0 ∧ fld w 21 21 = 1 then
    some (.redAdd (bf 1 w 31) (bf 3 w 22) (bf 1 w 20) (bf 3 w 17) (bf 6 w 11) (bf 6 w 5) (bf 1 w 1) (bf 1 w 0))
  else if fld w 4 2 = 1 ∧ fld w 21 21 = 1 then
    some (.redMinS (bf 1 w 31) (bf 3 w 22) (bf 1 w 20) (bf 3 w 17) (bf 6 w 11) (bf 6 w 5) (bf 1 w 1) (bf 1 w 0))
  else if fld w 4 2 = 2 ∧ fld w 21 21 = 1 then
    some (.redMaxS (bf 1 w 31) (bf 3 w 22) (bf 1 w 20) (bf 3 w 17) (bf 6 w 11) (bf 6 w 5) (bf 1 w 1) (bf 1 w 0))
  else if fld w 4 2 = 3 ∧ fld w 21 21 = 1 then
    some (.redAnd (bf 1 w 31) (bf 3 w 22) (bf 1 w 20) (bf 3 w 17) (bf 6 w 11) (bf 6 w 5) (bf 1 w 1) (bf 1 w 0))
  else if fld w 4 2 = 4 ∧ fld w 21 21 = 1 then
    some (.redOr (bf 1 w 31) (bf 3 w 22) (bf 1 w 20) (bf 3 w 17) (bf 6 w 11) (bf 6 w 5) (bf 1 w 1) (bf 1 w 0))
  else if fld w 4 2 = 5 ∧ fld w 21 21 = 1 then
    some (.redXor (bf 1 w 31) (bf 3 w 22) (bf 1 w 20) (bf 3 w 17) (bf 6 w 11) (bf 6 w 5) (bf 1 w 1) (bf 1 w 0))
  else if fld w 4 2 = 6 then
    some (.redFadd (bf 1 w 31) (bf 3 w 22) (bf 2 w 20) (bf 3 w 17) (bf 6 w 11) (bf 6 w 5) (bf 1 w 1) (bf 1 w 0))
  else if fld w 4 2 = 7 ∧ fld w 21 21 = 1 then
    some (.redInc (bf 1 w 31) (bf 3 w 22) (bf 1 w 20) (bf 3 w 17) (bf 6 w 11) (bf 6 w 5) (bf 1 w 1) (bf 1 w 0))
  else none

/-- Major 0x19: WAITV.sz.cond.acq.scope. -/
def decodeMajor19 (w : Nat) : Option Instr :=
  if fld w 1 0 = 0 then
    some (.waitv (bf 1 w 31) (bf 3 w 22) (bf 2 w 20) (bf 3 w 17) (bf 6 w 11) (bf 6 w 5) (bf 3 w 2))
  else none

/-- Major 0x1A: FENCE.scope, FENCE.eng. -/
def decodeMajor1A (w : Nat) : Option Instr :=
  if fld w 21 0 = 786432 then
    some (.fenceEng (bf 1 w 31) (bf 3 w 22))
  else if fld w 16 0 = 0 ∧ fld w 21 20 = 0 then
    some (.fence (bf 1 w 31) (bf 3 w 22) (bf 3 w 17))
  else none

/-- Major 0x1B: BAR.ARRIVE, BAR.SYNC, BAR.WAIT, BAR.SYNC.eng, BAR.WAIT.eng. -/
def decodeMajor1B (w : Nat) : Option Instr :=
  if fld w 11 10 = 0 ∧ fld w 21 18 = 0 then
    some (.barArrive (bf 1 w 31) (bf 3 w 22) (bf 6 w 12) (bf 10 w 0))
  else if fld w 11 10 = 0 ∧ fld w 21 18 = 1 then
    some (.barSync (bf 1 w 31) (bf 3 w 22) (bf 6 w 12) (bf 10 w 0))
  else if fld w 11 10 = 0 ∧ fld w 21 18 = 2 then
    some (.barWait (bf 1 w 31) (bf 3 w 22) (bf 6 w 12) (bf 10 w 0))
  else if fld w 11 10 = 0 ∧ fld w 21 18 = 5 then
    some (.barSyncEng (bf 1 w 31) (bf 3 w 22) (bf 6 w 12) (bf 10 w 0))
  else if fld w 11 10 = 0 ∧ fld w 21 18 = 6 then
    some (.barWaitEng (bf 1 w 31) (bf 3 w 22) (bf 6 w 12) (bf 10 w 0))
  else none

/-- Major 0x1C: CBINIT.scope, CBWAIT, CBTEST, CBADD. -/
def decodeMajor1C (w : Nat) : Option Instr :=
  if fld w 21 15 = 0 then
    some (.cbinit (bf 1 w 31) (bf 3 w 22) (bf 3 w 12) (bf 6 w 6) (bf 6 w 0))
  else if fld w 5 0 = 0 ∧ fld w 21 18 = 1 then
    some (.cbwait (bf 1 w 31) (bf 3 w 22) (bf 6 w 12) (bf 6 w 6))
  else if fld w 5 0 = 0 ∧ fld w 21 15 = 16 then
    some (.cbtest (bf 1 w 31) (bf 3 w 22) (bf 3 w 12) (bf 6 w 6))
  else if fld w 21 12 = 192 then
    some (.cbadd (bf 1 w 31) (bf 3 w 22) (bf 6 w 6) (bf 6 w 0))
  else none

/-- Major 0x1D: PREF, FLUSHL. -/
def decodeMajor1D (w : Nat) : Option Instr :=
  if fld w 21 12 = 0 then
    some (.pref (bf 1 w 31) (bf 3 w 22) (bf 6 w 6) (bf 6 w 0))
  else if fld w 21 12 = 64 then
    some (.flushl (bf 1 w 31) (bf 3 w 22) (bf 6 w 6) (bf 6 w 0))
  else none

/-- Majors 0x20, 0x21, 0x22: FADD.fmt.rnd, FSUB.fmt.rnd, FMUL.fmt.rnd, FFMA.fmt.rnd. -/
def decodeMajor20_21_22 (w : Nat) : Option Instr :=
  if fld w 21 20 = 0 then
    some (.fadd (bf 1 w 31) (bf 2 w 25) (bf 3 w 22) (bf 2 w 18) (bf 6 w 12) (bf 6 w 6) (bf 6 w 0))
  else if fld w 21 20 = 1 then
    some (.fsub (bf 1 w 31) (bf 2 w 25) (bf 3 w 22) (bf 2 w 18) (bf 6 w 12) (bf 6 w 6) (bf 6 w 0))
  else if fld w 21 20 = 2 then
    some (.fmul (bf 1 w 31) (bf 2 w 25) (bf 3 w 22) (bf 2 w 18) (bf 6 w 12) (bf 6 w 6) (bf 6 w 0))
  else if fld w 21 20 = 3 then
    some (.ffma (bf 1 w 31) (bf 2 w 25) (bf 3 w 22) (bf 2 w 18) (bf 6 w 12) (bf 6 w 6) (bf 6 w 0))
  else none

/-- Major 0x23: FMIN.f32, FMAX.f32, FABS.f32, FNEG.f32, FCMP.f32.cond, FCLASS.f32. -/
def decodeMajor23 (w : Nat) : Option Instr :=
  if fld w 21 18 = 0 then
    some (.fminS (bf 1 w 31) (bf 3 w 22) (bf 6 w 12) (bf 6 w 6) (bf 6 w 0))
  else if fld w 21 18 = 1 then
    some (.fmaxS (bf 1 w 31) (bf 3 w 22) (bf 6 w 12) (bf 6 w 6) (bf 6 w 0))
  else if fld w 5 0 = 0 ∧ fld w 21 18 = 2 then
    some (.fabsS (bf 1 w 31) (bf 3 w 22) (bf 6 w 12) (bf 6 w 6))
  else if fld w 5 0 = 0 ∧ fld w 21 18 = 3 then
    some (.fnegS (bf 1 w 31) (bf 3 w 22) (bf 6 w 12) (bf 6 w 6))
  else if fld w 21 18 = 4 then
    some (.fcmpS (bf 1 w 31) (bf 3 w 22) (bf 3 w 15) (bf 3 w 12) (bf 6 w 6) (bf 6 w 0))
  else if fld w 5 0 = 0 ∧ fld w 21 18 = 5 then
    some (.fclassS (bf 1 w 31) (bf 3 w 22) (bf 6 w 12) (bf 6 w 6))
  else none

/-- Majors 0x24, 0x25: FMIN.fmt, FMAX.fmt, FABS.fmt, FNEG.fmt, FCMP.fmt.cond, FCLASS.fmt. -/
def decodeMajor24_25 (w : Nat) : Option Instr :=
  if fld w 21 18 = 0 then
    some (.fminH (bf 1 w 31) (bf 1 w 25) (bf 3 w 22) (bf 6 w 12) (bf 6 w 6) (bf 6 w 0))
  else if fld w 21 18 = 1 then
    some (.fmaxH (bf 1 w 31) (bf 1 w 25) (bf 3 w 22) (bf 6 w 12) (bf 6 w 6) (bf 6 w 0))
  else if fld w 5 0 = 0 ∧ fld w 21 18 = 2 then
    some (.fabsH (bf 1 w 31) (bf 1 w 25) (bf 3 w 22) (bf 6 w 12) (bf 6 w 6))
  else if fld w 5 0 = 0 ∧ fld w 21 18 = 3 then
    some (.fnegH (bf 1 w 31) (bf 1 w 25) (bf 3 w 22) (bf 6 w 12) (bf 6 w 6))
  else if fld w 21 18 = 4 then
    some (.fcmpH (bf 1 w 31) (bf 1 w 25) (bf 3 w 22) (bf 3 w 15) (bf 3 w 12) (bf 6 w 6) (bf 6 w 0))
  else if fld w 5 0 = 0 ∧ fld w 21 18 = 5 then
    some (.fclassH (bf 1 w 31) (bf 1 w 25) (bf 3 w 22) (bf 6 w 12) (bf 6 w 6))
  else none

/-- Major 0x26: FCVT.dst.src.rnd.sat. -/
def decodeMajor26 (w : Nat) : Option Instr :=
  some (.fcvt (bf 1 w 31) (bf 3 w 22) (bf 3 w 19) (bf 1 w 18) (bf 6 w 12) (bf 6 w 6) (bf 3 w 3) (bf 3 w 0))

/-- Major 0x27: ICVT.int.flt.rnd, FCVTI.flt.int.rnd. -/
def decodeMajor27 (w : Nat) : Option Instr :=
  if fld w 21 21 = 0 then
    some (.icvt (bf 1 w 31) (bf 3 w 22) (bf 3 w 18) (bf 6 w 12) (bf 6 w 6) (bf 3 w 3) (bf 3 w 0))
  else if fld w 21 21 = 1 then
    some (.fcvti (bf 1 w 31) (bf 3 w 22) (bf 3 w 18) (bf 6 w 12) (bf 6 w 6) (bf 3 w 3) (bf 3 w 0))
  else none

/-- Major 0x28: PACK.w, UNPK.w.lo.z. -/
def decodeMajor28 (w : Nat) : Option Instr :=
  if fld w 5 4 = 0 ∧ fld w 21 18 = 0 then
    some (.pack (bf 1 w 31) (bf 3 w 22) (bf 6 w 12) (bf 6 w 6) (bf 1 w 3) (bf 1 w 2) (bf 2 w 0))
  else if fld w 5 4 = 0 ∧ fld w 21 18 = 1 then
    some (.unpk (bf 1 w 31) (bf 3 w 22) (bf 6 w 12) (bf 6 w 6) (bf 1 w 3) (bf 1 w 2) (bf 2 w 0))
  else none

/-- Major 0x29: FRCP, FRSQ, FSQRT, FEXP2, FLOG2, FSIN, FCOS. -/
def decodeMajor29 (w : Nat) : Option Instr :=
  if fld w 5 0 = 0 ∧ fld w 21 18 = 0 then
    some (.frcp (bf 1 w 31) (bf 3 w 22) (bf 6 w 12) (bf 6 w 6))
  else if fld w 5 0 = 0 ∧ fld w 21 18 = 1 then
    some (.frsq (bf 1 w 31) (bf 3 w 22) (bf 6 w 12) (bf 6 w 6))
  else if fld w 5 0 = 0 ∧ fld w 21 18 = 2 then
    some (.fsqrt (bf 1 w 31) (bf 3 w 22) (bf 6 w 12) (bf 6 w 6))
  else if fld w 5 0 = 0 ∧ fld w 21 18 = 3 then
    some (.fexp2 (bf 1 w 31) (bf 3 w 22) (bf 6 w 12) (bf 6 w 6))
  else if fld w 5 0 = 0 ∧ fld w 21 18 = 4 then
    some (.flog2 (bf 1 w 31) (bf 3 w 22) (bf 6 w 12) (bf 6 w 6))
  else if fld w 5 0 = 0 ∧ fld w 21 18 = 5 then
    some (.fsin (bf 1 w 31) (bf 3 w 22) (bf 6 w 12) (bf 6 w 6))
  else if fld w 5 0 = 0 ∧ fld w 21 18 = 6 then
    some (.fcos (bf 1 w 31) (bf 3 w 22) (bf 6 w 12) (bf 6 w 6))
  else none

/-- Major 0x2A: PERM, SHFL, LBCAST. -/
def decodeMajor2A (w : Nat) : Option Instr :=
  if fld w 21 18 = 0 then
    some (.perm (bf 1 w 31) (bf 3 w 22) (bf 6 w 12) (bf 6 w 6) (bf 6 w 0))
  else if fld w 21 18 = 1 then
    some (.shfl (bf 1 w 31) (bf 3 w 22) (bf 6 w 12) (bf 6 w 6) (bf 6 w 0))
  else if fld w 5 5 = 0 ∧ fld w 21 18 = 2 then
    some (.lbcast (bf 1 w 31) (bf 3 w 22) (bf 6 w 12) (bf 6 w 6) (bf 5 w 0))
  else none

/-- Major 0x30: TIDSET, TIDGET. -/
def decodeMajor30 (w : Nat) : Option Instr :=
  if fld w 21 12 = 0 then
    some (.tidset (bf 1 w 31) (bf 3 w 22) (bf 6 w 6) (bf 6 w 0))
  else if fld w 5 0 = 0 ∧ fld w 21 18 = 1 then
    some (.tidget (bf 1 w 31) (bf 3 w 22) (bf 6 w 12) (bf 6 w 6))
  else none

/-- Major 0x31: WLOAD, WLOADSP, WSWAP. -/
def decodeMajor31 (w : Nat) : Option Instr :=
  if fld w 5 0 = 0 ∧ fld w 21 12 = 0 then
    some (.wload (bf 1 w 31) (bf 3 w 22) (bf 6 w 6))
  else if fld w 5 0 = 0 ∧ fld w 21 12 = 64 then
    some (.wloadsp (bf 1 w 31) (bf 3 w 22) (bf 6 w 6))
  else if fld w 21 0 = 524288 then
    some (.wswap (bf 1 w 31) (bf 3 w 22))
  else none

/-- Major 0x32: MSTREAM. -/
def decodeMajor32 (w : Nat) : Option Instr :=
  if fld w 5 0 = 0 ∧ fld w 21 12 = 0 then
    some (.mstream (bf 1 w 31) (bf 3 w 22) (bf 6 w 6))
  else none

/-- Major 0x33: MDRAIN, EPISET. -/
def decodeMajor33 (w : Nat) : Option Instr :=
  if fld w 5 0 = 0 ∧ fld w 21 12 = 0 then
    some (.mdrain (bf 1 w 31) (bf 3 w 22) (bf 6 w 6))
  else if fld w 5 0 = 0 ∧ fld w 21 14 = 16 then
    some (.episet (bf 1 w 31) (bf 3 w 22) (bf 2 w 12) (bf 6 w 6))
  else none

/-- Major 0x34: ACCZ, ACCRD, ACCWR. -/
def decodeMajor34 (w : Nat) : Option Instr :=
  if fld w 21 2 = 0 then
    some (.accz (bf 1 w 31) (bf 3 w 22) (bf 2 w 0))
  else if fld w 5 2 = 0 ∧ fld w 21 18 = 1 then
    some (.accrd (bf 1 w 31) (bf 3 w 22) (bf 6 w 12) (bf 6 w 6) (bf 2 w 0))
  else if fld w 5 2 = 0 ∧ fld w 21 18 = 2 then
    some (.accwr (bf 1 w 31) (bf 3 w 22) (bf 6 w 12) (bf 6 w 6) (bf 2 w 0))
  else none

/-- Major 0x35: SPCMP.fmt. -/
def decodeMajor35 (w : Nat) : Option Instr :=
  if fld w 5 3 = 0 ∧ fld w 21 18 = 0 then
    some (.spcmp (bf 1 w 31) (bf 3 w 22) (bf 6 w 12) (bf 6 w 6) (bf 3 w 0))
  else none

/-- Major 0x36: KICK, QSTAT, EVSET, EVCLR. -/
def decodeMajor36 (w : Nat) : Option Instr :=
  if fld w 5 4 = 0 ∧ fld w 21 15 = 0 then
    some (.kick (bf 1 w 31) (bf 3 w 22) (bf 3 w 12) (bf 6 w 6) (bf 4 w 0))
  else if fld w 5 0 = 0 ∧ fld w 11 9 = 0 ∧ fld w 21 18 = 1 then
    some (.qstat (bf 1 w 31) (bf 3 w 22) (bf 6 w 12) (bf 3 w 6))
  else if fld w 5 0 = 0 ∧ fld w 21 11 = 256 then
    some (.evset (bf 1 w 31) (bf 3 w 22) (bf 5 w 6))
  else if fld w 5 0 = 0 ∧ fld w 21 11 = 384 then
    some (.evclr (bf 1 w 31) (bf 3 w 22) (bf 5 w 6))
  else none

/-- Major 0x37: FETCH. -/
def decodeMajor37 (w : Nat) : Option Instr :=
  if fld w 21 18 = 0 then
    some (.fetch (bf 1 w 31) (bf 3 w 22) (bf 6 w 12) (bf 6 w 6) (bf 6 w 0))
  else none

/-- Major 0x38: EREF, ECOL, ESPAN. -/
def decodeMajor38 (w : Nat) : Option Instr :=
  if fld w 5 3 = 0 ∧ fld w 21 18 = 0 then
    some (.eref (bf 1 w 31) (bf 3 w 22) (bf 6 w 12) (bf 6 w 6) (bf 3 w 0))
  else if fld w 21 18 = 1 then
    some (.ecol (bf 1 w 31) (bf 3 w 22) (bf 6 w 12) (bf 6 w 6) (bf 6 w 0))
  else if fld w 21 18 = 2 then
    some (.espan (bf 1 w 31) (bf 3 w 22) (bf 6 w 12) (bf 6 w 6) (bf 6 w 0))
  else none

/-- Major 0x39: ENEW, EDEL, EADD, EREM. -/
def decodeMajor39 (w : Nat) : Option Instr :=
  if fld w 21 18 = 0 then
    some (.enew (bf 1 w 31) (bf 3 w 22) (bf 6 w 12) (bf 6 w 6) (bf 6 w 0))
  else if fld w 5 0 = 0 ∧ fld w 21 12 = 64 then
    some (.edel (bf 1 w 31) (bf 3 w 22) (bf 6 w 6))
  else if fld w 21 18 = 2 then
    some (.eadd (bf 1 w 31) (bf 3 w 22) (bf 6 w 12) (bf 6 w 6) (bf 6 w 0))
  else if fld w 21 12 = 192 then
    some (.erem (bf 1 w 31) (bf 3 w 22) (bf 6 w 6) (bf 6 w 0))
  else none

/-- Major 0x3A: VOPEN, VCLOSE. -/
def decodeMajor3A (w : Nat) : Option Instr :=
  if fld w 5 0 = 0 ∧ fld w 21 18 = 0 then
    some (.vopen (bf 1 w 31) (bf 3 w 22) (bf 6 w 12) (bf 6 w 6))
  else if fld w 5 0 = 0 ∧ fld w 21 12 = 64 then
    some (.vclose (bf 1 w 31) (bf 3 w 22) (bf 6 w 6))
  else none

/-- Major 0x3B: BEAMQ, RAYQ. -/
def decodeMajor3B (w : Nat) : Option Instr :=
  if fld w 5 0 = 0 ∧ fld w 21 12 = 0 then
    some (.beamq (bf 1 w 31) (bf 3 w 22) (bf 6 w 6))
  else if fld w 5 0 = 0 ∧ fld w 21 12 = 64 then
    some (.rayq (bf 1 w 31) (bf 3 w 22) (bf 6 w 6))
  else none

/-- Major 0x3C: SPAWN, JOIN.scope, TDONE, LQPUB. -/
def decodeMajor3C (w : Nat) : Option Instr :=
  if fld w 5 0 = 0 ∧ fld w 21 12 = 0 then
    some (.spawn (bf 1 w 31) (bf 3 w 22) (bf 6 w 6))
  else if fld w 5 0 = 0 ∧ fld w 21 15 = 8 then
    some (.join (bf 1 w 31) (bf 3 w 22) (bf 3 w 12) (bf 6 w 6))
  else if fld w 21 0 = 524288 then
    some (.tdone (bf 1 w 31) (bf 3 w 22))
  else if fld w 21 12 = 192 then
    some (.lqpub (bf 1 w 31) (bf 3 w 22) (bf 6 w 6) (bf 6 w 0))
  else none

/-- Major 0x3D: TRAP, BKPT, RESUME.replay, RESUME.skip, RESUME.end. -/
def decodeMajor3D (w : Nat) : Option Instr :=
  if fld w 21 12 = 0 then
    some (.trap (bf 1 w 31) (bf 3 w 22) (bf 12 w 0))
  else if fld w 21 12 = 64 then
    some (.bkpt (bf 1 w 31) (bf 3 w 22) (bf 12 w 0))
  else if fld w 5 0 = 0 ∧ fld w 21 12 = 128 then
    some (.resumeReplay (bf 1 w 31) (bf 3 w 22) (bf 6 w 6))
  else if fld w 5 0 = 1 ∧ fld w 21 12 = 128 then
    some (.resumeSkip (bf 1 w 31) (bf 3 w 22) (bf 6 w 6))
  else if fld w 5 0 = 2 ∧ fld w 21 12 = 128 then
    some (.resumeEnd (bf 1 w 31) (bf 3 w 22) (bf 6 w 6))
  else none

/-- Major 0x3E: EXT. -/
def decodeMajor3E (w : Nat) : Option Instr :=
  if fld w 31 25 = 62 then
    some (.extWord (bf 25 w 0))
  else none

/-- Major 0x3F: REP. -/
def decodeMajor3F (w : Nat) : Option Instr :=
  if fld w 31 12 = 516096 then
    some (.repWord (bf 2 w 10) (bf 2 w 8) (bf 2 w 6) (bf 6 w 0))
  else none

/-- The member a word names by its major opcode, before the reserved codes are checked. -/
def decodeRaw (w : Nat) : Option Instr :=
  match fld w 30 25 with
  | 0 | 1 | 2 | 3 => decodeMajor00_01_02_03 w
  | 4 | 5 => decodeMajor04_05 w
  | 6 => decodeMajor06 w
  | 7 => decodeMajor07 w
  | 8 => decodeMajor08 w
  | 9 => decodeMajor09 w
  | 10 => decodeMajor0A w
  | 11 => decodeMajor0B w
  | 12 => decodeMajor0C w
  | 13 => decodeMajor0D w
  | 14 => decodeMajor0E w
  | 15 => decodeMajor0F w
  | 16 => decodeMajor10 w
  | 17 => decodeMajor11 w
  | 18 => decodeMajor12 w
  | 19 => decodeMajor13 w
  | 20 => decodeMajor14 w
  | 21 => decodeMajor15 w
  | 22 => decodeMajor16 w
  | 23 => decodeMajor17 w
  | 24 => decodeMajor18 w
  | 25 => decodeMajor19 w
  | 26 => decodeMajor1A w
  | 27 => decodeMajor1B w
  | 28 => decodeMajor1C w
  | 29 => decodeMajor1D w
  | 32 | 33 | 34 => decodeMajor20_21_22 w
  | 35 => decodeMajor23 w
  | 36 | 37 => decodeMajor24_25 w
  | 38 => decodeMajor26 w
  | 39 => decodeMajor27 w
  | 40 => decodeMajor28 w
  | 41 => decodeMajor29 w
  | 42 => decodeMajor2A w
  | 48 => decodeMajor30 w
  | 49 => decodeMajor31 w
  | 50 => decodeMajor32 w
  | 51 => decodeMajor33 w
  | 52 => decodeMajor34 w
  | 53 => decodeMajor35 w
  | 54 => decodeMajor36 w
  | 55 => decodeMajor37 w
  | 56 => decodeMajor38 w
  | 57 => decodeMajor39 w
  | 58 => decodeMajor3A w
  | 59 => decodeMajor3B w
  | 60 => decodeMajor3C w
  | 61 => decodeMajor3D w
  | 62 => decodeMajor3E w
  | 63 => decodeMajor3F w
  | _ => none

/-- The instruction a 32-bit word stands for, or none: ILLEGAL_WORD (10 R226). -/
def decodeWord (w : Nat) : Option Instr :=
  match decodeRaw w with
  | some i => if i.wf then some i else none
  | none => none

/-- The little-endian 32-bit word at the head of a byte list, and the rest (10 R213). -/
def wordOfBytes (bs : List Byte) : Option (Nat × List Byte) :=
  match bs with
  | b0 :: b1 :: b2 :: b3 :: rest =>
    some (b0.toNat + b1.toNat * 2 ^ 8 + b2.toNat * 2 ^ 16 + b3.toNat * 2 ^ 24, rest)
  | _ => none

/-- Decoding bytes: the instruction and the bytes after it, or none. -/
def decodeBytes (bs : List Byte) : Option (Instr × List Byte) :=
  match wordOfBytes bs with
  | some (w, rest) =>
    match decodeWord w with
    | some i => some (i, rest)
    | none => none
  | none => none

/-- The four bytes of a word as they stand in memory, lowest address first (00 R4). -/
def bytesOfWord (w : Nat) : List Byte :=
  [.ofNat 8 w, .ofNat 8 (w / 2 ^ 8), .ofNat 8 (w / 2 ^ 16), .ofNat 8 (w / 2 ^ 24)]

/-- What the decoder reads from an instruction whose bits are `w`; every row of the table has one word. -/
def decodeTableWord (_nbits w : Nat) : Option Instr :=
  match decodeBytes (bytesOfWord w) with
  | some (i, _) => some i
  | none => none

/-- A word with a field added at bit `lo`. -/
def addF {n : Nat} (w : Nat) (f : BitVec n) (lo : Nat) : Nat := w + f.toNat * 2 ^ lo

/-- The word of an instruction, from the same encoding tables.  A step without an encoding has none (0). -/
def encode (i : Instr) : Nat :=
  match i with
  | .add c w g d a b => addF (addF (addF (addF (addF (addF 0x00000000 c 31) w 25) g 22) d 12) a 6) b 0
  | .sub c w g d a b => addF (addF (addF (addF (addF (addF 0x00040000 c 31) w 25) g 22) d 12) a 6) b 0
  | .minS c w g d a b => addF (addF (addF (addF (addF (addF 0x00080000 c 31) w 25) g 22) d 12) a 6) b 0
  | .minZ c w g d a b => addF (addF (addF (addF (addF (addF 0x000C0000 c 31) w 25) g 22) d 12) a 6) b 0
  | .maxS c w g d a b => addF (addF (addF (addF (addF (addF 0x00100000 c 31) w 25) g 22) d 12) a 6) b 0
  | .maxZ c w g d a b => addF (addF (addF (addF (addF (addF 0x00140000 c 31) w 25) g 22) d 12) a 6) b 0
  | .abs c w g d a => addF (addF (addF (addF (addF 0x00180000 c 31) w 25) g 22) d 12) a 6
  | .and c w g d a b => addF (addF (addF (addF (addF (addF 0x001C0000 c 31) w 25) g 22) d 12) a 6) b 0
  | .or c w g d a b => addF (addF (addF (addF (addF (addF 0x00200000 c 31) w 25) g 22) d 12) a 6) b 0
  | .xor c w g d a b => addF (addF (addF (addF (addF (addF 0x00240000 c 31) w 25) g 22) d 12) a 6) b 0
  | .andn c w g d a b => addF (addF (addF (addF (addF (addF 0x00280000 c 31) w 25) g 22) d 12) a 6) b 0
  | .shl c w g d a b => addF (addF (addF (addF (addF (addF 0x002C0000 c 31) w 25) g 22) d 12) a 6) b 0
  | .shr c w g d a b => addF (addF (addF (addF (addF (addF 0x00300000 c 31) w 25) g 22) d 12) a 6) b 0
  | .sra c w g d a b => addF (addF (addF (addF (addF (addF 0x00340000 c 31) w 25) g 22) d 12) a 6) b 0
  | .rot c w g d a b => addF (addF (addF (addF (addF (addF 0x00380000 c 31) w 25) g 22) d 12) a 6) b 0
  | .mul c w g d a b => addF (addF (addF (addF (addF (addF 0x08000000 c 31) w 25) g 22) d 12) a 6) b 0
  | .mulhS c w g d a b => addF (addF (addF (addF (addF (addF 0x08040000 c 31) w 25) g 22) d 12) a 6) b 0
  | .mulhZ c w g d a b => addF (addF (addF (addF (addF (addF 0x08080000 c 31) w 25) g 22) d 12) a 6) b 0
  | .mad c w g d a b => addF (addF (addF (addF (addF (addF 0x080C0000 c 31) w 25) g 22) d 12) a 6) b 0
  | .divS c w g d a b => addF (addF (addF (addF (addF (addF 0x08100000 c 31) w 25) g 22) d 12) a 6) b 0
  | .divZ c w g d a b => addF (addF (addF (addF (addF (addF 0x08140000 c 31) w 25) g 22) d 12) a 6) b 0
  | .remS c w g d a b => addF (addF (addF (addF (addF (addF 0x08180000 c 31) w 25) g 22) d 12) a 6) b 0
  | .remZ c w g d a b => addF (addF (addF (addF (addF (addF 0x081C0000 c 31) w 25) g 22) d 12) a 6) b 0
  | .clz c w g d a => addF (addF (addF (addF (addF 0x08200000 c 31) w 25) g 22) d 12) a 6
  | .popc c w g d a => addF (addF (addF (addF (addF 0x08240000 c 31) w 25) g 22) d 12) a 6
  | .brev c w g d a => addF (addF (addF (addF (addF 0x08280000 c 31) w 25) g 22) d 12) a 6
  | .bfx c w g d a b => addF (addF (addF (addF (addF (addF 0x082C0000 c 31) w 25) g 22) d 12) a 6) b 0
  | .bfi c w g d a b => addF (addF (addF (addF (addF (addF 0x08300000 c 31) w 25) g 22) d 12) a 6) b 0
  | .addi c g h d a i => addF (addF (addF (addF (addF (addF 0x0C000000 c 31) g 22) h 18) d 12) a 6) i 0
  | .andi c g h d a i => addF (addF (addF (addF (addF (addF 0x0E000000 c 31) g 22) h 18) d 12) a 6) i 0
  | .ori c g h d a i => addF (addF (addF (addF (addF (addF 0x0E100000 c 31) g 22) h 18) d 12) a 6) i 0
  | .xori c g h d a i => addF (addF (addF (addF (addF (addF 0x0E200000 c 31) g 22) h 18) d 12) a 6) i 0
  | .shli c g d a i => addF (addF (addF (addF (addF 0x10000000 c 31) g 22) d 12) a 6) i 0
  | .shri c g d a i => addF (addF (addF (addF (addF 0x10100000 c 31) g 22) d 12) a 6) i 0
  | .srai c g d a i => addF (addF (addF (addF (addF 0x10200000 c 31) g 22) d 12) a 6) i 0
  | .movi c g h d j i => addF (addF (addF (addF (addF (addF 0x12000000 c 31) g 22) h 18) d 12) j 6) i 0
  | .cmpi c g h e p a i => addF (addF (addF (addF (addF (addF (addF 0x14000000 c 31) g 22) h 18) e 15) p 12) a 6) i 0
  | .cmp c g w e p a b => addF (addF (addF (addF (addF (addF (addF 0x16000000 c 31) g 22) w 18) e 15) p 12) a 6) b 0
  | .pand c g p q r => addF (addF (addF (addF (addF 0x16100000 c 31) g 22) p 12) q 6) r 0
  | .por c g p q r => addF (addF (addF (addF (addF 0x16140000 c 31) g 22) p 12) q 6) r 0
  | .pxor c g p q r => addF (addF (addF (addF (addF 0x16180000 c 31) g 22) p 12) q 6) r 0
  | .pnot c g p q => addF (addF (addF (addF 0x161C0000 c 31) g 22) p 12) q 6
  | .sel c g d a b => addF (addF (addF (addF (addF 0x16200000 c 31) g 22) d 12) a 6) b 0
  | .mov c g d a => addF (addF (addF (addF 0x16240000 c 31) g 22) d 12) a 6
  | .lea c g d a b => addF (addF (addF (addF (addF 0x16280000 c 31) g 22) d 12) a 6) b 0
  | .ixget c g d a => addF (addF (addF (addF 0x162C0000 c 31) g 22) d 12) a 6
  | .ixput c g a b => addF (addF (addF (addF 0x16300000 c 31) g 22) a 6) b 0
  | .gets c g d a => addF (addF (addF (addF 0x16340000 c 31) g 22) d 12) a 6
  | .puts c g b => addF (addF (addF 0x163807C0 c 31) g 22) b 0
  | .bra c g o => addF (addF (addF 0x18000000 c 31) g 22) o 0
  | .call c g o => addF (addF (addF 0x1A000000 c 31) g 22) o 0
  | .brx c g a => addF (addF (addF 0x1C000000 c 31) g 22) a 6
  | .ret c g a => addF (addF (addF 0x1C040000 c 31) g 22) a 6
  | .exit c g => addF (addF 0x1C080000 c 31) g 22
  | .nop c g => addF (addF 0x1C0C0000 c 31) g 22
  | .yield c g => addF (addF 0x1C100000 c 31) g 22
  | .mjoin c g a => addF (addF (addF 0x1E000000 c 31) g 22) a 6
  | .mleave c g a => addF (addF (addF 0x1E040000 c 31) g 22) a 6
  | .mwait c g a => addF (addF (addF 0x1E080000 c 31) g 22) a 6
  | .mset c g d a => addF (addF (addF (addF 0x1E0C0000 c 31) g 22) d 12) a 6
  | .mget c g d a => addF (addF (addF (addF 0x1E100000 c 31) g 22) d 12) a 6
  | .voteBallot c g d a => addF (addF (addF (addF 0x1E140000 c 31) g 22) d 12) a 6
  | .voteAll c g d a => addF (addF (addF (addF 0x1E140001 c 31) g 22) d 12) a 6
  | .voteAny c g d a => addF (addF (addF (addF 0x1E140002 c 31) g 22) d 12) a 6
  | .voteUni c g d a => addF (addF (addF (addF 0x1E140003 c 31) g 22) d 12) a 6
  | .ldg c g s o d a k => addF (addF (addF (addF (addF (addF (addF 0x20000000 c 31) g 22) s 20) o 17) d 11) a 5) k 0
  | .stg c g s o d a k => addF (addF (addF (addF (addF (addF (addF 0x22000000 c 31) g 22) s 20) o 17) d 11) a 5) k 0
  | .lds c g s o d a k => addF (addF (addF (addF (addF (addF (addF 0x24000000 c 31) g 22) s 20) o 17) d 11) a 5) k 0
  | .sts c g s o d a k => addF (addF (addF (addF (addF (addF (addF 0x26000000 c 31) g 22) s 20) o 17) d 11) a 5) k 0
  | .atomAdd c g s o d a e p => addF (addF (addF (addF (addF (addF (addF (addF 0x28200000 c 31) g 22) s 20) o 17) d 11) a 5) e 1) p 0
  | .atomMinS c g s o d a e p => addF (addF (addF (addF (addF (addF (addF (addF 0x28200004 c 31) g 22) s 20) o 17) d 11) a 5) e 1) p 0
  | .atomMaxS c g s o d a e p => addF (addF (addF (addF (addF (addF (addF (addF 0x28200008 c 31) g 22) s 20) o 17) d 11) a 5) e 1) p 0
  | .atomAnd c g s o d a e p => addF (addF (addF (addF (addF (addF (addF (addF 0x2820000C c 31) g 22) s 20) o 17) d 11) a 5) e 1) p 0
  | .atomOr c g s o d a e p => addF (addF (addF (addF (addF (addF (addF (addF 0x28200010 c 31) g 22) s 20) o 17) d 11) a 5) e 1) p 0
  | .atomXor c g s o d a e p => addF (addF (addF (addF (addF (addF (addF (addF 0x28200014 c 31) g 22) s 20) o 17) d 11) a 5) e 1) p 0
  | .atomExch c g s o d a e p => addF (addF (addF (addF (addF (addF (addF (addF 0x28200018 c 31) g 22) s 20) o 17) d 11) a 5) e 1) p 0
  | .atomInc c g s o d a e p => addF (addF (addF (addF (addF (addF (addF (addF 0x2820001C c 31) g 22) s 20) o 17) d 11) a 5) e 1) p 0
  | .atomfAdd c g s o d a e p => addF (addF (addF (addF (addF (addF (addF (addF 0x2A000000 c 31) g 22) s 20) o 17) d 11) a 5) e 1) p 0
  | .cas c g s o d a p => addF (addF (addF (addF (addF (addF (addF 0x2C200000 c 31) g 22) s 20) o 17) d 11) a 5) p 0
  | .nibins c g o d a n p => addF (addF (addF (addF (addF (addF (addF 0x2E000000 c 31) g 22) o 17) d 11) a 5) n 4) p 0
  | .redAdd c g s o d a e p => addF (addF (addF (addF (addF (addF (addF (addF 0x30200000 c 31) g 22) s 20) o 17) d 11) a 5) e 1) p 0
  | .redMinS c g s o d a e p => addF (addF (addF (addF (addF (addF (addF (addF 0x30200004 c 31) g 22) s 20) o 17) d 11) a 5) e 1) p 0
  | .redMaxS c g s o d a e p => addF (addF (addF (addF (addF (addF (addF (addF 0x30200008 c 31) g 22) s 20) o 17) d 11) a 5) e 1) p 0
  | .redAnd c g s o d a e p => addF (addF (addF (addF (addF (addF (addF (addF 0x3020000C c 31) g 22) s 20) o 17) d 11) a 5) e 1) p 0
  | .redOr c g s o d a e p => addF (addF (addF (addF (addF (addF (addF (addF 0x30200010 c 31) g 22) s 20) o 17) d 11) a 5) e 1) p 0
  | .redXor c g s o d a e p => addF (addF (addF (addF (addF (addF (addF (addF 0x30200014 c 31) g 22) s 20) o 17) d 11) a 5) e 1) p 0
  | .redFadd c g s o d a e p => addF (addF (addF (addF (addF (addF (addF (addF 0x30000018 c 31) g 22) s 20) o 17) d 11) a 5) e 1) p 0
  | .redInc c g s o d a e p => addF (addF (addF (addF (addF (addF (addF (addF 0x3020001C c 31) g 22) s 20) o 17) d 11) a 5) e 1) p 0
  | .waitv c g s o d a e => addF (addF (addF (addF (addF (addF (addF 0x32000000 c 31) g 22) s 20) o 17) d 11) a 5) e 2
  | .fence c g o => addF (addF (addF 0x34000000 c 31) g 22) o 17
  | .fenceEng c g => addF (addF 0x340C0000 c 31) g 22
  | .barArrive c g d n => addF (addF (addF (addF 0x36000000 c 31) g 22) d 12) n 0
  | .barSync c g d n => addF (addF (addF (addF 0x36040000 c 31) g 22) d 12) n 0
  | .barWait c g d n => addF (addF (addF (addF 0x36080000 c 31) g 22) d 12) n 0
  | .barSyncEng c g d n => addF (addF (addF (addF 0x36140000 c 31) g 22) d 12) n 0
  | .barWaitEng c g d n => addF (addF (addF (addF 0x36180000 c 31) g 22) d 12) n 0
  | .cbinit c g s a b => addF (addF (addF (addF (addF 0x38000000 c 31) g 22) s 12) a 6) b 0
  | .cbwait c g d a => addF (addF (addF (addF 0x38040000 c 31) g 22) d 12) a 6
  | .cbtest c g p a => addF (addF (addF (addF 0x38080000 c 31) g 22) p 12) a 6
  | .cbadd c g a b => addF (addF (addF (addF 0x380C0000 c 31) g 22) a 6) b 0
  | .pref c g a b => addF (addF (addF (addF 0x3A000000 c 31) g 22) a 6) b 0
  | .flushl c g a b => addF (addF (addF (addF 0x3A040000 c 31) g 22) a 6) b 0
  | .fadd c w g r d a b => addF (addF (addF (addF (addF (addF (addF 0x40000000 c 31) w 25) g 22) r 18) d 12) a 6) b 0
  | .fsub c w g r d a b => addF (addF (addF (addF (addF (addF (addF 0x40100000 c 31) w 25) g 22) r 18) d 12) a 6) b 0
  | .fmul c w g r d a b => addF (addF (addF (addF (addF (addF (addF 0x40200000 c 31) w 25) g 22) r 18) d 12) a 6) b 0
  | .ffma c w g r d a b => addF (addF (addF (addF (addF (addF (addF 0x40300000 c 31) w 25) g 22) r 18) d 12) a 6) b 0
  | .fminS c g d a b => addF (addF (addF (addF (addF 0x46000000 c 31) g 22) d 12) a 6) b 0
  | .fminH c w g d a b => addF (addF (addF (addF (addF (addF 0x48000000 c 31) w 25) g 22) d 12) a 6) b 0
  | .fmaxS c g d a b => addF (addF (addF (addF (addF 0x46040000 c 31) g 22) d 12) a 6) b 0
  | .fmaxH c w g d a b => addF (addF (addF (addF (addF (addF 0x48040000 c 31) w 25) g 22) d 12) a 6) b 0
  | .fabsS c g d a => addF (addF (addF (addF 0x46080000 c 31) g 22) d 12) a 6
  | .fabsH c w g d a => addF (addF (addF (addF (addF 0x48080000 c 31) w 25) g 22) d 12) a 6
  | .fnegS c g d a => addF (addF (addF (addF 0x460C0000 c 31) g 22) d 12) a 6
  | .fnegH c w g d a => addF (addF (addF (addF (addF 0x480C0000 c 31) w 25) g 22) d 12) a 6
  | .fcmpS c g e p a b => addF (addF (addF (addF (addF (addF 0x46100000 c 31) g 22) e 15) p 12) a 6) b 0
  | .fcmpH c w g e p a b => addF (addF (addF (addF (addF (addF (addF 0x48100000 c 31) w 25) g 22) e 15) p 12) a 6) b 0
  | .fclassS c g d a => addF (addF (addF (addF 0x46140000 c 31) g 22) d 12) a 6
  | .fclassH c w g d a => addF (addF (addF (addF (addF 0x48140000 c 31) w 25) g 22) d 12) a 6
  | .fcvt c g e t d a f r => addF (addF (addF (addF (addF (addF (addF (addF 0x4C000000 c 31) g 22) e 19) t 18) d 12) a 6) f 3) r 0
  | .icvt c g f d a i r => addF (addF (addF (addF (addF (addF (addF 0x4E000000 c 31) g 22) f 18) d 12) a 6) i 3) r 0
  | .fcvti c g f d a i r => addF (addF (addF (addF (addF (addF (addF 0x4E200000 c 31) g 22) f 18) d 12) a 6) i 3) r 0
  | .pack c g d a x t w => addF (addF (addF (addF (addF (addF (addF 0x50000000 c 31) g 22) d 12) a 6) x 3) t 2) w 0
  | .unpk c g d a x h w => addF (addF (addF (addF (addF (addF (addF 0x50040000 c 31) g 22) d 12) a 6) x 3) h 2) w 0
  | .frcp c g d a => addF (addF (addF (addF 0x52000000 c 31) g 22) d 12) a 6
  | .frsq c g d a => addF (addF (addF (addF 0x52040000 c 31) g 22) d 12) a 6
  | .fsqrt c g d a => addF (addF (addF (addF 0x52080000 c 31) g 22) d 12) a 6
  | .fexp2 c g d a => addF (addF (addF (addF 0x520C0000 c 31) g 22) d 12) a 6
  | .flog2 c g d a => addF (addF (addF (addF 0x52100000 c 31) g 22) d 12) a 6
  | .fsin c g d a => addF (addF (addF (addF 0x52140000 c 31) g 22) d 12) a 6
  | .fcos c g d a => addF (addF (addF (addF 0x52180000 c 31) g 22) d 12) a 6
  | .perm c g d a b => addF (addF (addF (addF (addF 0x54000000 c 31) g 22) d 12) a 6) b 0
  | .shfl c g d a b => addF (addF (addF (addF (addF 0x54040000 c 31) g 22) d 12) a 6) b 0
  | .lbcast c g d a l => addF (addF (addF (addF (addF 0x54080000 c 31) g 22) d 12) a 6) l 0
  | .tidset c g a b => addF (addF (addF (addF 0x60000000 c 31) g 22) a 6) b 0
  | .tidget c g d a => addF (addF (addF (addF 0x60040000 c 31) g 22) d 12) a 6
  | .wload c g a => addF (addF (addF 0x62000000 c 31) g 22) a 6
  | .wloadsp c g a => addF (addF (addF 0x62040000 c 31) g 22) a 6
  | .wswap c g => addF (addF 0x62080000 c 31) g 22
  | .mstream c g a => addF (addF (addF 0x64000000 c 31) g 22) a 6
  | .mdrain c g a => addF (addF (addF 0x66000000 c 31) g 22) a 6
  | .episet c g k a => addF (addF (addF (addF 0x66040000 c 31) g 22) k 12) a 6
  | .accz c g t => addF (addF (addF 0x68000000 c 31) g 22) t 0
  | .accrd c g d a t => addF (addF (addF (addF (addF 0x68040000 c 31) g 22) d 12) a 6) t 0
  | .accwr c g d a t => addF (addF (addF (addF (addF 0x68080000 c 31) g 22) d 12) a 6) t 0
  | .spcmp c g d a f => addF (addF (addF (addF (addF 0x6A000000 c 31) g 22) d 12) a 6) f 0
  | .kick c g n a t => addF (addF (addF (addF (addF 0x6C000000 c 31) g 22) n 12) a 6) t 0
  | .qstat c g d n => addF (addF (addF (addF 0x6C040000 c 31) g 22) d 12) n 6
  | .evset c g n => addF (addF (addF 0x6C080000 c 31) g 22) n 6
  | .evclr c g n => addF (addF (addF 0x6C0C0000 c 31) g 22) n 6
  | .fetch c g d a b => addF (addF (addF (addF (addF 0x6E000000 c 31) g 22) d 12) a 6) b 0
  | .eref c g d a p => addF (addF (addF (addF (addF 0x70000000 c 31) g 22) d 12) a 6) p 0
  | .ecol c g d a b => addF (addF (addF (addF (addF 0x70040000 c 31) g 22) d 12) a 6) b 0
  | .espan c g d a b => addF (addF (addF (addF (addF 0x70080000 c 31) g 22) d 12) a 6) b 0
  | .enew c g d a b => addF (addF (addF (addF (addF 0x72000000 c 31) g 22) d 12) a 6) b 0
  | .edel c g a => addF (addF (addF 0x72040000 c 31) g 22) a 6
  | .eadd c g d a b => addF (addF (addF (addF (addF 0x72080000 c 31) g 22) d 12) a 6) b 0
  | .erem c g a b => addF (addF (addF (addF 0x720C0000 c 31) g 22) a 6) b 0
  | .vopen c g d a => addF (addF (addF (addF 0x74000000 c 31) g 22) d 12) a 6
  | .vclose c g a => addF (addF (addF 0x74040000 c 31) g 22) a 6
  | .beamq c g a => addF (addF (addF 0x76000000 c 31) g 22) a 6
  | .rayq c g a => addF (addF (addF 0x76040000 c 31) g 22) a 6
  | .spawn c g a => addF (addF (addF 0x78000000 c 31) g 22) a 6
  | .join c g s a => addF (addF (addF (addF 0x78040000 c 31) g 22) s 12) a 6
  | .tdone c g => addF (addF 0x78080000 c 31) g 22
  | .lqpub c g a b => addF (addF (addF (addF 0x780C0000 c 31) g 22) a 6) b 0
  | .trap c g i => addF (addF (addF 0x7A000000 c 31) g 22) i 0
  | .bkpt c g i => addF (addF (addF 0x7A040000 c 31) g 22) i 0
  | .resumeReplay c g a => addF (addF (addF 0x7A080000 c 31) g 22) a 6
  | .resumeSkip c g a => addF (addF (addF 0x7A080001 c 31) g 22) a 6
  | .resumeEnd c g a => addF (addF (addF 0x7A080002 c 31) g 22) a 6
  | .extWord i => addF 0x7C000000 i 0
  | .repWord d a b n => addF (addF (addF (addF 0x7E000000 d 10) a 8) b 6) n 0
  | .powerOn => 0
  | .powerOff => 0
  | .pglimWrite _ _ => 0
  | .leaveRequest _ _ => 0
  | .leaveGrant _ => 0
  | .pcTableResort _ _ => 0
  | .threadWake _ _ _ => 0
  | .warpLoadComplete _ _ => 0
  | .warpDrainComplete _ _ => 0
  | .warpSaveComplete _ _ => 0
  | .warpExitComplete _ _ => 0
  | .instructionBoundarySave _ => 0
  | .reconvergencePreemption _ => 0
  | .reconvergenceTimeout _ => 0
  | .warpRestore _ _ _ _ => 0
  | .publicationArrival _ _ => 0
  | .lqtailWrite _ _ _ => 0
  | .lqctlErrClear _ _ => 0
  | .lqctlReset _ _ => 0
  | .lqctlEnable _ _ _ => 0
  | .queueNop _ _ => 0
  | .queueLaunch _ _ => 0
  | .queueWsync _ _ => 0
  | .queueFence _ _ => 0
  | .workgroupPlacement _ _ => 0
  | .gridEnd _ _ => 0
  | .taskDispatch _ => 0
  | .deckRefill _ => 0
  | .stealRequest _ => 0
  | .stealRoundBackoff _ => 0
  | .stealServe _ => 0
  | .stealFrameArrival _ => 0
  | .stealAck _ => 0
  | .stealNack _ => 0
  | .storeDrain _ _ _ _ => 0
  | .loadPerform _ _ _ _ => 0
  | .atomicPerform _ _ _ _ => 0
  | .causalDelivery _ _ => 0
  | .fenceComplete _ _ _ => 0
  | .pageRequestRetry _ _ => 0
  | .pageRequestFail _ _ => 0
  | .generationRejectReplay _ _ _ => 0
  | .asgenBump _ => 0
  | .asgenBumpComplete _ => 0
  | .rwinctlWrite _ _ _ => 0
  | .hbmrtctlWrite _ _ => 0
  | .hbmRetrain _ => 0
  | .remoteWriteApply _ => 0
  | .numctlWrite _ _ => 0
  | .numdropClear _ _ => 0
  | .syncPoint _ _ => 0
  | .syncPointResume _ _ => 0
  | .beamQueryStart _ => 0
  | .weightLoadStart _ _ => 0
  | .swapStart _ _ => 0
  | .streamStart _ _ => 0
  | .drainStart _ _ => 0
  | .episetStart _ _ => 0
  | .matrixCommandComplete _ _ => 0
  | .tidsetComplete _ => 0
  | .flushlComplete _ => 0
  | .chainCopy _ _ => 0
  | .chainStrided _ _ => 0
  | .chainGather _ _ => 0
  | .chainScatter _ _ => 0
  | .chainNmgather _ _ => 0
  | .chainMaskrow _ _ => 0
  | .chainInstar _ _ => 0
  | .rwrite _ _ => 0
  | .rreduce _ _ => 0
  | .chainLoop _ _ => 0
  | .chainCond _ _ => 0
  | .condPoll _ _ => 0
  | .chainQfence _ _ => 0
  | .chainFollow _ _ => 0
  | .chainSignal _ _ => 0
  | .chainEntryComplete _ _ => 0
  | .chainAccessFailed _ _ => 0
  | .partctlEnable _ _ => 0
  | .partitionResize _ _ => 0
  | .partitionResizeComplete _ => 0
  | .partctlDisable _ _ => 0
  | .ctxctlSave _ => 0
  | .ctxctlRun _ => 0
  | .ctxctlReset _ => 0
  | .ctxctlRetrap _ => 0
  | .sliceEnd _ => 0
  | .clusterReclaim _ _ => 0
  | .reclaimTimeout _ _ => 0
  | .blockReceive _ _ _ => 0
  | .blockResend _ => 0
  | .linkDown _ => 0
  | .linkRetrainComplete _ => 0
  | .rdreq _ _ _ => 0
  | .wrreq _ _ _ => 0
  | .mrdreq _ _ _ => 0
  | .mwrreq _ _ _ => 0
  | .rwritePacket _ _ _ => 0
  | .rreducePacket _ _ _ => 0
  | .timePacket _ _ _ => 0
  | .creditPacket _ _ => 0
  | .headcfgWrite _ _ _ => 0
  | .headsurfWrite _ _ _ => 0
  | .frameEncodeComplete _ _ => 0
  | .ptpctlWrite _ => 0
  | .ptpLock _ _ => 0
  | .bootStart => 0
  | .bootComplete => 0
  | .attestRequest => 0
  | .attestComplete => 0
  | .attnonceWrite _ _ => 0
  | .ckptNow _ => 0
  | .ckptPeriodExpiry _ => 0
  | .ckptStepsReached _ => 0
  | .ckptHashesReceived _ _ => 0
  | .ckptPeerTimeout _ => 0
  | .handlerDispatch _ _ => 0
  | .handlerResourceTimeout _ _ => 0
  | .watchdog _ _ => 0
  | .coreDisabled _ _ => 0
  | .pageScrub _ => 0
  | .registerWrite _ _ => 0
  | .softError _ _ => 0
  | .blockSend _ => 0
  | .ptpLockLoss => 0
  | .syncInterval => 0
  | .throttled _ => 0
  | .resultDelivered _ _ => 0

end Sys2Proof
end

