-- ==== Sys2Proof/Config.lean ====
section
/-! DEFINITION. What an implementation fixes and the free values (log 4).  The opaque constants have no body:
nothing can be proved of their values. -/

namespace Sys2Proof.Config

/-- A free pick, one per value of the choice counter: which of the writes later than the posting floor an engine
read of a byte returns (05 R103), which stock a refill draws from (03 R63), whether eligible requests merge (R97). -/
opaque choose : Nat → Nat
/-- A free 64-bit value, one per value of the choice counter, for a result that the spec does not state. -/
opaque freeWord : Nat → Word
/-- The bundles a halted warp still issues, per value of the choice counter; the model takes it modulo 9 (22 R389). -/
opaque skid : Nat → Nat
/-- The vendor's P-256 public key, whose SHA-256 is fused in the package (21 R379). -/
opaque vendorKey : Nat × Nat
/-- The length in bytes of the firmware image that the host wrote, trailer included (21 R379). -/
opaque firmwareLength : Nat
/-- The firmware version that a verified image carries (21 R379). -/
opaque firmwareVersion : List Byte → BitVec 32
/-- The signature made with the device identity key over a report (21 R380). -/
opaque attSignature : List Byte → Nat → List Byte
/-- The key's certificate from the vendor, 512 bytes (21 R380). -/
opaque attCert : Nat → Byte
/-- The device serial, 16 bytes (21 R380). -/
opaque serial : Nat → Byte
/-- Spare rows of a sector in the package's fused record (22 R388). -/
opaque fusedSpares : Nat → Nat
/-- Cores of a sector out of service in the fused record (22 R388). -/
opaque fusedCoresOff : Nat → Nat
/-- DEGRADED and REPLACE_REQUESTED of a sector in the fused record (22 R388). -/
opaque fusedFlags : Nat → Nat
/-- Channels of an HBM stack; the model takes one to 256 (04 R91). -/
opaque channels : Nat
/-- The package's IEEE 1588 clock identity, 8 bytes (21 R378). -/
opaque clockIdentity : Nat → Byte
/-- An AV1 encoder, in low delay without frame reordering: what it appends to a temporal unit's delimiter, from the profile, the
level, the bit rate in units of 100 kb/s, 10-bit samples or not, the width, the height and the frame rate, the frame's number,
which stands for the frames before it, and the surface's bytes (21 R376, R377). -/
opaque av1Unit (profile level rate : Nat) (ten : Bool) (width height fps frame : Nat) (surface : List Byte) : List Byte

/-- Cores of the package (01 R12). -/
def cores : Nat := 192
/-- Cores of a sector (01 R12). -/
def coresPerSector : Nat := 48
/-- The package's power limit in watts (01 R20). -/
def packageWatts : Nat := 3800
/-- A sector's PGLIM after a cold reset (01 R22). -/
def pglimReset : Nat := 950
/-- The sector of a core (01 R12). -/
def sectorOf (core : Nat) : Nat := core / 48 % 4

end Sys2Proof.Config
end

