-- ==== Sys2Proof/Machine/State.lean ====
section
/-! DEFINITION. The state the spec gives the machine (01-09, 21-24), as plain data, and the state after a cold reset.
Sparse data is a list of key and value pairs in one canonical form (keys strictly rising, no entry equal to the
default), written and read only through `Map` in Ops. -/

namespace Sys2Proof.Machine

/-- A sparse table: keys strictly rising, no entry equal to the table's default. -/
abbrev Map (α : Type) := List (Nat × α)

/-- The nine states of a warp slot (02 R37). -/
inductive WarpSt where
  | free | loading | ready | current | parked | draining | saving | halted | exiting
  deriving DecidableEq, Repr

/-- The three states of a thread (02 R24). -/
inductive LaneSt where
  | ready | parked | exited
  deriving DecidableEq, Repr

/-- What a warp runs: a grid's work-group, tasks (03 R60) or a trap handler (22 R394). -/
inductive WarpKind where
  | grid | task | handler
  deriving DecidableEq, Repr

/-- Four counters, one per sector (05 R93). -/
structure Vec4 where
  s0 : Nat := 0
  s1 : Nat := 0
  s2 : Nat := 0
  s3 : Nat := 0
  deriving DecidableEq, Repr

/-- What a thread waits for (02 R36): PARKKIND and PARKOP of R40, and what the word at its PC named. -/
structure Park where
  /-- 0 none, 1 WAITV, 2 JOIN, 3 CBWAIT, 4 BAR, 5 MWAIT (02 R40) -/
  kind : Nat := 0
  /-- PARKOP -/
  op : Word := 0
  /-- words in the group that parked the thread, and the waiting word with its index -/
  words : Nat := 0
  word : Nat := 0
  widx : Nat := 0
  /-- destination register, 0 for none -/
  dst : Nat := 0
  /-- BAR: the wait posts the phase's arrivals when it leaves (BAR.WAIT.eng) -/
  eng : Bool := false
  /-- WAITV and JOIN: the satisfying evaluation has been made -/
  ok : Bool := false
  deriving DecidableEq, Repr

/-- The kinds of entries of a thread's front (05 R93, R94). -/
inductive AccKind where
  /-- LDG -/
  | load
  /-- STG -/
  | store
  /-- a global atomic or RED -/
  | atomic
  /-- a parked WAITV -/
  | waitv
  /-- a parked JOIN -/
  | join
  /-- a FENCE; `ord` is its scope -/
  | fence
  /-- a VOPEN that waits on a sync point; `x1` is its world's number (15 R317) -/
  | vopen
  /-- a BEAMQ or RAYQ (`red`) whose records or counters wait on a page: `va` its thread's record, `x1` the address of the access
  that waits, `armed` once its counter cannot be reached (15 R320, R321) -/
  | query
  /-- what an acquire atomic leaves behind until the thread's sector reaches its stamp (05 R96) -/
  | hold
  deriving DecidableEq, Repr

/-- The operation of an atomic (12 R258-R262). -/
inductive AtomOp where
  | add | minS | maxS | and | or | xor | exch | inc | fadd | cas | nibLo | nibHi
  deriving DecidableEq, Repr

/-- One global access of a thread's program order that has not completed (05 R93, R94).  A load, store or atomic leaves
the list when it performs or drains. -/
structure Access where
  kind : AccKind
  /-- virtual address, and the physical address it was translated to at issue (0 when it was not) -/
  va : Word := 0
  pa : Nat := 0
  /-- bytes: 1, 2, 4 or 8 -/
  size : Nat := 0
  /-- order-scope code of R98 (a FENCE: its scope 1 to 5, or 6 for FENCE.eng) -/
  ord : Nat := 0
  /-- destination register; 0 for none -/
  dst : Nat := 0
  op : AtomOp := .add
  /-- the store's value, the atomic's operand, WAITV's comparand, FENCE.eng's scratchpad sequence number -/
  x1 : Word := 0
  /-- CAS's new value -/
  x2 : Word := 0
  /-- WAITV's condition code -/
  cond : Nat := 0
  /-- an atomic without a result register (RED) -/
  red : Bool := false
  /-- a relaxed request without a result that carries no .det (05 R97) -/
  mergeable : Bool := false
  /-- generation it was translated under (04 R85) -/
  gen : Nat := 0
  /-- which bundle of the warp issued it -/
  seq : Nat := 0
  /-- the acquire's stamp (kind hold), or the vector a fence waits for once `armed` (05 R96, R101) -/
  stamp : Vec4 := {}
  armed : Bool := false
  /-- sector and slot of the page request it waits on (23 R403); the ticket of its walk while that waits for a slot -/
  wait : Option (Nat × Nat) := none
  /-- the group's address and words, the word's index in it and the word, for a fault record -/
  pc : Nat := 0
  words : Nat := 1
  widx : Nat := 0
  word : Nat := 0
  /-- REPLEFT at its issue, and the count of its REP, 0 outside one (10 R221) -/
  rep : Nat := 0
  reps : Nat := 0
  /-- the threads its word acted for, the LANES of a fault record (22 R392) -/
  lanes : W32 := 0
  deriving DecidableEq, Repr

/-- A page request that an inline access or a fetch of a thread waits on (23 R403), and what to record if it fails: the cause,
0 for none. -/
structure LaneWait where
  sector : Nat
  slot : Nat
  va : Word
  word : Nat
  widx : Nat
  words : Nat
  lanes : W32
  cause : Nat := 0x06
  deriving DecidableEq, Repr

/-- A thread (02 R24, R29, 04 R69, 10 R222). -/
structure Lane where
  /-- general registers x1 to x1023, default 0; x0 is never stored -/
  regs : Map Word := []
  /-- p0 to p6 -/
  preds : BitVec 7 := 0
  pc : Nat := 0
  st : LaneSt := .exited
  skip : Nat := 0
  fid : Nat := 0
  parent : Nat := 0
  sib : W32 := 0
  seed : Word := 0
  /-- REPLEFT (10 R221) -/
  rep : Nat := 0
  park : Park := {}
  /-- thread front, oldest first (05 R93) -/
  front : List Access := []
  /-- join of the stamps of the thread's atomics, for FENCE condition 2 (05 R101) -/
  stamp : Vec4 := {}
  /-- GETS TRAPREC (10 R224) -/
  trapRec : Word := 0
  /-- QROW, QCHUNK, QARCH (07 R163); QROW all ones without a row -/
  qrow : Nat := 0xFFFFFFFF
  qchunk : Nat := 0
  qarch : Nat := 0
  /-- the page request an inline access or fetch of this thread waits on -/
  wait : Option LaneWait := none
  /-- a fault has stopped this thread until its group resumes (22 R389) -/
  stopped : Bool := false
  /-- this thread's later E words wait for a TIDSET, its FETCH words for a FLUSHL (14 R296, 12 R271) -/
  tidWait : Bool := false
  flushWait : Bool := false
  deriving DecidableEq, Repr

/-- A pending result (02 R34): registers (kind 0), predicates (1) or masks (2), the lanes, and the clk at which
the pipe delivers it (02 R35); 0 when the memory path decides. -/
structure Pending where
  kind : Nat
  num : Nat
  lanes : W32
  due : Nat
  deriving DecidableEq, Repr

/-- A warp slot (02 R24-R40). -/
structure Warp where
  st : WarpSt := .free
  kind : WarpKind := .grid
  /-- partition × 64 + context -/
  ctx : Nat := 0
  /-- launch tag (03 R59) -/
  launch : Nat := 0
  /-- key of its group on the core; a task warp's group holds it alone -/
  group : Nat := 0
  /-- warp index within the work-group -/
  windex : Nat := 0
  /-- unique among the core's warps, to name a thread as a writer of the scratchpad -/
  serial : Nat := 0
  lanes : Map Lane := []
  /-- m0 to m11 -/
  masks : Map W32 := []
  /-- stored order of the PC table (02 R25) -/
  order : List Nat := []
  /-- lanes a mask release made the next bundle (02 R30, R31) -/
  prefer : W32 := 0
  fidNext : Nat := 1
  /-- REGS (04 R69) -/
  regsN : Nat := 64
  padBase : Nat := 0
  padSize : Nat := 0
  age : Int := 0
  retired : Nat := 0
  skidLeft : Nat := 0
  skid : Nat := 0
  /-- a halt has been ordered and the skid runs (22 R389) -/
  halting : Bool := false
  board : List Pending := []
  /-- damaged state that its next reader faults on (22 R399): 0 a register, 1 a lane's predicates, 2 its line of code, 3 a
  mask, 4 a lane's PC-table entry, 5 its skip count; the lane; the register or the mask -/
  hurt : List (Nat × Nat × Nat) := []
  /-- it drains at a fully reconverged boundary and is saved compactly (02 R39) -/
  compact : Bool := false
  deriving DecidableEq, Repr

/-- A named barrier (12 R267). -/
structure Barrier where
  phase : Nat := 0
  count : Nat := 0
  expect : Nat := 0
  set : Bool := false
  eng : Bool := false
  /-- arriving threads of this phase with the scratchpad sequence number at their arrival -/
  arrivals : List (Nat × Nat) := []
  /-- arrivals of ended phases, by phase -/
  past : Map (List (Nat × Nat)) := []
  deriving DecidableEq, Repr

/-- An open fault record of a group (22 R392); the record's bytes lie in memory. -/
structure FaultRec where
  /-- address of the record, 0 when none was free -/
  addr : Nat := 0
  cause : Nat := 0
  /-- 0 open, 1 replay, 2 skip, 3 ended, 4 sent to host -/
  state : Nat := 0
  slot : Nat := 0
  lanes : W32 := 0
  pc : Nat := 0
  /-- words of the faulting group -/
  words : Nat := 1
  /-- the fault was found after issue by an access of word `widx`, or by an engine command -/
  byAccess : Bool := false
  byCommand : Bool := false
  widx : Nat := 0
  /-- WATCHDOG: .replay parks again, .skip passes the waiting word -/
  watchdog : Bool := false
  /-- REPLEFT at the fault, and the count of its REP, 0 outside one (10 R221) -/
  rep : Nat := 0
  reps : Nat := 0
  /-- a handler thread has been given the record (22 R394) -/
  given : Bool := false
  /-- the record's 512 bits, and whether they stand in memory yet (22 R392) -/
  image : Nat := 0
  written : Bool := true
  /-- the page request that a write of it waits on; with `held` 1 or 2, that its group's halt table or the trap table waits on -/
  wait : Option (Nat × Nat) := none
  held : Nat := 0
  /-- its number in the fault area, while it holds one -/
  num : Option Nat := none
  deriving DecidableEq, Repr

/-- A resident work-group, or a task or handler warp alone (03 R53, R60, 22 R389). -/
structure Group where
  ctx : Nat := 0
  launch : Nat := 0
  /-- linear work-group index; 0xFFFFFFFF for a task or handler warp (22 R392) -/
  index : Nat := 0xFFFFFFFF
  slots : List Nat := []
  threads : Nat := 0
  padBase : Nat := 0
  padSize : Nat := 0
  /-- barrier count (03 R49) -/
  nbars : Nat := 0
  bars : Map Barrier := []
  halted : Bool := false
  /-- halt table number + 1; 0 for none; and whether the table is to be written in memory -/
  haltTab : Nat := 0
  tabDue : Bool := false
  /-- the TRAPTAB that stood at a RETRAP whose handlers are to start (22 R396) -/
  tab : Option Nat := none
  recs : List FaultRec := []
  /-- clk since which a handler waits for a slot or registers (22 R394) -/
  waitSince : Option Nat := none
  /-- slots of the handler warps -/
  handlers : List Nat := []
  /-- since when every live thread has been parked, in the time that the watchdog counts for its context (22 R400) -/
  parkedSince : Option Nat := none
  /-- an architected word was zeroed and UNCORRECTABLE awaits the next bundle (22 R399) -/
  damaged : Bool := false
  /-- for a handler: the group it handles -/
  handles : Nat := 0
  deriving DecidableEq, Repr

/-- A task frame: its 512 bits and its launch tag (03 R58, R59). -/
structure Frame where
  bits : BitVec 512
  tag : Nat
  deriving DecidableEq, Repr

/-- An in-transit slot (03 R65, R68). -/
structure Transit where
  frame : Frame
  thief : Nat
  seq : Nat
  /-- an answer held for it while its core was saved: 0 none, 1 ACK, 2 NACK (03 R67) -/
  answer : Nat := 0
  deriving DecidableEq, Repr

/-- The stock of one launch on one core (03 R62, R68). -/
structure Stock where
  head : Nat := 0
  tail : Nat := 0
  /-- no refill until the next spill: a read was answered FAIL (03 R63) -/
  blocked : Bool := false
  deriving DecidableEq, Repr

/-- A message between cores about a steal (03 R65). -/
structure StealMsg where
  /-- 0 request, 1 frame, 2 empty, 3 ACK, 4 NACK -/
  kind : Nat
  src : Nat
  dst : Nat
  seq : Nat
  /-- the context whose work is stolen -/
  ctx : Nat := 0
  frame : Option Frame := none
  deriving DecidableEq, Repr

/-- The bundle an engine command came from: its threads, its word and its scratchpad window (14 R291, R294). -/
structure Origin where
  ctx : Nat := 0
  launch : Nat := 0
  group : Nat := 0
  slot : Nat := 0
  serial : Nat := 0
  lanes : W32 := 0
  /-- address of the command word, the word, its group's words -/
  pc : Nat := 0
  word : Nat := 0
  words : Nat := 1
  /-- window -/
  base : Nat := 0
  size : Nat := 0
  deriving DecidableEq, Repr

/-- A matrix command (09 R195, 14 R292-R295). -/
structure MCmd where
  /-- 0 WLOAD, 1 WLOADSP, 2 WSWAP, 3 MSTREAM, 4 MDRAIN, 5 EPISET -/
  kind : Nat
  cmd : Word := 0
  x1 : Word := 0
  x2 : Word := 0
  /-- 0 unstarted, 1 running, 2 held by a fault -/
  phase : Nat := 0
  /-- power leave: 0 not asked, 1 waiting, 2 held -/
  leave : Nat := 0
  /-- its charge in watts once asked -/
  watts : Nat := 0
  /-- a wide load, once it has started -/
  wide : Bool := false
  src : Origin := {}
  /-- numerical mode at its start (06 R133) -/
  mode : Nat := 0
  /-- bytes read or written, and flags raised, once it runs -/
  bytes : Nat := 0
  flags : Nat := 0
  evTaken : Bool := false
  /-- sampled MSTREAM (06 R134): the record's MAXABS, MAXULP, COL, ROW, when it is to be written -/
  sample : Option (Nat × Nat × Nat × Nat) := none
  /-- COUNT of the telemetry record, and its WTID -/
  count : Nat := 0
  wtid : Nat := 0
  deriving DecidableEq, Repr

/-- One weight plane (09 R191). -/
structure Plane where
  words : Map (BitVec 16) := []
  /-- loaded format code, 0 when it holds none (06 R127) -/
  format : Nat := 0
  sparse : Bool := false
  rows : Nat := 0
  tid : Nat := 0
  /-- BF16 band scale of each column, default 1.0 -/
  bands : Map (BitVec 16) := []
  deriving DecidableEq, Repr

/-- One accumulator tile (06 R127, R131). -/
structure Tile where
  words : Map W32 := []
  /-- kind bit: true for INT32 -/
  int : Bool := false
  rowBand : Map (BitVec 16) := []
  colBand : Map (BitVec 16) := []
  /-- matrix commands and chains that write it and have not completed (09 R196) -/
  count : Nat := 0
  deriving DecidableEq, Repr

/-- The matrix engine of a core. -/
structure Matrix where
  wide : Bool := false
  active : Nat := 0
  planes : Map Plane := []
  side : Map (BitVec 16) := []
  tiles : Map Tile := []
  /-- four epilogue sets of 576 bytes: word k × 144 + i is the i-th 32-bit word of set k (09 R198) -/
  epi : Map W32 := []
  /-- commands in arrival order -/
  cmds : List MCmd := []
  deriving DecidableEq, Repr

/-- A listed chain head with the bundle that kicked it (09 R199). -/
structure Head where
  off : Nat
  tiles : Nat
  src : Origin
  deriving DecidableEq, Repr

/-- One copy queue (09 R199, R205, R212). -/
structure CopyQ where
  heads : List Head := []
  cur : Option Head := none
  off : Nat := 0
  err : Bool := false
  waitEv : Bool := false
  waitPwr : Bool := false
  waitCond : Bool := false
  prog0 : Nat := 0
  prog1 : Nat := 0
  /-- the entry has started: its image, ranges and event are taken -/
  started : Bool := false
  entry : BitVec 256 := 0
  /-- the entry's accesses are done and its completion is due -/
  landed : Bool := false
  /-- where the queue goes on once the entry completes -/
  next : Nat := 0
  /-- destination bytes still to count down, flags raised -/
  bytes : Nat := 0
  flags : Nat := 0
  evTaken : Bool := false
  /-- power leave: 0 not asked, 1 waiting, 2 held -/
  leave : Nat := 0
  /-- the access failed: answered FAIL or refused -/
  failed : Bool := false
  /-- chains ever listed and ever ended -/
  kicks : Nat := 0
  ends : Nat := 0
  /-- QFENCE: the number of ends each named queue must reach -/
  fence : Map Nat := []
  /-- clk of the last COND read -/
  polled : Nat := 0
  /-- as the entry started: its index list, its mask, the number that names the order of its units (05 R106), and the
  numerical mode (06 R133) -/
  idx : List Nat := []
  mask : Nat := 0
  seed : Nat := 0
  mode : Nat := 0
  deriving DecidableEq, Repr

/-- A ray's best hit: t, PRIM, u, bv and BACK (08 R185). -/
structure Hit where
  t : Nat
  prim : Nat
  u : Nat
  bv : Nat
  back : Bool
  deriving DecidableEq, Repr

/-- A query accepted by the beam engine (15 R319, R320) and, once it runs, its working state (08 R178). -/
structure Query where
  ray : Bool
  /-- address of the record, and the record as copied -/
  addr : Nat
  image : Nat
  ctx : Nat := 0
  launch : Nat := 0
  /-- reason of a malformed record, 0 for none (08 R190) -/
  bad : Nat := 0
  started : Bool := false
  /-- working stack, bottom first, as the entries of R180 -/
  stack : List Nat := []
  /-- best hits by ray number within the window -/
  best : List (Nat × Hit) := []
  /-- SCENEERR is due to the window's traced rays -/
  err : Bool := false
  /-- address of the access that waits on a page request; addresses whose request was answered FAIL -/
  stuck : Nat := 0
  failed : List Nat := []
  wait : Option (Nat × Nat) := none
  /-- its core drains, and it runs to completion (08 R189) -/
  toEnd : Bool := false
  deriving DecidableEq, Repr

/-- A line of the fetch unit's cache (04 R90), or a word of the instruction cache (R86). -/
structure CacheLine where
  ctx : Nat
  gen : Nat
  va : Nat
  bytes : List Byte
  deriving DecidableEq, Repr

/-- A TLB entry (04 R83). -/
structure TlbEntry where
  ctx : Nat
  gen : Nat
  /-- log2 of the page size: 16, 21 or 30 -/
  log : Nat
  /-- virtual and physical page number -/
  vpn : Nat
  ppn : Nat
  /-- intermediate page number, the ADDR of a HOLD request (04 R82, R84) -/
  ipn : Nat
  /-- WRITE at both stages, EXEC at stage 1, DIRTY and HOLD of the stage-2 leaf -/
  write : Bool
  exec : Bool
  dirty : Bool
  hold : Bool
  deriving DecidableEq, Repr

/-- A byte of the scratchpad that an engine may still see as it stood earlier: the writes from the posting floor on,
oldest first, as (writer, sequence number, value) (05 R103). -/
abbrev PadHist := List (Nat × Nat × Byte)

/-- A core. -/
structure Core where
  warps : Map Warp := []
  /-- per scheduler: current warp slot + 1, or slot + 65 of a warp that has yielded; the current warp's run of bundles
  (02 R33, 11 R247) -/
  cur : Map Nat := []
  run : Map Nat := []
  /-- clk from which a scheduler's X pipe takes a word again (13 R285) -/
  xfree : Map Nat := []
  /-- the scheduler, plus 1, that has the core's E pipe in the clk that was last served; 0 while none has (02 R32) -/
  ePipe : Nat := 0
  pad : List Host.Cell := []
  hist : Map PadHist := []
  /-- sequence number of each byte's posting floor (05 R103) -/
  floors : Map Nat := []
  /-- damaged 8-byte granules of the scratchpad (23 R409) -/
  padBad : List Nat := []
  padSeq : Nat := 0
  serial : Nat := 0
  /-- range scoreboard: start, end, copy queue (04 R74) -/
  ranges : List (Nat × Nat × Nat) := []
  groups : Map Group := []
  deck : List Frame := []
  transit : Map (Option Transit) := []
  stocks : Map Stock := []
  /-- the key of the stock from which a refill that waits on a page request draws (03 R63) -/
  refill : Option Nat := none
  stealSeq : Nat := 0
  /-- outstanding request: victim and sequence number -/
  stealOut : Option (Nat × Nat) := none
  /-- how many victims of this round have been asked -/
  stealPos : Nat := 0
  stealUntil : Nat := 0
  matrix : Matrix := {}
  queues : Map CopyQ := []
  /-- event lines: count, and the overflow bits (09 R208) -/
  events : Map Nat := []
  overflow : W32 := 0
  beams : List Query := []
  /-- arena records whose STATE this core's engine has set: context, record, launch tag (08 R181) -/
  arena : List (Nat × Nat × Nat) := []
  cache : List CacheLine := []
  /-- instruction cache: the words it may still hold, one line to a word (04 R86, log 46) -/
  icache : List CacheLine := []
  tlb : List TlbEntry := []
  /-- TIDSET in progress: context, entry, image, issuing slot and lane (14 R296) -/
  tidset : List (Nat × Nat × List Byte × Nat × Nat) := []
  /-- FLUSHL in progress: address, length, slot, lane (12 R271) -/
  flush : List (Nat × Nat × Nat × Nat) := []
  /-- page requests that units of the core wait on: the unit (0 to 7 a copy queue, 8 the matrix engine, 9 TIDSET,
  10 the arena records that a grid's end frees, 11 stocks, 12 steals, 13 a telemetry record, 14 the images of a save), the sector and the slot; and units whose request was answered FAIL -/
  unitWait : List (Nat × Nat × Nat) := []
  unitFail : List Nat := []
  /-- MSTREAM counts per context (06 R134) -/
  samples : Map Nat := []
  /-- out of service (22 R388) -/
  off : Bool := false
  /-- the context whose work the core runs or may run, + 1; 0 for none (21 R371, R373) -/
  holder : Nat := 0
  /-- it leaves its holder: 0 no, 1 by instruction-boundary save, 2 by reconvergence-point pre-emption, which ends at a clk
  (02 R38, R39, 21 R373) -/
  leaving : Nat := 0
  leaveBy : Nat := 0
  /-- bytes of warp records in its save image: those written since the core began to leave, or, in `savedCores`, all of them
  (02 R40) -/
  savePos : Nat := 0
  deriving DecidableEq, Repr

/-- A write in flight between sectors (05 R95). -/
structure CausalWrite where
  pa : Nat
  bytes : List Byte
  stamp : Vec4
  deriving DecidableEq, Repr

/-- An atomic as its location's atomic order holds it (05 R93): who sent it, what it read, what it wrote, its write's
stamp. -/
structure AtomDone where
  core : Nat
  ctx : Nat
  size : Nat
  old : Nat
  new : Option Nat
  stamp : Vec4
  deriving DecidableEq, Repr

/-- A request for power leave (01 R21). -/
structure LeaveReq where
  core : Nat
  /-- 0 to 7 a copy queue, 8 the matrix engine -/
  unit_ : Nat
  watts : Nat
  since : Nat
  /-- the context of its command -/
  ctx : Nat := 0
  /-- made again at a switch-in, and the number by which requests of one clk and core are ordered (01 R21) -/
  again : Bool := false
  rank : Nat := 0
  deriving DecidableEq, Repr

/-- A page request (04 R84). -/
structure Waiter where
  ctx : Nat
  /-- KIND of R84 -/
  req : Nat
  stage : Nat
  core : Nat
  addr : Nat
  gen : Nat
  /-- a table entry that the walk could not read, logged when the request is made: core, cause, ADDR and DETAIL
  (23 R409, R410) -/
  log : Option (Nat × Nat × Nat × Nat) := none
  /-- while it waits for a free slot: the number its accesses wait under, 4096 or more (23 R405) -/
  ticket : Nat := 0
  deriving DecidableEq, Repr

/-- A sector (05 R93, 04, 22, 23). -/
structure Sector where
  mem : List Host.Cell := []
  /-- key of each byte: counter sum × 4 + sector; default 0 -/
  keys : Map Nat := []
  a : Vec4 := {}
  tlb : List TlbEntry := []
  /-- posted page-request slots in ascending number, with their request (23 R404, R405) -/
  posted : List (Nat × Waiter) := []
  /-- walks that wait for a free slot, in the order in which they began, and the ticket of the next -/
  waiting : List Waiter := []
  tickets : Nat := 4096
  requests : List LeaveReq := []
  held : List LeaveReq := []
  /-- damaged 32-byte granules and scrub-pending 64 KiB pages of this sector's home slices -/
  damaged : List Nat := []
  /-- damaged 8-byte granules of its chip SRAM (23 R409) -/
  sramBad : List Nat := []
  scrub : List Nat := []
  /-- corrections of rows: row and clk -/
  rowHits : List (Nat × Nat) := []
  /-- RWINBASE and RWINCTL, window w at 2w and 2w + 1 -/
  rwin : Map Word := []
  deriving DecidableEq, Repr

/-- Registers of the package management page that hold the power limits (01 R22). -/
structure Power where
  lim0 : Nat := 950
  lim1 : Nat := 950
  lim2 : Nat := 950
  lim3 : Nat := 950
  clamped : BitVec 4 := 0
  throttled : BitVec 4 := 0
  deriving DecidableEq, Repr

/-- The other management registers (21 R378-R380). -/
structure Mgmt where
  ptpEn : Bool := false
  winErr : Bool := false
  ptpDomain : BitVec 8 := 0
  logSync : BitVec 8 := 0xFD
  ptpPort : BitVec 8 := 0
  winLen : BitVec 6 := 4
  locked : Bool := false
  offset : BitVec 32 := 0
  everLocked : Bool := false
  /-- IEEE 1588: the next sequenceId; the last Sync's sequenceId and corrected receipt, and how long after the master's time of it, in
  nanoseconds; the last Delay_Req's sequenceId and departure (21 R378, log 16) -/
  ptpSeq : Nat := 0
  ptpSync : Option (Nat × Int) := none
  ptpPath : Option Int := none
  ptpReq : Option (Nat × Nat) := none
  bootCtl : Word := 0
  booting : Bool := false
  ready : Bool := false
  fail : Bool := false
  version : BitVec 32 := 0
  measurement : List Byte := []
  nonce : Map Word := []
  attBusy : Bool := false
  attDone : Bool := false
  report : List Byte := []
  reports : Nat := 0
  deriving DecidableEq, Repr

/-- HBMRTCTL and HBMRTSTAT of a stack (04 R91). -/
structure Stack where
  en : Bool := true
  interval : Nat := 100
  deferred : Bool := false
  lastCh : BitVec 8 := 0
  count : BitVec 16 := 0
  nextCh : Nat := 0
  /-- clk of the last retraining, and of the slot that is deferred now -/
  last : Nat := 0
  since : Option Nat := none
  deriving DecidableEq, Repr

/-- A partition slot (21 R366-R368). -/
structure Part where
  en : Bool := false
  busy : Bool := false
  err : Bool := false
  sectors : BitVec 4 := 0
  prec : BitVec 40 := 0
  s2root : Nat := 0
  ctxtab : Nat := 0
  /-- SECTORS that a resize in progress goes to -/
  target : BitVec 4 := 0
  /-- the context that last left each cluster, + 1 (21 R371) -/
  lastOut : Map Nat := []
  deriving DecidableEq, Repr

/-- One display head (21 R376, R377). -/
structure DHead where
  cfg : Word := 0
  err : Bool := false
  surf : Word := 0
  /-- surface waiting, with its present time; surface being encoded -/
  waiting : Option (Nat × Nat) := none
  encoding : Option (Nat × Nat) := none
  out : Word := 0
  frames : Nat := 0
  drops : Nat := 0
  /-- bytes written to the output ring -/
  pos : Nat := 0
  deriving DecidableEq, Repr

/-- One launch-queue entry that has started and not left the queue (03 R56). -/
structure QEntry where
  off : Nat
  fin : Nat
  /-- KIND of R47; 4 the sync point of a SYNCAFTER -/
  kind : Nat
  launch : Nat := 0
  world : Nat := 0
  nocompact : Bool := false
  ended : Bool := false
  /-- a sync point under way: units done + 1 (0 before its start), Vmin, and archetypes changed (07 R156) -/
  pos : Nat := 0
  vmin : Nat := 0
  changed : List Nat := []
  deriving DecidableEq, Repr

/-- A launch queue and its register page (03 R44-R49, 21 R375, 23 R412). -/
structure LQueue where
  base : Word := 0
  reserve : Word := 0
  tail : Nat := 0
  prog : Nat := 0
  en : Bool := false
  err : Bool := false
  erroff : Nat := 0
  /-- publications on their way: start offset, publishing launch tag -/
  arriving : List (Nat × Nat) := []
  /-- published packets at or above the tail's scan point: start, end, LEN, parent launch tag + 1 (0 host) -/
  pubs : List (Nat × Nat × Nat × Nat) := []
  /-- the offset of the next entry to start -/
  next : Nat := 0
  entries : List QEntry := []
  /-- fields 0 to 16 of the last well-formed LAUNCH (03 R49) -/
  inherited : List Word := []
  /-- page request that the reads of an entry or a sync point wait on; one was answered FAIL -/
  wait : Option (Nat × Nat) := none
  failed : Bool := false
  /-- the same for the header of the publication that arrives -/
  pubWait : Option (Nat × Nat) := none
  pubFailed : Bool := false
  /-- bytes of the malformed entry that ERR stands at; 0 when it has started -/
  errlen : Nat := 0
  /-- shadow while switched out: tail and LQCTL writes (23 R412) -/
  shadowTail : Option Nat := none
  shadowCtl : List Word := []
  deriving DecidableEq, Repr

/-- A launch that has started (03 R49-R57, 07 R153-R163). -/
structure Launch where
  ctx : Nat := 0
  q : Nat := 0
  off : Nat := 0
  fields : List Word := []
  /-- launch tag of the publishing thread's grid + 1 (03 R57) -/
  parent : Nat := 0
  /-- work-groups placed, ended, in all -/
  placed : Nat := 0
  ended : Nat := 0
  total : Nat := 0
  done : Bool := false
  /-- its first work-group is placed, and a view is bound (07 R160) -/
  bound : Bool := false
  system : Bool := false
  world : Nat := 0
  view : Nat := 0
  /-- the physical address of the view table of the world bound, by which listings of one world are one (07 R138, log 52) -/
  viewsPa : Nat := 0
  sysseq : Nat := 0
  rset : Nat := 0
  wset : Nat := 0
  /-- the sync point of its batch has started (07 R153) -/
  batched : Bool := false
  /-- the query descriptor and the words of the binding table, as read when the entry started (07 R162, R164) -/
  query : Nat := 0
  binds : List Nat := []
  /-- matching rows: archetype, chunk, row -/
  rows : List (Nat × Nat × Nat) := []
  /-- extents of the levels as bound -/
  extents : List Nat := []
  /-- page request that its binding or placement waits on; one was answered FAIL -/
  wait : Option (Nat × Nat) := none
  failed : Bool := false
  /-- what its queue's packets inherited before it (03 R49) -/
  before : List Word := []
  deriving DecidableEq, Repr

/-- A saved warp, awaiting restore (02 R40): `core` is the key of its core's state in `savedCores`, `pos` where its record
lies in that core's save image. -/
structure Saved where
  warp : Warp
  core : Nat
  slot : Nat
  group : Group
  compact : Bool
  pos : Nat := 0
  deriving DecidableEq, Repr

/-- A checkpoint in progress (21 R382). -/
structure Ckpt where
  en : Bool := false
  busy : Bool := false
  steps : BitVec 24 := 0
  period : BitVec 32 := 0
  /-- sync points since the last trigger -/
  count : Nat := 0
  /-- 0 the context is being saved, 1 it is saved and peers' hashes are awaited, 2 the chunks are sent -/
  phase : Nat := 0
  /-- the hashes of its own chunks, as sent to every rank of a group, and the group (21 R382) -/
  own : List Nat := []
  group : Nat := 0
  /-- the distinct hashes agreed at the last exchange, in order (21 R382, R383) -/
  hashes : List Nat := []
  /-- clk at which the context was saved, and of the last trigger -/
  since : Nat := 0
  last : Nat := 0
  /-- bit 63 of the manifest's count word: the peers were silent (21 R383) -/
  alone : Bool := false
  deriving DecidableEq, Repr

/-- A context (21 R359, R370-R372, 06 R124, R133-R135, 04 R86). -/
structure Ctx where
  gen : Nat := 1
  busy : Bool := false
  retired : Bool := false
  fpflags : BitVec 6 := 0
  mode : Nat := 1
  sampleLog : Nat := 10
  numRing : Word := 0
  numTail : BitVec 32 := 0
  numHead : BitVec 32 := 0
  numDrop : BitVec 32 := 0
  /-- switched in -/
  in_ : Bool := false
  /-- out of rotation since a SAVE or a checkpoint -/
  stopped : Bool := false
  /-- SAVE was ordered by the host and runs (23 R415) -/
  deadline : Bool := false
  /-- a save is under way: 0 none, 1 instruction boundary, 2 reconvergence point -/
  saving : Nat := 0
  saveSince : Nat := 0
  badrec : Bool := false
  /-- the record as last read, 128 bytes as a number -/
  record : Nat := 0
  heads : Map DHead := []
  ckpt : Ckpt := {}
  queues : Map LQueue := []
  launches : Map Launch := []
  /-- ECOUNT of each GTID, at launch × 2^40 + GTID (07 R151) -/
  ecount : Map Nat := []
  saved : List Saved := []
  /-- the task and engine state of the cores it left, as saved: key core + 256 × n, n the least that is free -/
  savedCores : Map Core := []
  /-- the keys of those whose save images have not been overwritten by a later save of their core -/
  images : List Nat := []
  /-- the time that the watchdog counts: clk switched in with no work-group waiting for a core (22 R400, 24 R431), up to the clk
  since which it runs on -/
  timed : Nat := 0
  timedFrom : Option Nat := none
  /-- pages still scrub-pending from its reset -/
  scrubbing : List Nat := []
  sliceStart : Nat := 0
  /-- records of the fault areas in use, as core × 4,096 + number, and the next of each core in ring order (22 R392) -/
  recNext : Map Nat := []
  recUsed : List Nat := []
  /-- the page request that a read of the context record or of a checkpoint's memory waits on; one was answered FAIL -/
  wait : Option (Nat × Nat) := none
  failed : Bool := false
  deriving DecidableEq, Repr

/-- A FloxLink port (21 R361, R362). -/
structure Port where
  bseq : BitVec 8 := 0
  /-- last block received in order -/
  rx : BitVec 8 := 255
  bnak : Bool := false
  up : Bool := true
  /-- blocks kept, newest first: sequence number and the packets carried, as in `outbox` -/
  kept : List (BitVec 8 × List (Nat × Nat × Nat × Nat)) := []
  /-- blocks sent since BACK last advanced, and the last BACK -/
  unacked : Nat := 0
  back : BitVec 8 := 255
  resend : List (BitVec 8) := []
  credit0 : Nat := 512
  credit1 : Nat := 512
  credit2 : Nat := 512
  /-- packets to send: VC, flits, identity of a remote write (else 0), and the flits as a number -/
  outbox : List (Nat × Nat × Nat × Nat) := []
  deriving DecidableEq, Repr

/-- A remote write or reduce, sent or received (05 R107). -/
structure Remote where
  core : Nat
  q : Nat
  pkg : Nat
  ctx : Nat
  va : Nat
  bytes : List Byte
  window : Nat
  /-- ROP + 1, 0 for a write -/
  rop : Nat
  det : Bool
  /-- receiving sector or port, identity for acknowledgement -/
  sector : Nat := 0
  src : Nat := 0
  ident : Nat := 0
  /-- received: the page request that its application waits on, and whether it was answered FAIL -/
  wait : Option (Nat × Nat) := none
  failed : Bool := false
  deriving DecidableEq, Repr

/-- The bundle now issuing: what `exec` of an instruction word acts on.  The model's own field (log 5). -/
structure Issue where
  core : Nat := 0
  slot : Nat := 0
  lanes : W32 := 0
  /-- address of the group, its words, the index of the word now acting -/
  gpc : Nat := 0
  words : List Nat := []
  widx : Nat := 0
  /-- IMM25 of a preceding EXT (10 R219) -/
  ext : Option (BitVec 25) := none
  /-- what a REP adds to the D, A and B register numbers at this repeat (10 R221) -/
  stepD : Nat := 0
  stepA : Nat := 0
  stepB : Nat := 0
  /-- the warp before the group, from which a chain's words read (10 R217) -/
  pre : Option Warp := none
  /-- lanes whose PC the group has already settled: transfers, parks, exits -/
  moved : W32 := 0
  /-- an issue-time fault has been raised: the group ends unwritten -/
  fault : Bool := false
  /-- the group must wait: nothing of it stands -/
  stall : Bool := false
  yielded : Bool := false
  deriving DecidableEq, Repr

/-- What comes next: a step without an encoding, or an issue slot of a scheduler.  The model's own (log 5). -/
inductive Plan where
  | event (i : Instr)
  | slot (core sched : Nat)
  /-- a device-register write of device code, on its way -/
  | register (addr : Nat) (v : Word)
  deriving DecidableEq, Repr

/-- The machine. -/
structure State where
  /-- ON (01 R23) -/
  on : Bool := true
  /-- clk since cold reset (10 R224) -/
  clk : Nat := 0
  /-- FABTIME is fabBase nanoseconds plus the time since fabClk, at fabNum nanoseconds to fabDen clk (21 R378) -/
  fabBase : Nat := 0
  fabClk : Nat := 0
  fabNum : Nat := 5
  fabDen : Nat := 7
  cores : Map Core := []
  sectors : Map Sector := []
  /-- causal queues, at 4 × source + destination, oldest first (05 R93) -/
  causal : Map (List CausalWrite) := []
  /-- atomic order of each location, oldest first (05 R93) -/
  atomics : Map (List AtomDone) := []
  power : Power := {}
  mgmt : Mgmt := {}
  hbm : Map Stack := []
  parts : Map Part := []
  /-- contexts, at 64 × partition + context -/
  ctxs : Map Ctx := []
  ports : Map Port := []
  /-- steal messages in flight, oldest first -/
  steals : List StealMsg := []
  /-- remote writes sent and not known applied; received and not applied (05 R93) -/
  sent : List Remote := []
  received : List Remote := []
  remoteIdent : Nat := 0
  issue : Issue := {}
  agenda : List Plan := []
  /-- the core served next -/
  focus : Nat := 0
  /-- counter of free values (log 4) -/
  choice : Nat := 0
  deriving DecidableEq, Repr

/-- Why the machine stops with a fault. -/
inductive Fault where
  /-- the package is OFF and nothing waits on the agenda; raised by `step` (01 R23: OFF keeps no contents and nothing
  runs).  Safe: the machine stops where the hardware does nothing. -/
  | off
  deriving DecidableEq, Repr

/-- Why an instruction has no meaning. -/
inductive Refusal where
  /-- raised by a dispatch arm whose instruction is not modelled yet.  Safe. -/
  | notModelled (mnemonic : String)
  deriving DecidableEq, Repr

/-- The package right after the transition from OFF to ON: a cold reset (01 R23). -/
def State.reset : State := {}

end Sys2Proof.Machine
end

