-- ==== Sys2Proof/Machine/Ops.lean ====
section
/-! DEFINITION. The named operations over tables, registers and memory, translation, the error log and taking a fault
(04, 05 R93-R96, 22 R384-R396, 23 R403-R411). -/

namespace Sys2Proof.Machine

/-! ### Sparse tables -/

/-- The entry of `i`, or the default. -/
def mget {α : Type} (d : α) : Map α → Nat → α
  | [], _ => d
  | (k, v) :: t, i => if k = i then v else mget d t i

/-- The table with an entry put in its place among rising keys. -/
def minsert {α : Type} : Map α → Nat → α → Map α
  | [], i, v => [(i, v)]
  | (k, w) :: t, i, v =>
    if i < k then (i, v) :: (k, w) :: t else if i = k then (i, v) :: t else (k, w) :: minsert t i v

/-- The table with the entry of `i` set; an entry equal to the default is not listed. -/
def mput {α : Type} [DecidableEq α] (d : α) (m : Map α) (i : Nat) (v : α) : Map α :=
  if v = d then m.filter (fun e => e.1 != i) else minsert m i v

/-- Canonical form: keys strictly rising from above `lo`, no entry equal to the default. -/
def mwfFrom {α : Type} [DecidableEq α] (d : α) : Nat → Map α → Bool
  | _, [] => true
  | lo, (k, v) :: t => decide (lo ≤ k) && decide (v ≠ d) && mwfFrom d (k + 1) t

/-- Canonical form of a table. -/
def mwf {α : Type} [DecidableEq α] (d : α) (m : Map α) : Bool := mwfFrom d 0 m

/-- The table of the numbers below `n` under a function. -/
def mbuild {α : Type} [DecidableEq α] (d : α) (n : Nat) (f : Nat → α) : Map α :=
  (List.range n).filterMap fun i => if f i = d then none else some (i, f i)

/-- The table with the entries from `lo` to `hi - 1` replaced by those of another. -/
def msplice {α : Type} (m : Map α) (lo hi : Nat) (new : Map α) : Map α :=
  m.filter (·.1 < lo) ++ new.filter (fun e => decide (lo ≤ e.1) && decide (e.1 < hi)) ++ m.filter (hi ≤ ·.1)

/-- A memory's canonical form: addresses strictly rising, no byte equal to what an unlisted address reads as (0, log 2). -/
def Memory.wf (m : List Host.Cell) : Bool := mwf (0 : Byte) m

/-- The bytes of a range, lowest address first. -/
def memGets (m : List Host.Cell) (a : Nat) : Nat → List Byte
  | 0 => []
  | n + 1 => mget (0 : Byte) m a :: memGets m (a + 1) n

/-- Store bytes at rising addresses. -/
def memPuts (m : List Host.Cell) (a : Nat) : List Byte → List Host.Cell
  | [] => m
  | b :: t => memPuts (mput (0 : Byte) m a b) (a + 1) t

/-! ### Numbers -/

/-- The `n` low bytes of a number, little-endian (00 R4). -/
def leBytes : Nat → Nat → List Byte
  | 0, _ => []
  | n + 1, v => BitVec.ofNat 8 v :: leBytes n (v / 256)

/-- The number that little-endian bytes hold. -/
def ofBytes : List Byte → Nat
  | [] => 0
  | b :: t => b.toNat + 256 * ofBytes t

/-- The signed reading of the low `w` bits of a number (00 R9 SignExt). -/
def signed (w v : Nat) : Int :=
  let u := v % 2 ^ w
  if 2 ^ (w - 1) ≤ u then (u : Int) - 2 ^ w else u

/-- Trunc(v, n) of an integer (00 R9). -/
def truncI (v : Int) (n : Nat) : Nat := (v % (2 ^ n : Nat)).toNat

/-- A number with the bits from `hi` to `lo` replaced. -/
def putBits (v hi lo x : Nat) : Nat := v - fld v hi lo * 2 ^ lo + x % 2 ^ (hi + 1 - lo) * 2 ^ lo

/-- The lanes of a mask, ascending. -/
def lanesOf (m : W32) : List Nat := (List.range 32).filter fun i => m.getLsbD i

/-- The mask of some lanes. -/
def maskOf (ls : List Nat) : W32 := ls.foldl (fun m i => m ||| (1#32 <<< i)) 0

/-- Set or clear one lane's bit. -/
def maskSet (m : W32) (i : Nat) (b : Bool) : W32 := if b then m ||| (1#32 <<< i) else m &&& ~~~(1#32 <<< i)

/-- Counter `i` of a vector. -/
def Vec4.at (v : Vec4) : Nat → Nat
  | 0 => v.s0 | 1 => v.s1 | 2 => v.s2 | _ => v.s3
/-- Counter `i` replaced. -/
def Vec4.put (v : Vec4) (i n : Nat) : Vec4 :=
  match i with
  | 0 => { v with s0 := n } | 1 => { v with s1 := n } | 2 => { v with s2 := n } | _ => { v with s3 := n }
/-- v ≤ w in every counter. -/
def Vec4.le (v w : Vec4) : Bool := v.s0 ≤ w.s0 && v.s1 ≤ w.s1 && v.s2 ≤ w.s2 && v.s3 ≤ w.s3
/-- The greater of each counter. -/
def Vec4.join (v w : Vec4) : Vec4 := ⟨max v.s0 w.s0, max v.s1 w.s1, max v.s2 w.s2, max v.s3 w.s3⟩
/-- The counters' sum: the first part of a key (05 R95). -/
def Vec4.sum (v : Vec4) : Nat := v.s0 + v.s1 + v.s2 + v.s3

/-! ### Cores, warps, lanes, registers -/

/-- Does a core leave its holder: no refill, steal or dispatch? -/
def Core.draining (k : Core) : Bool := k.leaving != 0
def coreOf (s : State) (c : Nat) : Core := mget {} s.cores c
def setCore (s : State) (c : Nat) (x : Core) : State := { s with cores := mput {} s.cores c x }
def modCore (s : State) (c : Nat) (f : Core → Core) : State := setCore s c (f (coreOf s c))
def warpOf (s : State) (c w : Nat) : Warp := mget {} (coreOf s c).warps w
def setWarp (s : State) (c w : Nat) (x : Warp) : State :=
  modCore s c fun k => { k with warps := mput {} k.warps w x }
def modWarp (s : State) (c w : Nat) (f : Warp → Warp) : State := setWarp s c w (f (warpOf s c w))
def laneOf (w : Warp) (l : Nat) : Lane := mget {} w.lanes l
def setLane (w : Warp) (l : Nat) (x : Lane) : Warp := { w with lanes := mput {} w.lanes l x }
def modLane (w : Warp) (l : Nat) (f : Lane → Lane) : Warp := setLane w l (f (laneOf w l))
def groupOf (s : State) (c g : Nat) : Group := mget {} (coreOf s c).groups g
def modGroup (s : State) (c g : Nat) (f : Group → Group) : State :=
  modCore s c fun k => { k with groups := mput {} k.groups g (f (mget {} k.groups g)) }
def sectorOf (s : State) (x : Nat) : Sector := mget {} s.sectors x
def modSector (s : State) (x : Nat) (f : Sector → Sector) : State :=
  { s with sectors := mput {} s.sectors x (f (sectorOf s x)) }
def ctxOf (s : State) (x : Nat) : Ctx := mget {} s.ctxs x
def modCtx (s : State) (x : Nat) (f : Ctx → Ctx) : State :=
  { s with ctxs := mput {} s.ctxs x (f (ctxOf s x)) }
def partAt (s : State) (p : Nat) : Part := mget {} s.parts p
def modPart (s : State) (p : Nat) (f : Part → Part) : State :=
  { s with parts := mput {} s.parts p (f (partAt s p)) }
def queueOf (s : State) (c q : Nat) : LQueue := mget {} (ctxOf s c).queues q
def modQueue (s : State) (c q : Nat) (f : LQueue → LQueue) : State :=
  modCtx s c fun x => { x with queues := mput {} x.queues q (f (mget {} x.queues q)) }
def launchOf (s : State) (c t : Nat) : Launch := mget {} (ctxOf s c).launches t
def modLaunch (s : State) (c t : Nat) (f : Launch → Launch) : State :=
  modCtx s c fun x => { x with launches := mput {} x.launches t (f (mget {} x.launches t)) }
def copyQOf (s : State) (c q : Nat) : CopyQ := mget {} (coreOf s c).queues q
def modCopyQ (s : State) (c q : Nat) (f : CopyQ → CopyQ) : State :=
  modCore s c fun k => { k with queues := mput {} k.queues q (f (mget {} k.queues q)) }

/-- X(t,n): x0 reads zero (00 R9). -/
def getX (l : Lane) (n : Nat) : Word := if n = 0 then 0 else mget 0 l.regs n
/-- A write of X(t,n): discarded for x0. -/
def setX (l : Lane) (n : Nat) (v : Word) : Lane := if n = 0 then l else { l with regs := mput 0 l.regs n v }
/-- P(t,n): p7 is pt and reads true (00 R9). -/
def getP (l : Lane) (n : Nat) : Bool := if n = 7 then true else l.preds.getLsbD n
/-- A write of P(t,n): discarded for pt. -/
def setP (l : Lane) (n : Nat) (b : Bool) : Lane :=
  if n = 7 then l
  else { l with preds := if b then l.preds ||| (1#7 <<< n) else l.preds &&& ~~~(1#7 <<< n) }

/-- The sector of a core (01 R12). -/
def secOf (core : Nat) : Nat := Config.sectorOf core

/-- A unit of a sector, not of a core: it has no TLB of its own, and its records name core 0xFF (22 R384). -/
def sectorUnit (x : Nat) : Nat := 1920 + 48 * x

/-- FABTIME in nanoseconds: 1.4 clk to a nanosecond until the protocol disciplines it (00 R6, 21 R378). -/
def fabtime (s : State) : Nat := s.fabBase + (s.clk - s.fabClk) * s.fabNum / s.fabDen

/-- The time of a context that the watchdog counts (22 R400, 24 R431). -/
def watchTime (s : State) (ctx : Nat) : Nat :=
  (ctxOf s ctx).timed + (match (ctxOf s ctx).timedFrom with | some t => s.clk - t | none => 0)

/-- The watchdog's time of a context runs while it is switched in and no work-group of it waits for a core. -/
def retime (ctx : Nat) (s : State) : State :=
  let runs := (ctxOf s ctx).in_ && (ctxOf s ctx).saved.isEmpty
  if runs && (ctxOf s ctx).timedFrom.isNone then modCtx s ctx fun x => { x with timedFrom := some s.clk }
  else if !runs && (ctxOf s ctx).timedFrom.isSome then modCtx s ctx fun x => { x with timed := watchTime s ctx, timedFrom := none }
  else s

/-- An effect of a host write: before BOOTSTAT.READY every register but BOOTCTL ignores writes (21 R379). -/
def whenReady (s : State) (f : State → State) : State := if s.mgmt.ready then f s else s

/-- The live lanes of a warp: those that have not exited (02 R30). -/
def liveLanes (w : Warp) : List Nat := (List.range 32).filter fun l => (laneOf w l).st != .exited

/-- The next free pick. -/
def pick (s : State) (n : Nat) : Nat × State :=
  (if n = 0 then 0 else Config.choose s.choice % n, { s with choice := s.choice + 1 })

/-- A field of a launch's packet as inherited (03 R49). -/
def launchField (la : Launch) (f : Nat) : Nat := (la.fields.getD f 0).toNat
/-- The number of levels, and the domain and scope of level `i` (03 R49). -/
def levelCount (la : Launch) : Nat := fld (launchField la 1) 3 0
def levelDomain (la : Launch) (i : Nat) : Nat := fld (launchField la 1) (6 + 3 * i) (4 + 3 * i)
def levelScope (la : Launch) (i : Nat) : Nat := fld (launchField la 1) (30 + 3 * i) (28 + 3 * i)
/-- The extent of a level, as the packet gives it. -/
def packetExtent (la : Launch) (i : Nat) : Nat := launchField la (2 + i / 2) / 2 ^ (32 * (i % 2)) % 2 ^ 32
/-- The work-group level: the level bound to core. -/
def coreLevel (la : Launch) : Nat := ((List.range (levelCount la)).find? fun i => levelDomain la i == 2).getD 0
/-- Threads of a work-group: the levels bound to lane and warp; its warps of 32, each filled from lane 0 upward (03 R50, R52,
log 58). -/
def groupThreads (la : Launch) : Nat := ((List.range (coreLevel la)).map (packetExtent la)).foldl (· * ·) 1
def groupWarps (la : Launch) : Nat := (groupThreads la + 31) / 32
/-- Is a level bound to fabric (03 R50, R52)? -/
def fabricBound (la : Launch) : Bool := (List.range (levelCount la)).any fun i => levelDomain la i == 6

/-! ### Partitions and the sectors' memories -/

/-- The enabled partition that holds a sector (21 R366). -/
def partOf (s : State) (x : Nat) : Option Nat :=
  (List.range 4).find? fun p => (partAt s p).en && (partAt s p).sectors.getLsbD x

/-- The lowest sector of a context's partition: its arbiter and entity store act for the context (log 10). -/
def ctxSector (s : State) (ctx : Nat) : Nat :=
  ((List.range 4).find? fun x => (partAt s (ctx / 64)).sectors.getLsbD x).getD 0

/-- Are two sectors of one partition? -/
def samePart (s : State) (x y : Nat) : Bool :=
  x == y || (match partOf s x with
    | some p => (partAt s p).sectors.getLsbD y
    | none => false)

/-- Is a physical address a device register (04 R75)? -/
def isDevice (pa : Nat) : Bool := 0xF000000000000 ≤ pa
/-- Is a physical address backed by HBM or the second tier, firmware reserves included (04 R75)? -/
def backed (pa : Nat) : Bool :=
  if pa < 2 ^ 39 then pa % 2 ^ 36 ≤ 47999999999
  else 2 ^ 40 ≤ pa && pa < 2 ^ 40 + 4 * 2 ^ 39 && (pa - 2 ^ 40) % 2 ^ 39 ≤ 383999999999
/-- Is it in the second tier? -/
def inTier2 (pa : Nat) : Bool := 2 ^ 40 ≤ pa && backed pa
/-- The home sector of a backed address (04 R76). -/
def homeSector (pa : Nat) : Nat := if pa < 2 ^ 39 then pa / 2 ^ 36 / 2 else (pa - 2 ^ 40) / 2 ^ 39 % 4

/-- The byte a sector's reader sees: its own sector's state, or the home slice's when the home is outside the partition. -/
def readByte (s : State) (x pa : Nat) : Byte :=
  mget (0 : Byte) (sectorOf s (if samePart s x (homeSector pa) then x else homeSector pa)).mem pa

/-- A number of `n` bytes as a sector's reader sees it. -/
def peek (s : State) (x pa n : Nat) : Nat := ofBytes ((List.range n).map fun i => readByte s x (pa + i))

/-- A write takes its place in its origin sector and enters the causal queues (05 R95). -/
def applyWrite (s : State) (o pa : Nat) (bs : List Byte) : State :=
  let sec := sectorOf s o
  let a := sec.a.put o (sec.a.at o + 1)
  let key := a.sum * 4 + o
  let sec := { sec with a := a, mem := memPuts sec.mem pa bs,
                        keys := (List.range bs.length).foldl (fun m i => mput 0 m (pa + i) key) sec.keys }
  let s := { s with sectors := mput {} s.sectors o sec }
  ([0, 1, 2, 3].filter fun d => d != o && samePart s o d).foldl (fun s d =>
    let q := mget [] s.causal (4 * o + d)
    { s with causal := mput [] s.causal (4 * o + d) (q ++ [⟨pa, bs, a⟩]) }) s

/-- May the oldest write of the queue from `o` to `d` be applied at `d` (05 R95)? -/
def canDeliver (s : State) (o d : Nat) : Bool :=
  match mget [] s.causal (4 * o + d) with
  | [] => false
  | w :: _ =>
    let a := (sectorOf s d).a
    a.at o + 1 == w.stamp.at o && [0, 1, 2, 3].all fun k => k == o || w.stamp.at k ≤ a.at k

/-- Apply the oldest write of a causal queue: each byte takes it only under a greater key (05 R95). -/
def deliver (s : State) (o d : Nat) : State :=
  match mget [] s.causal (4 * o + d) with
  | [] => s
  | w :: rest =>
    let s := { s with causal := mput [] s.causal (4 * o + d) rest }
    modSector s d fun sec =>
      let key := w.stamp.sum * 4 + o
      let sec := { sec with a := sec.a.put o (w.stamp.at o) }
      (List.range w.bytes.length).foldl (fun (sec : Sector) i =>
        if mget 0 sec.keys (w.pa + i) < key then
          { sec with mem := mput (0 : Byte) sec.mem (w.pa + i) (w.bytes.getD i 0), keys := mput 0 sec.keys (w.pa + i) key }
        else sec) sec

/-- Deliver pending writes to one sector until none can be applied. -/
def deliverTo (d : Nat) : Nat → State → State
  | 0, s => s
  | n + 1, s =>
    match [0, 1, 2, 3].find? fun o => o != d && canDeliver s o d with
    | some o => deliverTo d n (deliver s o d)
    | none => s

/-- Deliver to one sector the writes that a vector counts and it has not applied; a run of R95 steps, each enabled. -/
def deliverUpTo (d : Nat) (v : Vec4) : Nat → State → State
  | 0, s => s
  | n + 1, s =>
    match [0, 1, 2, 3].find? fun o => o != d && decide ((sectorOf s d).a.at o < v.at o) && canDeliver s o d with
    | some o => deliverUpTo d v n (deliver s o d)
    | none => s

/-- How many writes wait in the causal queues. -/
def causalCount (s : State) : Nat := s.causal.foldl (fun n e => n + e.2.length) 0

/-- Deliver every pending write (a run of R95 steps, each enabled in turn). -/
def deliverAll (s : State) : State :=
  (List.range (causalCount s)).foldl (fun s _ =>
    match ((List.range 16).find? fun i => i / 4 != i % 4 && canDeliver s (i / 4) (i % 4)) with
    | some i => deliver s (i / 4) (i % 4)
    | none => s) s

/-- Remove a range from a memory: it then reads as zero. -/
def clearRange (m : List Host.Cell) (lo n : Nat) : List Host.Cell :=
  m.filter fun e => !(decide (lo ≤ e.1) && decide (e.1 < lo + n))

/-- The granule of a physical address: 32 bytes in HBM and the second tier (23 R409). -/
def granule (pa : Nat) : Nat := pa / 32 * 32

/-- The damaged granules that a range touches, with their sizes: 32 bytes in HBM and the second tier, 8 in chip SRAM. -/
def hurtGranules (s : State) (pa n : Nat) : List (Nat × Nat) :=
  let k := sectorOf s (homeSector pa)
  let touched (z : Nat) := ((List.range n).map fun i => (pa + i) / z * z).eraseDups
  ((touched 32).filter k.damaged.contains).map (fun g => (g, 32)) ++ ((touched 8).filter k.sramBad.contains).map fun g => (g, 8)

/-- Does a byte lie in one of some granules? -/
def inGranule (gs : List (Nat × Nat)) (pa : Nat) : Bool := gs.any fun g => decide (g.1 ≤ pa) && decide (pa < g.1 + g.2)

/-- Zero a scrub-pending page in its home slice and clear its bit (23 R413). -/
def scrubPage (s : State) (page : Nat) : State :=
  let h := homeSector (page * 65536)
  let s := [0, 1, 2, 3].foldl (fun s x => modSector s x fun k => { k with mem := clearRange k.mem (page * 65536) 65536 }) s
  let s := modSector s h fun k => { k with scrub := k.scrub.filter (· != page),
                                           damaged := k.damaged.filter fun g => g / 65536 != page,
                                           sramBad := k.sramBad.filter fun g => g / 65536 != page }
  { s with ctxs := s.ctxs.map fun e => (e.1, { e.2 with scrubbing := e.2.scrubbing.filter (· != page) }) }

/-- A write of a range repairs the damaged granules it touches: a part that it does not write becomes zero (23 R409). -/
def repair (s : State) (o pa n : Nat) : State :=
  (hurtGranules s pa n).foldl (fun s g =>
    let s := if g.1 ≥ pa && g.1 + g.2 ≤ pa + n then s else applyWrite s o g.1 (List.replicate g.2 0)
    modSector s (homeSector pa) fun k => if g.2 == 32 then { k with damaged := k.damaged.filter (· != g.1) }
      else { k with sramBad := k.sramBad.filter (· != g.1) }) s

/-- A first write or atomic scrubs its page (23 R413). -/
def scrubFirst (s : State) (pa : Nat) : State :=
  if (sectorOf s (homeSector pa)).scrub.contains (pa / 65536) then scrubPage s (pa / 65536) else s

/-- A write from sector `o` reaches memory: a first write scrubs its page (23 R413) and repairs its granules (R409). -/
def storeAt (s : State) (o pa : Nat) (bs : List Byte) : State :=
  applyWrite (repair (scrubFirst s pa) o pa bs.length) o pa bs

/-! ### Device registers as they read (21 R359) -/

/-- A sector's PGLIM. -/
def pglim (s : State) (x : Nat) : Nat :=
  match x with | 0 => s.power.lim0 | 1 => s.power.lim1 | 2 => s.power.lim2 | _ => s.power.lim3

/-- PARTCTL as it reads (21 R366). -/
def partValue (k : Part) : Nat :=
  (if k.en then 2 ^ 63 else 0) + (if k.busy then 2 ^ 62 else 0) + (if k.err then 2 ^ 61 else 0) + k.sectors.toNat * 2 ^ 52
    + k.prec.toNat * 2 ^ 12

/-- A display head. -/
def headOf (s : State) (ctx h : Nat) : DHead := mget {} (ctxOf s ctx).heads h

/-- A stack's registers. -/
def stackAt (s : State) (k : Nat) : Stack := mget {} s.hbm k

/-- The first address of the device registers. -/
def deviceBase : Nat := 0xF000000000000

/-- Word `i` of some bytes. -/
def byteWord (bs : List Byte) (i : Nat) : Word := .ofNat 64 (ofBytes ((bs.drop (8 * i)).take 8))
/-- A bit of a register. -/
def bitAs (b : Bool) (i : Nat) : Word := if b then 1#64 <<< i else 0

/-- Has a request waited longer than 200 ns, 280 clk (01 R22)? -/
def waitedLong (s : State) (r : LeaveReq) : Bool := decide (r.since + 280 < s.clk)

/-- THROTTLED of a sector.  A request that still waits sets it again after a read, for it has waited that long since before
(log 49). -/
def throttled (s : State) (x : Nat) : Bool := s.power.throttled.getLsbD x || (sectorOf s x).requests.any (waitedLong s)

/-- THROTTLED sets. -/
def setThrottled (s : State) (x : Nat) : State := { s with power := { s.power with throttled := s.power.throttled ||| (1#4 <<< x) } }

/-- PGSTAT of a sector (01 R22). -/
def pgstat (s : State) (x : Nat) : Word :=
  bitAs (s.power.clamped.getLsbD x) 31 ||| bitAs (throttled s x) 30
    ||| .ofNat 64 ((sectorOf s x).requests.length % 4096 * 4096 + (sectorOf s x).held.length % 4096)

/-- A register of the management page. -/
def readMgmt (s : State) (o : Nat) : Word :=
  let m := s.mgmt
  if o < 0x20 then .ofNat 64 (pglim s (o / 8))
  else if o < 0x40 then pgstat s (o / 8 - 4)
  else if o < 0x60 then .ofNat 64 (partValue (partAt s (o / 8 - 8)))
  else if o = 0x100 then bitAs m.ptpEn 63 ||| bitAs m.winErr 62 ||| .ofNat 64 (m.ptpDomain.toNat * 2 ^ 48
    + m.logSync.toNat * 2 ^ 40 + m.ptpPort.toNat * 2 ^ 32 + m.winLen.toNat)
  else if o = 0x108 then bitAs m.locked 63 ||| .ofNat 64 m.offset.toNat
  else if o = 0x200 then m.bootCtl
  else if o = 0x208 then bitAs m.ready 63 ||| bitAs m.fail 62 ||| .ofNat 64 m.version.toNat
  else if 0x300 ≤ o && o < 0x320 then mget 0 m.nonce (o / 8 - 0x60)
  else if o = 0x320 then bitAs m.attDone 63
  else if 0x400 ≤ o && o < 0x4C0 then byteWord m.report (o / 8 - 0x80)
  else if 0x800 ≤ o && o < 0xA00 then .ofNat 64 (ofBytes ((List.range 8).map fun i => Config.attCert (o - 0x800 + i)))
  else 0

/-- A register of a sector's page. -/
def readSector (s : State) (x o : Nat) : Word :=
  if o < 0x200 then mget 0 (sectorOf s x).rwin (o / 8)
  else if 0x400 ≤ o && o < 0x420 then
    let k := stackAt s (2 * x + (o - 0x400) / 16)
    if o % 16 = 0 then bitAs k.en 31 ||| .ofNat 64 k.interval
    else bitAs k.deferred 31 ||| .ofNat 64 (k.lastCh.toNat * 65536 + k.count.toNat)
  else 0

/-- A register of a context's page. -/
def readCtx (s : State) (ctx o : Nat) : Word :=
  let x := ctxOf s ctx
  if o = 0 then bitAs x.busy 30 ||| .ofNat 64 x.gen
  else if o = 0x08 then .ofNat 64 x.fpflags.toNat
  else if o = 0x10 then .ofNat 64 (x.sampleLog * 65536 + x.mode)
  else if o = 0x18 then x.numRing
  else if o = 0x20 then .ofNat 64 (x.numTail.toNat * 2 ^ 32 + x.numHead.toNat)
  else if o = 0x28 then .ofNat 64 x.numDrop.toNat
  else if o = 0x40 then .ofNat 64 ((partAt s (ctx / 64)).ctxtab + 128 * (ctx % 64))
  else if o = 0x48 then bitAs x.in_ 0 ||| bitAs x.badrec 58 ||| bitAs (!x.scrubbing.isEmpty) 59
  else if 0x80 ≤ o && o < 0x100 then
    let k := headOf s ctx ((o - 0x80) / 0x40)
    match o % 0x40 with
    | 0 => k.cfg ||| bitAs k.err 62
    | 8 => k.surf
    | 16 => k.out
    | 24 => .ofNat 64 (k.drops % 2 ^ 32 * 2 ^ 32 + k.frames % 2 ^ 32)
    | _ => 0
  else if o = 0x100 then bitAs x.ckpt.en 63 ||| bitAs x.ckpt.busy 62 ||| .ofNat 64 (x.ckpt.steps.toNat * 2 ^ 32 + x.ckpt.period.toNat)
  else 0

/-- LQBASE, RESERVE, LQTAIL, LQPROG and LQCTL as device code and the host read them (21 R375). -/
def readQueueReg (s : State) (pa : Nat) : Word :=
  if 0xF000002000000 ≤ pa && pa < 0xF000002000000 + 0x1000 * 4096 * 4 then
    let n := (pa - 0xF000002000000) / 4096
    let q := queueOf s (n / 4096 * 64 + n % 4096 / 64) (n % 64)
    match pa % 4096 with
    | 0 => q.base
    | 8 => q.reserve
    | 16 => .ofNat 64 q.tail
    | 24 => .ofNat 64 q.prog
    | 32 => (if q.en then 1#64 <<< 63 else 0) ||| (if q.err then 1#64 <<< 62 else 0) ||| .ofNat 64 (q.erroff % 2 ^ 48)
    | _ => 0
  else 0

/-- A device register as the host, or device code that has its page mapped, reads it; before READY all but the boot registers read zero (21 R379). -/
def readRegister (s : State) (a : Nat) : Word :=
  let o := a - deviceBase
  if o = 0x200 || o = 0x208 then readMgmt s o
  else if !s.mgmt.ready then 0
  else if o < 0x10000 then readMgmt s o
  else if o < 0x50000 then readSector s (o / 0x10000 - 1) (o % 0x10000)
  else if 0x100000 ≤ o && o < 0x1100000 then readCtx s ((o - 0x100000) / 0x10000) (o % 0x10000)
  else readQueueReg s a

/-- What a read changes: THROTTLED is since the last read of PGSTAT (01 R22). -/
def afterRead (a : Nat) (s : State) : State :=
  let o := a - deviceBase
  if 0x20 ≤ o && o < 0x40 && s.mgmt.ready then
    { s with power := { s.power with throttled := s.power.throttled &&& ~~~(1#4 <<< (o / 8 - 4)) } }
  else s

/-! ### The error log (22 R384-R386) -/

/-- A sector's error ring (22 R384). -/
def errRing (x : Nat) : Nat := 0xB2CFC4000 + x * 2 ^ 37
/-- A sector's page-request area (23 R404). -/
def pageArea (x : Nat) : Nat := 0xB2D008000 + x * 2 ^ 37

/-- DETAIL of the causes 0x41 to 0x4D (23 R411, 24 R419). -/
def detail (source agent kind extra : Nat) : Nat := source * 2 ^ 52 + agent * 2 ^ 48 + kind * 2 ^ 46 + extra

/-- Write an error-log record in sector `x`, or merge it into the newest (22 R385). -/
def logError (s : State) (x cause addr gen part ctx core det : Nat) : State :=
  let r := errRing x
  let head := peek s x r 8
  let tail := peek s x (r + 8) 8
  let at_ (n : Nat) := r + 64 + 32 * (n % 8192)
  let newest := peek s x (at_ (head - 1)) 32
  let cnt := fld newest 111 96
  let same := 0 < head && fld newest 63 56 == cause && fld newest 71 70 == x && fld newest 79 72 == (if core < 192 then core else 255)
    && fld newest 87 86 == part && fld newest 85 80 == ctx && fld newest 191 128 == addr
    && fabtime s < fld newest 255 192 + 1000000
  if same then applyWrite s x (at_ (head - 1) + 12) (leBytes 2 (min (cnt + 1) 65535))
  else if head - tail ≥ 8192 then
    applyWrite s x (r + 24) (leBytes 8 (min (peek s x (r + 24) 8 + 1) (2 ^ 64 - 1)))
  else
    let w := fabtime s % 2 ^ 64 * 2 ^ 192 + addr % 2 ^ 64 * 2 ^ 128 + gen * 2 ^ 112 + 2 ^ 96 + part * 2 ^ 86 + ctx * 2 ^ 80
      + (if core < 192 then core else 255) * 2 ^ 72 + x * 2 ^ 70 + cause * 2 ^ 56 + det
    let s := applyWrite s x (at_ head) (leBytes 32 w)
    applyWrite s x r (leBytes 8 (head + 1))

/-- The log record of a unit of a core that works for a context. -/
def logCore (s : State) (core ctx cause addr det : Nat) : State :=
  logError s (secOf core) cause addr (ctxOf s ctx).gen (ctx / 64) (ctx % 64) core det

/-! ### Accesses: who makes them, and how they can stop -/

/-- Who makes an access: its core, its context, its AGENT code (23 R411). -/
structure Who where
  core : Nat
  ctx : Nat
  agent : Nat := 0

/-- How an access stops: it waits on a page request, of the virtual address that it makes, or it fails with a cause. -/
inductive Stop where
  | page (sector : Nat) (r : Waiter) (va : Word)
  | fail (cause : Nat) (addr : Word)
  deriving DecidableEq, Repr

/-- A computation that may stop at an access, keeping the state it reached. -/
abbrev M := EStateM Stop State

/-- Run without keeping the state: what it would answer. -/
def quiet {α : Type} (s : State) (m : M α) : Option α :=
  match m s with
  | .ok a _ => some a
  | .error _ _ => none

/-- A field of the context record as last read (21 R370). -/
def recField (s : State) (ctx hi lo : Nat) : Nat := fld (ctxOf s ctx).record hi lo

/-- What a read of damaged or unbacked memory logs: cause, ADDR and DETAIL (23 R409-R411). -/
def hurtLog (agent kind : Nat) (g : Nat × Nat) : Nat × Nat × Nat :=
  (0x46, g.1, detail (if g.2 == 8 then 1 else if inTier2 g.1 then 3 else 2) agent kind g.2)

/-- Write the log records of an access. -/
def logFound (w : Who) (s : State) (e : Nat × Nat × Nat) : State := logCore s w.core w.ctx e.1 e.2.1 e.2.2

/-- Bytes of physical memory as a sector's reader finds them, and what it logs: unbacked memory and damaged granules read
zero (23 R409, R410), and so does a page that waits to be scrubbed (R413). -/
def found (w : Who) (s : State) (pa n kind : Nat) : List Byte × List (Nat × Nat × Nat) :=
  if !backed pa then (List.replicate n 0, [(0x45, pa, detail 15 w.agent kind 0)])
  else if (sectorOf s (homeSector pa)).scrub.contains (pa / 65536) then (List.replicate n 0, [])
  else
    let bad := hurtGranules s pa n
    ((List.range n).map fun i => if inGranule bad (pa + i) then 0 else readByte s (secOf w.core) (pa + i),
     bad.map (hurtLog w.agent kind))

/-- Bytes of physical memory as the core's sector reads them, with the logs of R409 and R410; KIND 2 for an atomic. -/
def readPhys (w : Who) (pa n : Nat) (kind : Nat := 0) : M (List Byte) := fun s =>
  let (bs, logs) := found w s pa n kind
  .ok bs (logs.foldl (logFound w) s)

/-- A table word as the walker reads it.  One that it cannot trust reads zero, so that the walk ends there and its page
request carries the log record. -/
def walkRead (w : Who) (pa : Nat) : M (Nat × Option (Nat × Nat × Nat)) := fun s =>
  let (bs, logs) := found { w with agent := 7 } s pa 8 0
  .ok (ofBytes bs, logs.head?) s

/-- Where RESERVE lies: its context and queue (21 R375). -/
def isReserve (pa : Nat) : Option (Nat × Nat) :=
  if 0xF000002000000 ≤ pa && pa < 0xF000002000000 + 0x1000 * 4096 * 4 && pa % 4096 == 8 then
    let n := (pa - 0xF000002000000) / 4096
    some (n / 4096 * 64 + n % 4096 / 64, n % 64)
  else none

/-- A write of device code to a register: RESERVE at once, any other is on its way (21 R360). -/
def writeDevice (pa v : Nat) (s : State) : State :=
  match isReserve (pa / 8 * 8) with
  | some (c, q) => modQueue s c q fun x => { x with reserve := .ofNat 64 v }
  | none => { s with agenda := .register (pa / 8 * 8) (.ofNat 64 v) :: s.agenda }

/-- An atomic at physical address `pa` from the core's sector: it performs at the home sector once that has applied all
that the core's sector had when it was sent, its write has origin there, and it joins the location's atomic order (05 R96). -/
def atomicPhys (w : Who) (pa n : Nat) (f : Nat → Option Nat) : M (Nat × Vec4) := fun s =>
  if isDevice pa then
    let old := (readRegister s (pa / 8 * 8)).toNat % 2 ^ (8 * n)
    .ok (old, {}) (match f old with
      | some v => writeDevice pa v (afterRead (pa / 8 * 8) s)
      | none => afterRead (pa / 8 * 8) s)
  else if !backed pa then .ok (0, {}) (logFound w s (0x45, pa, detail 15 w.agent 2 0))
  else
    let h := homeSector pa
    let s := scrubFirst (deliverUpTo h (sectorOf s (secOf w.core)).a (causalCount s) s) pa
    let (bs, logs) := found { w with core := sectorUnit h } s pa n 2
    let old := ofBytes bs
    let s := match f old with
      | some v => storeAt s h pa (leBytes n v)
      | none => s
    let a := (sectorOf s h).a
    .ok (old, a) (logs.foldl (logFound w) { s with
      atomics := mput [] s.atomics pa (mget [] s.atomics pa ++ [⟨w.core, w.ctx, n, old, f old, a⟩]) })

/-- What a walk of one stage finds. -/
inductive Walk where
  | ok (pa log entry leaf : Nat)
  | miss (log : Option (Nat × Nat × Nat))
  | bad
  deriving DecidableEq, Repr

/-- Does a table entry with VALID = 1 keep the rules of R81?  `lf`: 0 no leaf here, 1 leaf allowed, 2 always a leaf. -/
def entryOk (e sh lf : Nat) (stage2 : Bool) : Bool :=
  let leaf := bitAt e 1
  fld e 63 52 == 0 && fld e 7 6 == 0
  && (lf != 0 || !leaf) && (lf != 2 || leaf)
  && (leaf || (fld e 5 2 == 0 && (if sh == 21 then true else fld e 11 8 == 0)))
  && (!leaf || (e / 256 * 256 % 2 ^ 52 % 2 ^ sh == 0))
  && (!leaf || (if stage2 then !bitAt e 3 else !bitAt e 5 && !bitAt e 4))

/-- The five levels: shift, index bits, leaf rule (04 R80). -/
def levels1 : List (Nat × Nat × Nat) := [(48, 9, 0), (39, 9, 0), (30, 9, 1), (21, 9, 1), (16, 5, 2)]
/-- The five levels of stage 2. -/
def levels2 : List (Nat × Nat × Nat) := [(48, 4, 0), (39, 9, 0), (30, 9, 1), (21, 9, 1), (16, 5, 2)]

/-- Stage 2 (04 R80, R81): from an intermediate address. -/
def walk2 (w : Who) (ipa : Nat) : List (Nat × Nat × Nat) → Nat → M Walk
  | [], _ => return .bad
  | (sh, bits, lf) :: t, base => do
    let ea := base + 8 * (ipa / 2 ^ sh % 2 ^ bits)
    let (e, log) ← walkRead w ea
    if e % 2 == 0 then return .miss log
    else if !entryOk e sh lf true then return .bad
    else if bitAt e 1 then return .ok (e % 2 ^ 52 / 2 ^ sh * 2 ^ sh + ipa % 2 ^ sh) sh e ea
    else walk2 w ipa t (e % 2 ^ 52 / 256 * 256)

/-- The stage-2 root of a context's partition. -/
def s2root (s : State) (ctx : Nat) : Nat := (partAt s (ctx / 64)).s2root

/-- A page request of an access (04 R84); a unit of a sector, which is no core, gives its sector's first (log 48). -/
def pageReq (w : Who) (s : State) (kind stage addr : Nat) (va : Word) (log : Option (Nat × Nat × Nat) := none) : Stop :=
  .page (secOf w.core) { ctx := w.ctx, req := kind, stage := stage, core := if w.core < 192 then w.core else 48 * secOf w.core,
                         addr := addr, gen := (ctxOf s w.ctx).gen, log := log.map fun e => (w.core, e) } va

/-- Translate an intermediate address for reading, or stop. -/
def ipaRead (w : Who) (ipa kind : Nat) (va : Word := 0) : M Nat := do
  let s ← get
  match ← walk2 w ipa levels2 (s2root s w.ctx) with
  | .ok pa _ _ _ => return pa
  | .miss log => throw (pageReq w s kind 1 ipa va log)
  | .bad => throw (.fail 0x06 va)

/-- Stage 1 (04 R80): every table address is itself translated by stage 2. -/
def walk1 (w : Who) (va : Word) (kind : Nat) : List (Nat × Nat × Nat) → Nat → M (Nat × Nat × Nat)
  | [], _ => throw (.fail 0x06 va)
  | (sh, bits, lf) :: t, base => do
    let pa ← ipaRead w (base + 8 * (va.toNat / 2 ^ sh % 2 ^ bits)) kind va
    let (e, log) ← walkRead w pa
    if e % 2 == 0 then throw (pageReq w (← get) kind 0 va.toNat va log)
    else if !entryOk e sh lf false then throw (.fail 0x06 va)
    else if bitAt e 1 then return (e % 2 ^ 52 / 2 ^ sh * 2 ^ sh + va.toNat % 2 ^ sh, sh, e)
    else walk1 w va kind t (e % 2 ^ 52 / 256 * 256)

/-- A hit in a TLB: the context, generation and page must agree (04 R83). -/
def tlbHit (t : List TlbEntry) (ctx gen va : Nat) : Option TlbEntry :=
  t.find? fun e => e.ctx == ctx && e.gen == gen && e.vpn == va / 2 ^ e.log

/-- A TLB with an entry put in, newest first, in place of one of the same page. -/
def tlbFill (t : List TlbEntry) (e : TlbEntry) : List TlbEntry :=
  e :: t.filter fun o => !(o.ctx == e.ctx && o.vpn == e.vpn && o.log == e.log)

/-- The sector's TLB has eight ways: the oldest entry of a full set leaves.  Its 1,024 sets go by page number (log 47). -/
def tlbWays (e : TlbEntry) (t : List TlbEntry) : List TlbEntry :=
  match (t.filter fun o => o.vpn % 1024 == e.vpn % 1024)[8]? with
  | some o => t.erase o
  | none => t

/-- Translate a virtual address (04 R79-R83); kind 0 read, 1 write, 2 fetch, 3 atomic.  Which entry a full TLB drops, and
that PERMISSION is found before HOLD, are the model's (log 47). -/
def translate (w : Who) (va : Word) (kind : Nat) : M Nat := do
  let s ← get
  let c := ctxOf s w.ctx
  let x := secOf w.core
  let a := va.toNat
  let writes := kind == 1 || kind == 3
  if a ≥ 2 ^ 57 then throw (.fail 0x06 va)
  if c.retired then throw (.fail 0x08 va)
  let hit := match tlbHit (coreOf s w.core).tlb w.ctx c.gen a with
    | some e => some e
    | none => tlbHit (sectorOf s x).tlb w.ctx c.gen a
  let e ← match hit with
    | some e => if writes && e.write && !e.dirty && !e.hold then pure none else pure (some e)
    | none => pure none
  let e ← match e with
    | some e => pure e
    | none => do
      let (ipa, sh1, e1) ← walk1 w va kind levels1 (recField s w.ctx 51 12 * 4096)
      let (pa, sh2, e2, leaf) ← match ← walk2 w ipa levels2 (s2root s w.ctx) with
        | .ok pa sh e leaf => pure (pa, sh, e, leaf)
        | .miss log => throw (pageReq w (← get) kind 1 ipa va log)
        | .bad => throw (.fail 0x06 va)
      let sh := min sh1 sh2
      let wr := bitAt e1 2 && bitAt e2 2
      let hold := bitAt e2 5
      let dirty := bitAt e2 4 || (writes && wr && !hold)
      -- the walker sets DIRTY by an atomic OR at the leaf's home slice before the first write
      if writes && wr && !hold && !bitAt e2 4 then
        let _ ← atomicPhys { w with agent := 7 } leaf 8 fun v => some (v ||| 16)
      let e : TlbEntry := { ctx := w.ctx, gen := c.gen, log := sh, vpn := a / 2 ^ sh, ppn := pa / 2 ^ sh, ipn := ipa / 2 ^ sh,
                            write := wr, exec := bitAt e1 3, dirty := dirty, hold := hold }
      modify fun s =>
        let s := if 192 ≤ w.core then s else modCore s w.core fun k => { k with tlb := (tlbFill k.tlb e).take 64 }
        modSector s x fun k => { k with tlb := tlbWays e (tlbFill k.tlb e) }
      pure e
  let pa := e.ppn * 2 ^ e.log + a % 2 ^ e.log
  if kind == 2 && !e.exec then throw (.fail 0x07 va)
  if writes && !e.write then throw (.fail 0x07 va)
  if writes && e.hold then throw (pageReq w (← get) 4 1 (e.ipn * 2 ^ e.log + a % 2 ^ e.log) va)
  if writes && backed pa && !samePart (← get) x (homeSector pa) then throw (.fail 0x07 va)
  return pa

/-- Is a world-table entry valid and well formed (07 R139, 24 R422)? -/
def worldOk (e : Nat) : Bool :=
  bitAt e 920 && fld e 1023 921 == 0 && fld e 895 889 == 0 && fld e 831 825 == 0 && fld e 767 761 == 0
  && fld e 703 702 == 0 && fld e 639 638 == 0 && fld e 575 569 == 0 && fld e 511 505 == 0 && fld e 447 441 == 0
  && fld e 383 368 == 0 && 10 ≤ fld e 637 633 && fld e 637 633 ≤ 24 && 16 ≤ fld e 701 697 && fld e 701 697 ≤ 24
  && fld e 319 288 != 0 && fld e 760 704 % 65536 == 0 && fld e 632 576 % 2 ^ (5 + fld e 637 633) == 0
  && fld e 440 384 % 64 == 0

/-- The world of a context whose sink range holds an address (07 R138, R139, R147). -/
def sinkWorld (s : State) (w : Who) (va : Nat) : Option Nat :=
  let tab := recField s w.ctx 255 192
  if tab == 0 then none
  else (List.range 255).map (· + 1) |>.find? fun n =>
    match quiet s (do
      let pa ← translate w (.ofNat 64 (tab + 128 * n)) 0
      -- VALID is bit 0 of byte 115: an entry without it is not read further
      if !bitAt (ofBytes (← readPhys w (pa + 115) 1)) 0 then return 0
      return ofBytes (← readPhys w pa 128)) with
    | some e => worldOk e && fld e 760 704 ≤ va && va < fld e 760 704 + 65536
    | none => false

/-- An address range cut at 64 KiB page bounds: pieces of address and length. -/
def pieces : Nat → Nat → Nat → List (Nat × Nat)
  | 0, _, _ => []
  | fuel + 1, a, n =>
    if n == 0 then [] else
    let k := min n (65536 - a % 65536)
    (a, k) :: pieces fuel (a + k) (n - k)

/-- Read virtual memory, relaxed, as a unit of the core does inline (05 R106). -/
def vread (w : Who) (va n : Nat) : M (List Byte) := do
  if let some _ := sinkWorld (← get) w va then return List.replicate n 0
  let mut out : List Byte := []
  for (a, k) in pieces (n / 65536 + 2) va n do
    let pa ← translate w (.ofNat 64 a) 0
    if isDevice pa then
      out := out ++ leBytes k (readRegister (← get) (pa / 8 * 8)).toNat
      modify (afterRead (pa / 8 * 8))
    else out := out ++ (← readPhys w pa k)
  return out

/-- Read a number of `n` bytes of virtual memory. -/
def vreadN (w : Who) (va n : Nat) : M Nat := do return ofBytes (← vread w va n)

/-- Count an absorbed store of a world's sink range: a saturating atomic at the counter's home slice (07 R147, 24 R420). -/
def sinkCount (w : Who) (n : Nat) : M Unit := do
  let tab := recField (← get) w.ctx 255 192
  let a := tab + 128 * n + 32
  let pa ← translate w (.ofNat 64 a) 3
  let _ ← atomicPhys w pa 4 fun v => some (min (v + 1) (2 ^ 32 - 1))

/-- Write virtual memory, as a plain write of the unit's sector (05 R106). -/
def vwrite (w : Who) (va : Nat) (bs : List Byte) : M Unit := do
  if let some n := sinkWorld (← get) w va then
    sinkCount w n
    return
  for (a, k) in pieces (bs.length / 65536 + 2) va bs.length do
    let pa ← translate w (.ofNat 64 a) 1
    let part := (bs.drop (a - va)).take k
    if isDevice pa then modify (writeDevice pa (ofBytes part))
    else if backed pa then modify fun s => storeAt s (secOf w.core) pa part
    else modify fun s => logCore s w.core w.ctx 0x45 pa (detail 15 w.agent 1 0)

/-- An inline atomic of a unit of the core on virtual memory: the old value (05 R96). -/
def vatomic (w : Who) (va n : Nat) (f : Nat → Option Nat) : M Nat := do
  if let some _ := sinkWorld (← get) w va then return 0
  let pa ← translate w (.ofNat 64 va) 3
  let (old, v) ← atomicPhys w pa n f
  modify fun s => deliverUpTo (secOf w.core) v (causalCount s) s
  return old

/-! ### The page-request queue (04 R84, 23 R403-R406) -/

/-- Do two requests share an entry: one context, stage and page?  The page is 64 KiB, for the missing leaf gives no size
(log 48). -/
def samePage (r q : Waiter) : Bool := r.ctx == q.ctx && r.stage == q.stage && r.addr / 65536 == q.addr / 65536

/-- The slot that a request may take: the lowest free shared one, else the lowest free one held for its context (R405). -/
def freeSlotFor (sec : Sector) (ctx : Nat) : Option Nat :=
  let used (n : Nat) := sec.posted.any fun e => e.1 == n
  match (List.range 3584).find? fun n => !used (512 + n) with
  | some n => some (512 + n)
  | none => ((List.range 8).find? fun n => !used (8 * (ctx % 64) + n)).map (8 * (ctx % 64) + ·)

/-- Write a request in its slot, and count it (R404). -/
def fillSlot (s : State) (x n : Nat) (r : Waiter) : State :=
  let s := modSector s x fun k => { k with posted := (k.posted.filter (·.1 < n)) ++ [(n, r)] ++ k.posted.filter (n < ·.1) }
  let rec_ := r.ctx % 64 * 2 ^ 122 + r.req * 2 ^ 119 + r.stage * 2 ^ 118 + r.core * 2 ^ 110 + r.gen * 2 ^ 80 + r.addr % 2 ^ 57
  let q := pageArea x
  let s := applyWrite s x (q + 0x40 + 16 * n) (leBytes 16 rec_)
  let s := applyWrite s x (q + 0x10040 + 8 * n) (leBytes 8 1)
  applyWrite s x q (leBytes 8 ((peek s x q 8 + 1) % 2 ^ 64))

/-- The walks that wait for a slot, as the header's WAITING says. -/
def setWaiting (s : State) (x : Nat) (ws : List Waiter) : State :=
  let s := modSector s x fun k => { k with waiting := ws }
  applyWrite s x (pageArea x + 16) (leBytes 8 ws.length)

/-- Post a page request, logging what its walk could not read: join a posted slot of the same page, or take a free slot;
with none free the walk waits under a ticket, and another walk of its page joins it (R405). -/
def postPage (s : State) (x : Nat) (r : Waiter) : Nat × State :=
  let s := match r.log with
    | some (core, c, a, d) => logCore s core r.ctx c a d
    | none => s
  let r := { r with log := none }
  let sec := sectorOf s x
  match sec.posted.find? fun e => samePage e.2 r with
  | some (n, _) => (n, s)
  | none =>
    match freeSlotFor sec r.ctx with
    | some n => (n, fillSlot s x n r)
    | none =>
      match sec.waiting.find? fun q => samePage q r with
      | some q => (q.ticket, s)
      | none =>
        let s := modSector s x fun k => { k with tickets := k.tickets + 1 }
        (sec.tickets, setWaiting s x (sec.waiting ++ [{ r with ticket := sec.tickets }]))

/-! ### Taking a fault (22 R389-R396) -/

/-- What a fault record needs to know. -/
structure FaultInfo where
  cause : Nat
  addr : Word := 0
  core : Nat
  slot : Nat
  lanes : W32
  pc : Nat
  words : Nat := 1
  widx : Nat := 0
  word : Nat := 0
  byAccess : Bool := false
  byCommand : Bool := false
  watchdog : Bool := false
  /-- REPLEFT, when it is not that of the lowest lane now; the count of the REP, 0 outside one -/
  rep : Option Nat := none
  reps : Nat := 0

/-- SAVEBASE + 16 MiB × core of a context (21 R370). -/
def saveImage (s : State) (ctx core : Nat) : Nat := recField s ctx 127 64 + 0x1000000 * core

/-- Write a fault record, and its STATE, in memory; a missing page posts a request and leaves it unwritten (R392). -/
def writeRecord (s : State) (core g i : Nat) : State :=
  let grp := groupOf s core g
  let r := grp.recs.getD i {}
  let put (f : FaultRec → FaultRec) (s : State) : State :=
    modGroup s core g fun k => { k with recs := k.recs.modify i f }
  if r.addr == 0 then s else
  match vwrite ⟨core, grp.ctx, 0⟩ r.addr (leBytes 64 (r.image / 8 * 8 + r.state)) s with
  | .ok _ s => put (fun r => { r with written := true, wait := none }) s
  | .error (.page x q _) s =>
    let (n, s) := postPage s x q
    put (fun r => { r with written := false, wait := some (x, n), held := 0 }) s
  | .error (.fail _ _) s =>
    if r.state == 0 then put (fun r => { r with addr := 0, state := 4, written := true, wait := none }) (logCore s core grp.ctx r.cause 0 0)
    else put (fun r => { r with written := true, wait := none }) s

/-- Give a record a STATE, in the group and in memory (R392, R395). -/
def setRecState (s : State) (core g i st : Nat) : State :=
  writeRecord (modGroup s core g fun k => { k with recs := k.recs.modify i fun r => { r with state := st } }) core g i

/-- Send a record to the host: STATE 4 and an error-log record (R396). -/
def toHost (s : State) (core g i : Nat) : State :=
  let grp := groupOf s core g
  let r := grp.recs.getD i {}
  logCore (setRecState s core g i 4) core grp.ctx r.cause r.addr 0

/-- End a warp: every lane exits, its masks empty; what a parked thread waits for is given up. -/
def endWarp (w : Warp) : Warp :=
  { w with st := if w.st == .free then .free else .exiting, masks := [],
           lanes := (List.range 32).foldl (fun m l =>
             let x : Lane := mget {} m l
             mput {} m l { x with st := .exited, park := {}, stopped := false, wait := none,
                                  front := x.front.filter fun e => e.kind != .waitv && e.kind != .join }) w.lanes }

/-- The records that were being handled go to the host when their handler faults (R395, R396). -/
def handlerFault (s : State) (f : FaultInfo) : State :=
  let w := warpOf s f.core f.slot
  let g := groupOf s f.core w.group
  let t := match lanesOf f.lanes with
    | l :: _ => (laneOf w l).trapRec.toNat
    | [] => 0
  let s := logCore s f.core w.ctx f.cause t 0
  let s := setWarp s f.core f.slot (endWarp w)
  let h := groupOf s f.core g.handles
  (List.range h.recs.length).foldl (fun s i =>
    if (h.recs.getD i {}).state == 0 then setRecState s f.core g.handles i 4 else s) s

/-- A warp of a faulting group begins its skid: it may still issue in the next `n` slots of its scheduler (R389). -/
def haltWarp (n : Nat) (w : Warp) : Warp :=
  match w.st with
  | .ready | .current | .parked | .loading => if w.halting then w else { w with halting := true, skidLeft := n, skid := 0 }
  | _ => w

/-- Every warp of a group begins its skid, of at most eight slots, a free number (R389, log 4). -/
def haltSlots (core : Nat) (slots : List Nat) (s : State) : State :=
  slots.foldl (fun s sl =>
    modWarp { s with choice := s.choice + 1 } core sl (haltWarp (Config.skid s.choice % 9))) s

/-- Take a fault: make its record, stop its threads, halt its work-group (R389-R392). -/
def raiseFault (f : FaultInfo) (s : State) : State :=
  let w := warpOf s f.core f.slot
  if w.kind == .handler then handlerFault s f else
  let k := coreOf s f.core
  let g := mget {} k.groups w.group
  let x := ctxOf s w.ctx
  let free := (List.range 4096).map (fun i => (mget 0 x.recNext f.core + i) % 4096) |>.find? fun n => !x.recUsed.contains (f.core * 4096 + n)
  let tabFree := (List.range 64).find? fun n => !(k.groups.any fun e => e.2.haltTab == n + 1)
  let tab := if g.haltTab != 0 then g.haltTab else if w.kind == .task then 0 else (tabFree.getD 0) + 1
  let area := saveImage s w.ctx f.core
  let l0 := laneOf w ((lanesOf f.lanes).headD 0)
  let tabAddr := if w.kind == .task then 0 else area + 0xF40000 + 512 * (tab - 1)
  let warpIx := if w.kind == .task then f.slot else w.windex
  let gix := if w.kind == .task then 0xFFFFFFFF else g.index
  let image := fabtime s % 2 ^ 64 * 2 ^ 448 + f.addr.toNat * 2 ^ 384 + tabAddr * 2 ^ 320 + f.word * 2 ^ 288
    + f.lanes.toNat * 2 ^ 256 + l0.sib.toNat * 2 ^ 224 + l0.parent * 2 ^ 216 + l0.fid * 2 ^ 208 + f.cause * 2 ^ 200
    + f.core * 2 ^ 192 + warpIx * 2 ^ 186 + f.slot * 2 ^ 180 + w.ctx % 64 * 2 ^ 174 + (f.rep.getD l0.rep) % 64 * 2 ^ 168
    + gix * 2 ^ 128 + f.pc % 2 ^ 48 * 2 ^ 80 + w.retired % 2 ^ 48 * 2 ^ 32
  let addr := match free with
    | some n => area + 0xF00000 + 64 * n
    | none => 0
  let r : FaultRec := {
    addr := addr, cause := f.cause, state := if free.isSome then 0 else 4,
    slot := f.slot, lanes := f.lanes, pc := f.pc,
    words := f.words, byAccess := f.byAccess, byCommand := f.byCommand, widx := f.widx, watchdog := f.watchdog,
    rep := f.rep.getD l0.rep, reps := f.reps, image := image, written := free.isNone, num := free }
  let s := modCtx s w.ctx fun x => match free with
    | some n => { x with recNext := mput 0 x.recNext f.core ((n + 1) % 4096), recUsed := (f.core * 4096 + n) :: x.recUsed }
    | none => x
  let s := modGroup s f.core w.group fun g =>
    { g with halted := true, haltTab := tab, tabDue := true, recs := g.recs ++ [r], parkedSince := none }
  -- the faulting threads issue nothing further; every warp of the group begins its skid
  let s := modWarp s f.core f.slot fun w => (lanesOf f.lanes).foldl (fun w l => modLane w l fun x => { x with stopped := true }) w
  let s := haltSlots f.core g.slots s
  if free.isSome then writeRecord s f.core w.group g.recs.length
  else logCore s f.core w.ctx f.cause 0 0

/-! ### The bundle now issuing -/

/-- The warp of the issuing bundle. -/
def iWarp (s : State) : Warp := warpOf s s.issue.core s.issue.slot
/-- The warp as the words of the group read it: before the group for a chain (10 R217). -/
def iPre (s : State) : Warp := s.issue.pre.getD (iWarp s)
/-- A lane as the words read it. -/
def iLane (s : State) (l : Nat) : Lane := laneOf (iPre s) l
/-- Change the issuing warp. -/
def iMod (s : State) (f : Warp → Warp) : State := modWarp s s.issue.core s.issue.slot f
/-- Change one lane of it. -/
def iModLane (s : State) (l : Nat) (f : Lane → Lane) : State := iMod s fun w => modLane w l f
/-- The word now acting. -/
def iWord (s : State) : Nat := s.issue.words.getD s.issue.widx 0
/-- Its address. -/
def iAddr (s : State) : Nat := s.issue.gpc + 4 * s.issue.widx
/-- Words of the group. -/
def iCount (s : State) : Nat := s.issue.words.length
/-- The address past the group (10 R218). -/
def iNext (s : State) : Nat := s.issue.gpc + 4 * iCount s

/-- The count of the group's REP, 0 for any other group (10 R221). -/
def iReps (s : State) : Nat :=
  let w := s.issue.words.headD 0
  if fld w 30 25 = 0x3F then w % 64 + 1 else 0

/-- The threads a word acts for: the bundle's lanes whose guard is true (10 R215). -/
def actLanes (s : State) (g : BitVec 3) : List Nat :=
  (lanesOf s.issue.lanes).filter fun l => getP (iLane s l) g.toNat

/-- The general registers a D, A or B field names, with a REP's step (10 R221). -/
def rD (s : State) {n : Nat} (d : BitVec n) : Nat := d.toNat + s.issue.stepD
def rA (s : State) {n : Nat} (a : BitVec n) : Nat := a.toNat + s.issue.stepA
def rB (s : State) {n : Nat} (b : BitVec n) : Nat := b.toNat + s.issue.stepB

/-- A fault found at issue: it ends the group, which writes nothing (00 R9, 10 R227). -/
def stopIssue (cause : Nat) (addr : Word) (lanes : W32) (s : State) : State :=
  let i := s.issue
  let s := raiseFault {
    cause := cause, addr := addr, core := i.core, slot := i.slot, lanes := lanes, pc := i.gpc,
    words := iCount s, widx := i.widx, word := iWord s, reps := iReps s } s
  { s with issue := { s.issue with fault := true } }

/-- The word must wait: the whole group stalls (02 R26). -/
def stallIssue (s : State) : State := { s with issue := { s.issue with stall := true } }

/-- The group cannot act before a page request is answered: its threads wait at it (23 R403). -/
def waitIssue (x : Nat) (r : Waiter) (va : Word) (lanes : W32) (s : State) (cause : Nat := 0x06) : State :=
  let (n, s) := postPage s x r
  let i := s.issue
  let s := (lanesOf i.lanes).foldl (fun s l => iModLane s l fun k =>
    { k with wait := some ⟨x, n, va, iWord s, i.widx, iCount s, lanes, cause⟩ }) s
  stallIssue s

/-- A result is pending on registers (0), predicates (1) or masks (2) of some lanes (02 R34). -/
def addPending (w : Warp) (kind num : Nat) (lanes : W32) (due : Nat) : Warp :=
  if (kind == 0 && num == 0) || (kind == 1 && num == 7) || lanes == 0 then w
  else { w with board := w.board ++ [⟨kind, num, lanes, due⟩] }

/-- Write a register of some lanes of the issuing warp, its result due after the pipe's latency (02 R35, log 7). -/
def putX (s : State) (n lat : Nat) (vs : List (Nat × Word)) : State :=
  iMod s fun w => addPending (vs.foldl (fun w e => modLane w e.1 fun l => setX l n e.2) w) 0 n (maskOf (vs.map (·.1))) (s.clk + lat)

/-- Write a predicate of some lanes. -/
def putP (s : State) (n lat : Nat) (vs : List (Nat × Bool)) : State :=
  iMod s fun w => addPending (vs.foldl (fun w e => modLane w e.1 fun l => setP l n e.2) w) 1 n (maskOf (vs.map (·.1))) (s.clk + lat)

/-- Mark lanes whose PC the group has settled. -/
def iMoved (s : State) (ls : List Nat) : State :=
  { s with issue := { s.issue with moved := s.issue.moved ||| maskOf ls } }

/-- The unit that an inline access of the issuing bundle is made by. -/
def iWho (s : State) (agent : Nat := 0) : Who := ⟨s.issue.core, (iWarp s).ctx, agent⟩

/-- A fault found after issue belongs to its own word: the threads it acted for stay at the group (10 R227, 22 R389). -/
def lateFault (cause : Nat) (addr : Word) (ls : List Nat) (s : State) : State :=
  let i := s.issue
  iMoved (raiseFault {
    cause := cause, addr := addr, core := i.core, slot := i.slot, lanes := maskOf ls, pc := i.gpc,
    words := iCount s, widx := i.widx, word := iWord s, reps := iReps s, byAccess := true } s) ls

/-- Run an inline access of the issuing word: a missing page makes the group wait and leaves nothing of it standing,
a failure after issue raises its cause for the word alone (10 R227, log 8).  `cause` is that of a request answered FAIL. -/
def inlineM {α : Type} (s : State) (ls : List Nat) (m : M α) (k : α → State → State) (cause : Nat := 0x06) : State :=
  match m s with
  | .ok a s => k a s
  | .error (.page x r va) _ => waitIssue x r va (maskOf ls) s cause
  | .error (.fail c va) s' => lateFault c va ls { s' with issue := s.issue }

/-- An acquire that has performed and whose sector has caught up with it holds nothing any more (05 R96). -/
def doneHold (s : State) (c : Nat) (e : Access) : Bool := e.kind == .hold && e.stamp.le (sectorOf s (secOf c)).a

/-- Has every earlier global access of these lanes performed, drained and reached its sector?  The model holds an E word,
a barrier arrival and a scratchpad release until then (05 R100, 12 R255, log 8). -/
def frontsEmpty (s : State) (ls : List Nat) : Bool := ls.all fun l => (iLane s l).front.all (doneHold s s.issue.core)

end Sys2Proof.Machine
end

