-- ==== Sys2Proof/Machine/Operands.lean ====
section
/-! DEFINITION. Every operand form: which registers, predicates, masks and tiles a word names, its pipe, and how its
immediate is formed (10 R214-R225, 12 R257, 14 R292, 15 R310). -/

namespace Sys2Proof.Machine

/-- The pipes (02 R32, R35). -/
inductive Pipe where
  | A | F | M | X | B | E | prefix_
  deriving DecidableEq, Repr

/-- What a word names. -/
structure Uses where
  /-- general registers read and written -/
  xr : List Nat := []
  xw : List Nat := []
  /-- predicates read and written, the guard aside -/
  pr : List Nat := []
  pw : List Nat := []
  /-- masks named, and written -/
  ms : List Nat := []
  mw : List Nat := []
  /-- tile on whose count the word stalls (09 R196) -/
  tile : Option Nat := none
  /-- may a REP step D, A, B: do the fields name general registers (10 R221) -/
  fd : Bool := false
  fa : Bool := false
  fb : Bool := false

/-- The major opcode of a word (10 R213). -/
def majorOf (i : Instr) : Nat := fld (encode i) 30 25

/-- The pipe of a word: fixed by its major but for VOTE (10 R213, R225). -/
def pipeOf (i : Instr) : Pipe :=
  let m := majorOf i
  if m ≤ 0x0B then .A else if m ≤ 0x0E then .B
  else if m = 0x0F then (if fld (encode i) 21 18 = 5 then .X else .B)
  else if m = 0x1B then .B else if m ≤ 0x1D then .M
  else if m ≤ 0x28 then .F else if m ≤ 0x2A then .X else if m ≤ 0x3C then .E
  else if m = 0x3D then .B else .prefix_

/-- The guard of a word (10 R215); EXT and REP carry none. -/
def guardOf (i : Instr) : Nat := if 0x3E ≤ majorOf i then 7 else fld (encode i) 24 22

/-- What a word names, with a REP's steps added to its D, A and B fields (10 R221). -/
def uses (sd sa sb : Nat) (i : Instr) : Uses :=
  match i with
  | .add _ _ _ d a b => { xr := [a.toNat + sa, b.toNat + sb], xw := [d.toNat + sd], fd := true, fa := true, fb := true }
  | .sub _ _ _ d a b => { xr := [a.toNat + sa, b.toNat + sb], xw := [d.toNat + sd], fd := true, fa := true, fb := true }
  | .minS _ _ _ d a b => { xr := [a.toNat + sa, b.toNat + sb], xw := [d.toNat + sd], fd := true, fa := true, fb := true }
  | .minZ _ _ _ d a b => { xr := [a.toNat + sa, b.toNat + sb], xw := [d.toNat + sd], fd := true, fa := true, fb := true }
  | .maxS _ _ _ d a b => { xr := [a.toNat + sa, b.toNat + sb], xw := [d.toNat + sd], fd := true, fa := true, fb := true }
  | .maxZ _ _ _ d a b => { xr := [a.toNat + sa, b.toNat + sb], xw := [d.toNat + sd], fd := true, fa := true, fb := true }
  | .abs _ _ _ d a => { xr := [a.toNat + sa], xw := [d.toNat + sd], fd := true, fa := true }
  | .and _ _ _ d a b => { xr := [a.toNat + sa, b.toNat + sb], xw := [d.toNat + sd], fd := true, fa := true, fb := true }
  | .or _ _ _ d a b => { xr := [a.toNat + sa, b.toNat + sb], xw := [d.toNat + sd], fd := true, fa := true, fb := true }
  | .xor _ _ _ d a b => { xr := [a.toNat + sa, b.toNat + sb], xw := [d.toNat + sd], fd := true, fa := true, fb := true }
  | .andn _ _ _ d a b => { xr := [a.toNat + sa, b.toNat + sb], xw := [d.toNat + sd], fd := true, fa := true, fb := true }
  | .shl _ _ _ d a b => { xr := [a.toNat + sa, b.toNat + sb], xw := [d.toNat + sd], fd := true, fa := true, fb := true }
  | .shr _ _ _ d a b => { xr := [a.toNat + sa, b.toNat + sb], xw := [d.toNat + sd], fd := true, fa := true, fb := true }
  | .sra _ _ _ d a b => { xr := [a.toNat + sa, b.toNat + sb], xw := [d.toNat + sd], fd := true, fa := true, fb := true }
  | .rot _ _ _ d a b => { xr := [a.toNat + sa, b.toNat + sb], xw := [d.toNat + sd], fd := true, fa := true, fb := true }
  | .mul _ _ _ d a b => { xr := [a.toNat + sa, b.toNat + sb], xw := [d.toNat + sd], fd := true, fa := true, fb := true }
  | .mulhS _ _ _ d a b => { xr := [a.toNat + sa, b.toNat + sb], xw := [d.toNat + sd], fd := true, fa := true, fb := true }
  | .mulhZ _ _ _ d a b => { xr := [a.toNat + sa, b.toNat + sb], xw := [d.toNat + sd], fd := true, fa := true, fb := true }
  | .mad _ _ _ d a b => { xr := [d.toNat + sd, a.toNat + sa, b.toNat + sb], xw := [d.toNat + sd], fd := true, fa := true, fb := true }
  | .divS _ _ _ d a b => { xr := [a.toNat + sa, b.toNat + sb], xw := [d.toNat + sd], fd := true, fa := true, fb := true }
  | .divZ _ _ _ d a b => { xr := [a.toNat + sa, b.toNat + sb], xw := [d.toNat + sd], fd := true, fa := true, fb := true }
  | .remS _ _ _ d a b => { xr := [a.toNat + sa, b.toNat + sb], xw := [d.toNat + sd], fd := true, fa := true, fb := true }
  | .remZ _ _ _ d a b => { xr := [a.toNat + sa, b.toNat + sb], xw := [d.toNat + sd], fd := true, fa := true, fb := true }
  | .clz _ _ _ d a => { xr := [a.toNat + sa], xw := [d.toNat + sd], fd := true, fa := true }
  | .popc _ _ _ d a => { xr := [a.toNat + sa], xw := [d.toNat + sd], fd := true, fa := true }
  | .brev _ _ _ d a => { xr := [a.toNat + sa], xw := [d.toNat + sd], fd := true, fa := true }
  | .bfx _ _ _ d a b => { xr := [a.toNat + sa, b.toNat + sb], xw := [d.toNat + sd], fd := true, fa := true, fb := true }
  | .bfi _ _ _ d a b => { xr := [d.toNat + sd, a.toNat + sa, b.toNat + sb], xw := [d.toNat + sd], fd := true, fa := true, fb := true }
  | .addi _ _ _ d a _ => { xr := [a.toNat + sa], xw := [d.toNat + sd], fd := true, fa := true }
  | .andi _ _ _ d a _ => { xr := [a.toNat + sa], xw := [d.toNat + sd], fd := true, fa := true }
  | .ori _ _ _ d a _ => { xr := [a.toNat + sa], xw := [d.toNat + sd], fd := true, fa := true }
  | .xori _ _ _ d a _ => { xr := [a.toNat + sa], xw := [d.toNat + sd], fd := true, fa := true }
  | .shli _ _ d a _ => { xr := [a.toNat + sa], xw := [d.toNat + sd], fd := true, fa := true }
  | .shri _ _ d a _ => { xr := [a.toNat + sa], xw := [d.toNat + sd], fd := true, fa := true }
  | .srai _ _ d a _ => { xr := [a.toNat + sa], xw := [d.toNat + sd], fd := true, fa := true }
  | .movi _ _ _ d _ _ => { xw := [d.toNat + sd], fd := true }
  | .cmpi _ _ _ _ p a _ => { xr := [a.toNat + sa], pw := [p.toNat], fa := true }
  | .cmp _ _ _ _ p a b => { xr := [a.toNat + sa, b.toNat + sb], pw := [p.toNat], fa := true, fb := true }
  | .pand _ _ p q r => { pr := [q.toNat, r.toNat], pw := [p.toNat] }
  | .por _ _ p q r => { pr := [q.toNat, r.toNat], pw := [p.toNat] }
  | .pxor _ _ p q r => { pr := [q.toNat, r.toNat], pw := [p.toNat] }
  | .pnot _ _ p q => { pr := [q.toNat], pw := [p.toNat] }
  | .sel _ _ d a b => { xr := [d.toNat + sd, a.toNat + sa, b.toNat + sb], xw := [d.toNat + sd], fd := true, fa := true, fb := true }
  | .mov _ _ d a => { xr := [a.toNat + sa], xw := [d.toNat + sd], fd := true, fa := true }
  | .lea _ _ d a b => { xr := [a.toNat + sa, b.toNat + sb], xw := [d.toNat + sd], fd := true, fa := true, fb := true }
  | .ixget _ _ d a => { xr := [a.toNat + sa], xw := [d.toNat + sd], fd := true, fa := true }
  | .ixput _ _ a b => { xr := [a.toNat + sa, b.toNat + sb], fa := true, fb := true }
  | .gets _ _ d _ => { xw := [d.toNat + sd], fd := true }
  | .puts _ _ b => { xr := [b.toNat + sb], fb := true }
  | .bra _ _ _ => {}
  | .call _ _ _ => { xw := [31] }
  | .brx _ _ a => { xr := [a.toNat + sa], fa := true }
  | .ret _ _ a => { xr := [a.toNat + sa], fa := true }
  | .exit _ _ => {}
  | .nop _ _ => {}
  | .yield _ _ => {}
  | .mjoin _ _ a => { ms := [a.toNat], mw := [a.toNat] }
  | .mleave _ _ a => { ms := [a.toNat], mw := [a.toNat] }
  | .mwait _ _ a => { ms := [a.toNat] }
  | .mset _ _ d a => { xr := [a.toNat + sa], ms := [d.toNat], mw := [d.toNat], fa := true }
  | .mget _ _ d a => { xw := [d.toNat + sd], ms := [a.toNat], fd := true }
  | .voteBallot _ _ d a => { xw := [d.toNat + sd], pr := [a.toNat], fd := true }
  | .voteAll _ _ d a => { pr := [a.toNat], pw := [d.toNat] }
  | .voteAny _ _ d a => { pr := [a.toNat], pw := [d.toNat] }
  | .voteUni _ _ d a => { pr := [a.toNat], pw := [d.toNat] }
  | .ldg _ _ _ _ d a _ => { xr := [a.toNat + sa], xw := [d.toNat + sd], fd := true, fa := true }
  | .stg _ _ _ _ d a _ => { xr := [d.toNat + sd, a.toNat + sa], fd := true, fa := true }
  | .lds _ _ _ _ d a _ => { xr := [a.toNat + sa], xw := [d.toNat + sd], fd := true, fa := true }
  | .sts _ _ _ _ d a _ => { xr := [d.toNat + sd, a.toNat + sa], fd := true, fa := true }
  | .atomAdd _ _ _ _ d a _ _ => { xr := [a.toNat + sa, a.toNat + sa + 1], xw := [d.toNat + sd], fd := true, fa := true }
  | .atomMinS _ _ _ _ d a _ _ => { xr := [a.toNat + sa, a.toNat + sa + 1], xw := [d.toNat + sd], fd := true, fa := true }
  | .atomMaxS _ _ _ _ d a _ _ => { xr := [a.toNat + sa, a.toNat + sa + 1], xw := [d.toNat + sd], fd := true, fa := true }
  | .atomAnd _ _ _ _ d a _ _ => { xr := [a.toNat + sa, a.toNat + sa + 1], xw := [d.toNat + sd], fd := true, fa := true }
  | .atomOr _ _ _ _ d a _ _ => { xr := [a.toNat + sa, a.toNat + sa + 1], xw := [d.toNat + sd], fd := true, fa := true }
  | .atomXor _ _ _ _ d a _ _ => { xr := [a.toNat + sa, a.toNat + sa + 1], xw := [d.toNat + sd], fd := true, fa := true }
  | .atomExch _ _ _ _ d a _ _ => { xr := [a.toNat + sa, a.toNat + sa + 1], xw := [d.toNat + sd], fd := true, fa := true }
  | .atomInc _ _ _ _ d a _ _ => { xr := [a.toNat + sa, a.toNat + sa + 1], xw := [d.toNat + sd], fd := true, fa := true }
  | .atomfAdd _ _ _ _ d a _ _ => { xr := [a.toNat + sa, a.toNat + sa + 1], xw := [d.toNat + sd], fd := true, fa := true }
  | .cas _ _ _ _ d a _ => { xr := [a.toNat + sa, a.toNat + sa + 1, a.toNat + sa + 2], xw := [d.toNat + sd], fd := true, fa := true }
  | .nibins _ _ _ d a _ _ => { xr := [a.toNat + sa, a.toNat + sa + 1], xw := [d.toNat + sd], fd := true, fa := true }
  | .redAdd _ _ _ _ d a _ _ => { xr := [d.toNat + sd, a.toNat + sa], fd := true, fa := true }
  | .redMinS _ _ _ _ d a _ _ => { xr := [d.toNat + sd, a.toNat + sa], fd := true, fa := true }
  | .redMaxS _ _ _ _ d a _ _ => { xr := [d.toNat + sd, a.toNat + sa], fd := true, fa := true }
  | .redAnd _ _ _ _ d a _ _ => { xr := [d.toNat + sd, a.toNat + sa], fd := true, fa := true }
  | .redOr _ _ _ _ d a _ _ => { xr := [d.toNat + sd, a.toNat + sa], fd := true, fa := true }
  | .redXor _ _ _ _ d a _ _ => { xr := [d.toNat + sd, a.toNat + sa], fd := true, fa := true }
  | .redFadd _ _ _ _ d a _ _ => { xr := [d.toNat + sd, a.toNat + sa], fd := true, fa := true }
  | .redInc _ _ _ _ d a _ _ => { xr := [d.toNat + sd, a.toNat + sa], fd := true, fa := true }
  | .waitv _ _ _ _ d a _ => { xr := [a.toNat + sa, a.toNat + sa + 1], xw := [d.toNat + sd], fd := true, fa := true }
  | .fence _ _ _ => {}
  | .fenceEng _ _ => {}
  | .barArrive _ _ d _ => { xr := [d.toNat + sd], xw := [(if d = 0 then 0 else d.toNat + 1)], fd := true }
  | .barSync _ _ d _ => { xr := [d.toNat + sd], fd := true }
  | .barWait _ _ d _ => { xr := [d.toNat + sd], fd := true }
  | .barSyncEng _ _ d _ => { xr := [d.toNat + sd], fd := true }
  | .barWaitEng _ _ d _ => { xr := [d.toNat + sd], fd := true }
  | .cbinit _ _ _ a b => { xr := [a.toNat + sa, b.toNat + sb], fa := true, fb := true }
  | .cbwait _ _ d a => { xr := [a.toNat + sa], xw := [d.toNat + sd], fd := true, fa := true }
  | .cbtest _ _ p a => { xr := [a.toNat + sa], pw := [p.toNat], fa := true }
  | .cbadd _ _ a b => { xr := [a.toNat + sa, b.toNat + sb], fa := true, fb := true }
  | .pref _ _ a b => { xr := [a.toNat + sa, b.toNat + sb], fa := true, fb := true }
  | .flushl _ _ a b => { xr := [a.toNat + sa, b.toNat + sb], fa := true, fb := true }
  | .fadd _ _ _ _ d a b => { xr := [a.toNat + sa, b.toNat + sb], xw := [d.toNat + sd], fd := true, fa := true, fb := true }
  | .fsub _ _ _ _ d a b => { xr := [a.toNat + sa, b.toNat + sb], xw := [d.toNat + sd], fd := true, fa := true, fb := true }
  | .fmul _ _ _ _ d a b => { xr := [a.toNat + sa, b.toNat + sb], xw := [d.toNat + sd], fd := true, fa := true, fb := true }
  | .ffma _ _ _ _ d a b => { xr := [d.toNat + sd, a.toNat + sa, b.toNat + sb], xw := [d.toNat + sd], fd := true, fa := true, fb := true }
  | .fminS _ _ d a b => { xr := [a.toNat + sa, b.toNat + sb], xw := [d.toNat + sd], fd := true, fa := true, fb := true }
  | .fminH _ _ _ d a b => { xr := [a.toNat + sa, b.toNat + sb], xw := [d.toNat + sd], fd := true, fa := true, fb := true }
  | .fmaxS _ _ d a b => { xr := [a.toNat + sa, b.toNat + sb], xw := [d.toNat + sd], fd := true, fa := true, fb := true }
  | .fmaxH _ _ _ d a b => { xr := [a.toNat + sa, b.toNat + sb], xw := [d.toNat + sd], fd := true, fa := true, fb := true }
  | .fabsS _ _ d a => { xr := [a.toNat + sa], xw := [d.toNat + sd], fd := true, fa := true }
  | .fabsH _ _ _ d a => { xr := [a.toNat + sa], xw := [d.toNat + sd], fd := true, fa := true }
  | .fnegS _ _ d a => { xr := [a.toNat + sa], xw := [d.toNat + sd], fd := true, fa := true }
  | .fnegH _ _ _ d a => { xr := [a.toNat + sa], xw := [d.toNat + sd], fd := true, fa := true }
  | .fcmpS _ _ _ p a b => { xr := [a.toNat + sa, b.toNat + sb], pw := [p.toNat], fa := true, fb := true }
  | .fcmpH _ _ _ _ p a b => { xr := [a.toNat + sa, b.toNat + sb], pw := [p.toNat], fa := true, fb := true }
  | .fclassS _ _ d a => { xr := [a.toNat + sa], xw := [d.toNat + sd], fd := true, fa := true }
  | .fclassH _ _ _ d a => { xr := [a.toNat + sa], xw := [d.toNat + sd], fd := true, fa := true }
  | .fcvt _ _ _ _ d a _ _ => { xr := [a.toNat + sa], xw := [d.toNat + sd], fd := true, fa := true }
  | .icvt _ _ _ d a _ _ => { xr := [a.toNat + sa], xw := [d.toNat + sd], fd := true, fa := true }
  | .fcvti _ _ _ d a _ _ => { xr := [a.toNat + sa], xw := [d.toNat + sd], fd := true, fa := true }
  | .pack _ _ d a _ _ _ => { xr := [a.toNat + sa, a.toNat + sa + 1], xw := [d.toNat + sd], fd := true, fa := true }
  | .unpk _ _ d a _ _ _ => { xr := [a.toNat + sa], xw := [d.toNat + sd], fd := true, fa := true }
  | .frcp _ _ d a => { xr := [a.toNat + sa], xw := [d.toNat + sd], fd := true, fa := true }
  | .frsq _ _ d a => { xr := [a.toNat + sa], xw := [d.toNat + sd], fd := true, fa := true }
  | .fsqrt _ _ d a => { xr := [a.toNat + sa], xw := [d.toNat + sd], fd := true, fa := true }
  | .fexp2 _ _ d a => { xr := [a.toNat + sa], xw := [d.toNat + sd], fd := true, fa := true }
  | .flog2 _ _ d a => { xr := [a.toNat + sa], xw := [d.toNat + sd], fd := true, fa := true }
  | .fsin _ _ d a => { xr := [a.toNat + sa], xw := [d.toNat + sd], fd := true, fa := true }
  | .fcos _ _ d a => { xr := [a.toNat + sa], xw := [d.toNat + sd], fd := true, fa := true }
  | .perm _ _ d a b => { xr := [a.toNat + sa, b.toNat + sb], xw := [d.toNat + sd], fd := true, fa := true, fb := true }
  | .shfl _ _ d a b => { xr := [a.toNat + sa, b.toNat + sb], xw := [d.toNat + sd], fd := true, fa := true, fb := true }
  | .lbcast _ _ d a _ => { xr := [a.toNat + sa], xw := [d.toNat + sd], fd := true, fa := true }
  | .tidset _ _ a b => { xr := [a.toNat + sa, b.toNat + sb], fa := true, fb := true }
  | .tidget _ _ d a => { xr := [a.toNat + sa], xw := [d.toNat + sd], fd := true, fa := true }
  | .wload _ _ a => { xr := [a.toNat + sa, a.toNat + sa + 1], fa := true }
  | .wloadsp _ _ a => { xr := [a.toNat + sa, a.toNat + sa + 1, a.toNat + sa + 2], fa := true }
  | .wswap _ _ => {}
  | .mstream _ _ a => { xr := [a.toNat + sa, a.toNat + sa + 1], fa := true }
  | .mdrain _ _ a => { xr := [a.toNat + sa, a.toNat + sa + 1], fa := true }
  | .episet _ _ _ a => { xr := [a.toNat + sa], fa := true }
  | .accz _ _ t => { tile := some t.toNat }
  | .accrd _ _ d a t => { xr := [a.toNat + sa], xw := [d.toNat + sd], tile := some t.toNat, fd := true, fa := true }
  | .accwr _ _ d a t => { xr := [d.toNat + sd, a.toNat + sa], tile := some t.toNat, fd := true, fa := true }
  | .spcmp _ _ d a _ => { xr := [a.toNat + sa], xw := [d.toNat + sd], fd := true, fa := true }
  | .kick _ _ _ a _ => { xr := [a.toNat + sa], fa := true }
  | .qstat _ _ d _ => { xw := [d.toNat + sd], fd := true }
  | .evset _ _ _ => {}
  | .evclr _ _ _ => {}
  | .fetch _ _ d a b => { xr := [a.toNat + sa, b.toNat + sb, a.toNat + sa + 1], xw := [d.toNat + sd], fd := true, fa := true, fb := true }
  | .eref _ _ d a p => { xr := [a.toNat + sa], xw := [d.toNat + sd], pw := [p.toNat], fd := true, fa := true }
  | .ecol _ _ d a b => { xr := [a.toNat + sa, b.toNat + sb], xw := [d.toNat + sd], fd := true, fa := true, fb := true }
  | .espan _ _ d a b => { xr := [a.toNat + sa, b.toNat + sb], xw := [d.toNat + sd], fd := true, fa := true, fb := true }
  | .enew _ _ d a b => { xr := [a.toNat + sa, b.toNat + sb], xw := [d.toNat + sd], fd := true, fa := true, fb := true }
  | .edel _ _ a => { xr := [a.toNat + sa], fa := true }
  | .eadd _ _ d a b => { xr := [d.toNat + sd, a.toNat + sa, b.toNat + sb], fd := true, fa := true, fb := true }
  | .erem _ _ a b => { xr := [a.toNat + sa, b.toNat + sb], fa := true, fb := true }
  | .vopen _ _ d a => { xr := [a.toNat + sa], xw := [d.toNat + sd], fd := true, fa := true }
  | .vclose _ _ a => { xr := [a.toNat + sa], fa := true }
  | .beamq _ _ a => { xr := [a.toNat + sa], fa := true }
  | .rayq _ _ a => { xr := [a.toNat + sa], fa := true }
  | .spawn _ _ a => { xr := [a.toNat + sa, a.toNat + sa + 1, a.toNat + sa + 2, a.toNat + sa + 3, a.toNat + sa + 4, a.toNat + sa + 5, a.toNat + sa + 6, a.toNat + sa + 7], fa := true }
  | .join _ _ _ a => { xr := [a.toNat + sa], fa := true }
  | .tdone _ _ => { xr := [7] }
  | .lqpub _ _ a b => { xr := [a.toNat + sa, b.toNat + sb], fa := true, fb := true }
  | .trap _ _ _ => {}
  | .bkpt _ _ _ => {}
  | .resumeReplay _ _ a => { xr := [a.toNat + sa], fa := true }
  | .resumeSkip _ _ a => { xr := [a.toNat + sa], fa := true }
  | .resumeEnd _ _ a => { xr := [a.toNat + sa], fa := true }
  | .extWord _ => {}
  | .repWord _ _ _ _ => {}
  | .powerOn => {}
  | .powerOff => {}
  | .pglimWrite _ _ => {}
  | .leaveRequest _ _ => {}
  | .leaveGrant _ => {}
  | .pcTableResort _ _ => {}
  | .threadWake _ _ _ => {}
  | .warpLoadComplete _ _ => {}
  | .warpDrainComplete _ _ => {}
  | .warpSaveComplete _ _ => {}
  | .warpExitComplete _ _ => {}
  | .instructionBoundarySave _ => {}
  | .reconvergencePreemption _ => {}
  | .reconvergenceTimeout _ => {}
  | .warpRestore _ _ _ _ => {}
  | .publicationArrival _ _ => {}
  | .lqtailWrite _ _ _ => {}
  | .lqctlErrClear _ _ => {}
  | .lqctlReset _ _ => {}
  | .lqctlEnable _ _ _ => {}
  | .queueNop _ _ => {}
  | .queueLaunch _ _ => {}
  | .queueWsync _ _ => {}
  | .queueFence _ _ => {}
  | .workgroupPlacement _ _ => {}
  | .gridEnd _ _ => {}
  | .taskDispatch _ => {}
  | .deckRefill _ => {}
  | .stealRequest _ => {}
  | .stealRoundBackoff _ => {}
  | .stealServe _ => {}
  | .stealFrameArrival _ => {}
  | .stealAck _ => {}
  | .stealNack _ => {}
  | .storeDrain _ _ _ _ => {}
  | .loadPerform _ _ _ _ => {}
  | .atomicPerform _ _ _ _ => {}
  | .causalDelivery _ _ => {}
  | .fenceComplete _ _ _ => {}
  | .pageRequestRetry _ _ => {}
  | .pageRequestFail _ _ => {}
  | .generationRejectReplay _ _ _ => {}
  | .asgenBump _ => {}
  | .asgenBumpComplete _ => {}
  | .rwinctlWrite _ _ _ => {}
  | .hbmrtctlWrite _ _ => {}
  | .hbmRetrain _ => {}
  | .remoteWriteApply _ => {}
  | .numctlWrite _ _ => {}
  | .numdropClear _ _ => {}
  | .syncPoint _ _ => {}
  | .syncPointResume _ _ => {}
  | .beamQueryStart _ => {}
  | .weightLoadStart _ _ => {}
  | .swapStart _ _ => {}
  | .streamStart _ _ => {}
  | .drainStart _ _ => {}
  | .episetStart _ _ => {}
  | .matrixCommandComplete _ _ => {}
  | .tidsetComplete _ => {}
  | .flushlComplete _ => {}
  | .chainCopy _ _ => {}
  | .chainStrided _ _ => {}
  | .chainGather _ _ => {}
  | .chainScatter _ _ => {}
  | .chainNmgather _ _ => {}
  | .chainMaskrow _ _ => {}
  | .chainInstar _ _ => {}
  | .rwrite _ _ => {}
  | .rreduce _ _ => {}
  | .chainLoop _ _ => {}
  | .chainCond _ _ => {}
  | .condPoll _ _ => {}
  | .chainQfence _ _ => {}
  | .chainFollow _ _ => {}
  | .chainSignal _ _ => {}
  | .chainEntryComplete _ _ => {}
  | .chainAccessFailed _ _ => {}
  | .partctlEnable _ _ => {}
  | .partitionResize _ _ => {}
  | .partitionResizeComplete _ => {}
  | .partctlDisable _ _ => {}
  | .ctxctlSave _ => {}
  | .ctxctlRun _ => {}
  | .ctxctlReset _ => {}
  | .ctxctlRetrap _ => {}
  | .sliceEnd _ => {}
  | .clusterReclaim _ _ => {}
  | .reclaimTimeout _ _ => {}
  | .blockReceive _ _ _ => {}
  | .blockResend _ => {}
  | .linkDown _ => {}
  | .linkRetrainComplete _ => {}
  | .rdreq _ _ _ => {}
  | .wrreq _ _ _ => {}
  | .mrdreq _ _ _ => {}
  | .mwrreq _ _ _ => {}
  | .rwritePacket _ _ _ => {}
  | .rreducePacket _ _ _ => {}
  | .timePacket _ _ _ => {}
  | .creditPacket _ _ => {}
  | .headcfgWrite _ _ _ => {}
  | .headsurfWrite _ _ _ => {}
  | .frameEncodeComplete _ _ => {}
  | .ptpctlWrite _ => {}
  | .ptpLock _ _ => {}
  | .bootStart => {}
  | .bootComplete => {}
  | .attestRequest => {}
  | .attestComplete => {}
  | .attnonceWrite _ _ => {}
  | .ckptNow _ => {}
  | .ckptPeriodExpiry _ => {}
  | .ckptStepsReached _ => {}
  | .ckptHashesReceived _ _ => {}
  | .ckptPeerTimeout _ => {}
  | .handlerDispatch _ _ => {}
  | .handlerResourceTimeout _ _ => {}
  | .watchdog _ _ => {}
  | .coreDisabled _ _ => {}
  | .pageScrub _ => {}
  | .registerWrite _ _ => {}
  | .softError _ _ => {}
  | .blockSend _ => {}
  | .ptpLockLoss => {}
  | .syncInterval => {}
  | .throttled _ => {}
  | .resultDelivered _ _ => {}

/-- The words that EXT may precede (10 R219). -/
def extTakes (i : Instr) : Bool :=
  match majorOf i with
  | 0x06 | 0x07 | 0x09 | 0x0A | 0x0C | 0x0D | 0x10 | 0x11 | 0x12 | 0x13 => true
  | _ => false

/-- The majors that REP may precede (10 R221). -/
def repTakes (i : Instr) : Bool :=
  let m := majorOf i
  m ≤ 0x0B || (0x10 ≤ m && m ≤ 0x18) || (0x20 ≤ m && m ≤ 0x2A)

/-- Is a word chained to the next (10 R217)?  EXT and REP carry no chain bit. -/
def chained (i : Instr) : Bool := majorOf i < 0x3E && bitAt (encode i) 31

/-- An immediate field of `n` bits with IMM25 of a preceding EXT above it: the number and its width (10 R220). -/
def immBits (s : State) (n v : Nat) : Nat × Nat :=
  match s.issue.ext with
  | some e => (e.toNat * 2 ^ n + v, n + 25)
  | none => (v, n)

/-- The immediate widened by its sign to 64 bits. -/
def immS (s : State) (n v : Nat) : Word := let (x, w) := immBits s n v; .ofInt 64 (signed w x)
/-- The immediate widened by zeros. -/
def immZ (s : State) (n v : Nat) : Word := .ofNat 64 (immBits s n v).1
/-- The byte offset of a load or store: OFF, or the signed EXT:OFF, times the size (12 R253). -/
def memOff (s : State) (k : BitVec 5) (size : Nat) : Word :=
  match s.issue.ext with
  | some _ => immS s 5 k.toNat * .ofNat 64 size
  | none => .ofNat 64 (k.toNat * size)
/-- The byte offset of a J-format target (10 R218, R220). -/
def jumpOff (s : State) (o : BitVec 22) : Int :=
  let (x, w) := immBits s 22 o.toNat
  4 * signed w x

/-- Sub(v,w,i) as a number (00 R9). -/
def sub_ (v : Word) (w i : Nat) : Nat := v.toNat / 2 ^ (w * i) % 2 ^ w

/-- A register built from its sub-elements of `w` bits (10 R223). -/
def packW (w : Nat) (f : Nat → Nat) : Word :=
  .ofNat 64 ((List.range (64 / w)).foldl (fun r i => r + f i % 2 ^ w * 2 ^ (w * i)) 0)

/-- The width that major 0x00 to 0x03 selects (11 R232). -/
def aluW (w : BitVec 2) : Nat := 64 / 2 ^ w.toNat
/-- The width of major 0x04 and 0x05 (11 R235). -/
def mulW (w : BitVec 1) : Nat := 64 / 2 ^ w.toNat

end Sys2Proof.Machine
end

