-- ==== Sys2Proof/Machine/Issue.lean ====
section
/-! DEFINITION. What the words of every family share at issue: the scratchpad and its posting floors (04 R71-R74,
05 R102, R103), barriers (12 R267), mask releases (02 R30, R31), exits (11 R247), branch targets (10 R218), fetching a
word (10 R216) and the issue of one word for the threads it acts for (10 R215, R227). -/

namespace Sys2Proof.Machine

/-! ### The scratchpad -/

/-- The name of a thread as a writer of the scratchpad. -/
def writerOf (w : Warp) (lane : Nat) : Nat := w.serial * 32 + lane + 1

/-- The 8-byte granules that a range touches (23 R409). -/
def padGranules (a n : Nat) : List Nat := ((List.range n).map fun i => (a + i) / 8 * 8).eraseDups

/-- Read the scratchpad in its own order; damaged granules read zero and are logged (23 R409). -/
def padRead (s : State) (c ctx agent a n : Nat) (kind : Nat := 0) : List Byte × State :=
  let k := coreOf s c
  let bad := (padGranules a n).filter k.padBad.contains
  ((List.range n).map fun i => if bad.contains ((a + i) / 8 * 8) then 0 else mget (0 : Byte) k.pad (a + i),
   bad.foldl (fun s g => logCore s c ctx 0x46 g (detail 0 agent kind 8)) s)

/-- A partial write of a damaged granule also stores zeros over the rest of it (23 R409). -/
def padRepair (k : Core) (a : Nat) (bs : List Byte) : Core :=
  let bad := (padGranules a bs.length).filter k.padBad.contains
  { k with padBad := k.padBad.filter (!bad.contains ·),
           pad := bad.foldl (fun m g => clearRange m g 8) k.pad }

/-- A thread's write: it stands behind the posting floor until it is posted (05 R103). -/
def padWrite (s : State) (c writer a : Nat) (bs : List Byte) : State :=
  modCore s c fun k =>
    let k := padRepair k a bs
    let seq := k.padSeq + 1
    let hist := (List.range bs.length).foldl (fun m i =>
      let h := mget [] m (a + i)
      let h := if h.isEmpty then [(0, mget 0 k.floors (a + i), mget (0 : Byte) k.pad (a + i))] else h
      mput [] m (a + i) (h ++ [(writer, seq, bs.getD i 0)])) k.hist
    { k with padSeq := seq, hist := hist, pad := memPuts k.pad a bs }

/-- An engine write that has landed is the byte's floor (05 R103). -/
def engWrite (s : State) (c a : Nat) (bs : List Byte) : State :=
  modCore s c fun k =>
    let k := padRepair k a bs
    { k with padSeq := k.padSeq + 1, pad := memPuts k.pad a bs,
             hist := k.hist.filter fun e => !(decide (a ≤ e.1) && decide (e.1 < a + bs.length)),
             floors := (List.range bs.length).foldl (fun m i => mput 0 m (a + i) (k.padSeq + 1)) k.floors }

/-- An engine reads a byte: the floor or any later write, at a free choice (05 R103, log 4). -/
def engByte (c a : Nat) (s : State) : Byte × State :=
  let k := coreOf s c
  match mget [] k.hist a with
  | [] => (mget (0 : Byte) k.pad a, s)
  | h =>
    let (i, s) := pick s h.length
    ((h.getD i (0, 0, 0)).2.2, s)

/-- An engine reads a range of whole bytes, each by itself. -/
def engBytes (c a : Nat) : Nat → State → List Byte × State
  | 0, s => ([], s)
  | n + 1, s =>
    let (b, s) := engByte c a s
    let (t, s) := engBytes c (a + 1) n s
    (b :: t, s)

/-- A read that found damaged granules: their bytes are zero, and each granule is logged once (23 R409). -/
def engFound (c ctx agent a : Nat) (bs : List Byte) (s : State) : List Byte × State :=
  let bad := (padGranules a bs.length).filter (coreOf s c).padBad.contains
  (bs.zipIdx.map fun e => if bad.contains ((a + e.2) / 8 * 8) then 0 else e.1,
   bad.foldl (fun s g => logCore s c ctx 0x46 g (detail 0 agent 0 8)) s)

/-- An engine reads a range. -/
def engRead (s : State) (c ctx agent a n : Nat) : List Byte × State :=
  let (bs, s) := engBytes c a n s
  engFound c ctx agent a bs s

/-- A byte as it stood after the write of sequence number `t`, which is not before its floor. -/
def byteAt (k : Core) (a t : Nat) : Byte :=
  match (mget [] k.hist a).reverse.find? fun e => e.2.1 ≤ t with
  | some e => e.2.2
  | none => mget (0 : Byte) k.pad a

/-- The moments, as sequence numbers, at which a range may be read untorn: that of its latest floor and those of the later
writes to it (05 R103, R106). -/
def unitTimes (k : Core) (a n : Nat) : List Nat :=
  let at_ := (List.range n).map (a + ·)
  let low := at_.foldl (fun m b => max m (mget 0 k.floors b)) 0
  (low :: ((at_.flatMap fun b => (mget [] k.hist b).map (·.2.1)).filter (low < ·))).eraseDups

/-- An engine reads a range untorn, as it stood at one moment (05 R106). -/
def engUnit (s : State) (c ctx agent a n : Nat) : List Byte × State :=
  let ts := unitTimes (coreOf s c) a n
  let (i, s) := if ts.length ≤ 1 then (0, s) else pick s ts.length
  engFound c ctx agent a ((List.range n).map fun j => byteAt (coreOf s c) (a + j) (ts.getD i 0)) s

/-- A number of `n` bytes that an engine reads. -/
def engReadN (s : State) (c ctx agent a n : Nat) : Nat × State :=
  let (b, s) := engRead s c ctx agent a n
  (ofBytes b, s)

/-- Drop the writes older than the last one by `writer` up to sequence number `seq`. -/
def postHist (writer seq : Nat) (h : PadHist) : PadHist :=
  let n := (h.reverse.takeWhile fun e => !(e.1 == writer && decide (e.2.1 ≤ seq))).length
  if n == h.length then h else h.drop (h.length - n - 1)

/-- Post a writer's writes up to a sequence number (05 R103). -/
def postSts (s : State) (c writer seq : Nat) : State :=
  modCore s c fun k =>
    let posted := k.hist.map fun e => (e.1, postHist writer seq e.2)
    { k with hist := posted.filter fun e => decide (1 < e.2.length),
             floors := posted.foldl (fun m e => mput 0 m e.1 ((e.2.headD (0, 0, 0)).2.1)) k.floors }

/-- Post everything that some lanes of a warp have stored. -/
def postLanes (s : State) (c slot : Nat) (ls : List Nat) : State :=
  ls.foldl (fun s l => postSts s c (writerOf (warpOf s c slot) l) (coreOf s c).padSeq) s

/-- Does a range overlap one that a chain entry has registered (04 R74)? -/
def rangeHeld (s : State) (c a n : Nat) : Bool :=
  (coreOf s c).ranges.any fun r => decide (a < r.2.1) && decide (r.1 < a + n)

/-! ### Barriers -/

/-- Threads of a work-group that have not exited. -/
def groupLive (s : State) (c g : Nat) : Nat :=
  (groupOf s c g).slots.foldl (fun n sl => n + (liveLanes (warpOf s c sl)).length) 0

/-- End a barrier's phase: an .eng arrival posts every arriving thread's earlier STS (12 R267). -/
def endPhase (s : State) (c g n : Nat) : State :=
  let b := mget {} (groupOf s c g).bars n
  let s := if b.eng then b.arrivals.foldl (fun s e => postSts s c e.1 e.2) s else s
  let b' : Barrier := { phase := (b.phase + 1) % 65536, past := mput [] b.past b.phase b.arrivals }
  modGroup s c g fun x => { x with bars := mput {} x.bars n b' }

/-- Done(b) of 12 R267. -/
def barDone (s : State) (c g : Nat) (b : Barrier) : Bool :=
  if b.expect != 0 then b.count == b.expect else decide (groupLive s c g ≤ b.count)

/-- An exit evaluates Done for each barrier with EXPECT 0 and SET 1 (12 R267). -/
def exitBarriers (s : State) (c g : Nat) : State :=
  (groupOf s c g).bars.foldl (fun s e =>
    let b := mget {} (groupOf s c g).bars e.1
    if b.set && b.expect == 0 && barDone s c g b then endPhase s c g e.1 else s) s

/-! ### Parking, waking, mask releases, exits -/

/-- A thread goes on at the group after the one it parked at (02 R36). -/
def wakeLane (x : Lane) : Lane :=
  { x with st := .ready, pc := (x.pc + 4 * x.park.words) % 2 ^ 48, skip := 0, park := {} }

/-- Does a lane wait at mask `k`, its earlier fences complete (02 R30, 11 R251)? -/
def waitsOn (k : Nat) (x : Lane) : Bool :=
  x.st == .parked && x.park.kind == 5 && x.park.op == .ofNat 64 k && x.front.all fun a => a.kind != .fence

/-- A new FID from the warp's counter, 1 to 255 (02 R29). -/
def takeFid (w : Warp) : Nat × Warp := (w.fidNext, { w with fidNext := w.fidNext % 255 + 1 })

/-- Give the lanes of one set a new fragment record: parent of its lowest lane, siblings the rest of `all` (02 R29). -/
def newFragment (old : Warp) (all set : List Nat) (w : Warp) : Warp :=
  let (f, w) := takeFid w
  let parent := (laneOf old (set.headD 0)).fid
  let sib := maskOf (all.filter (!set.contains ·))
  set.foldl (fun w l => modLane w l fun x => { x with fid := f, parent := parent, sib := sib }) w

/-- The parked warp takes slots again (02 R37). -/
def unparkWarp (w : Warp) : Warp := if w.st == .parked then { w with st := .ready } else w

/-- Evaluate the MWAIT release of mask `k` (02 R30, R31). -/
def maskRelease (c slot k : Nat) (s : State) : State :=
  let w := warpOf s c slot
  let ls := lanesOf (mget 0 w.masks k)
  if ls.isEmpty || !(ls.all fun l => waitsOn k (laneOf w l)) then s
  else
    let low := laneOf w (ls.headD 0)
    if ls.all fun l => (laneOf w l).pc == low.pc then
      let w := if ls == liveLanes w
        then ls.foldl (fun w l => modLane w l fun x => { x with fid := 0, parent := 0, sib := 0 }) w
        else newFragment w (liveLanes w) ls w
      let w := ls.foldl (fun w l => modLane w l wakeLane) w
      let s := setWarp s c slot (unparkWarp { w with prefer := if w.prefer == 0 then maskOf ls else w.prefer })
      modGroup s c w.group fun g => { g with parkedSince := none }
    else raiseFault {
      cause := 0x0B, core := c, slot := slot, lanes := maskOf ls, pc := low.pc, words := low.park.words,
      widx := low.park.widx, word := low.park.word } s

/-- Some lanes exit: their bits leave every mask, releases and barriers are evaluated (11 R247, 02 R31, 12 R267). -/
def exitLanes (c slot : Nat) (ls : List Nat) (s : State) : State :=
  let w := warpOf s c slot
  let m := maskOf ls
  let changed := (List.range 12).filter fun k => mget 0 w.masks k &&& m != 0
  let w := ls.foldl (fun w l => modLane w l fun x => { x with st := .exited, park := {}, rep := 0 }) w
  let w := changed.foldl (fun w k => { w with masks := mput 0 w.masks k (mget 0 w.masks k &&& ~~~m) }) w
  let s := setWarp s c slot w
  let s := changed.foldl (fun s k => maskRelease c slot k s) s
  exitBarriers s c w.group

/-- What a warp's slot state becomes once its threads have moved (02 R37). -/
def settleWarp (w : Warp) : Warp :=
  match w.st with
  | .ready | .current | .parked =>
    let live := liveLanes w
    if live.isEmpty then { w with st := .exiting }
    else if live.all fun l => (laneOf w l).st == .parked then { w with st := .parked }
    else if w.st == .parked then { w with st := .ready } else w
  | _ => w

/-- Is every live thread of a group parked (22 R400)? -/
def allParked (s : State) (c g : Nat) : Bool :=
  let ls := (groupOf s c g).slots.flatMap fun sl => (liveLanes (warpOf s c sl)).map fun l => (laneOf (warpOf s c sl) l).st
  !ls.isEmpty && ls.all (· == .parked)

/-- A warp that is no longer ready is its scheduler's current warp no more (02 R33). -/
def leaveCurrent (c slot : Nat) (s : State) : State :=
  let w := warpOf s c slot
  if w.st != .ready && w.st != .current && mget 0 (coreOf s c).cur (slot / 16) == slot + 1
  then modCore s c fun k => { k with cur := mput 0 k.cur (slot / 16) 0 } else s

/-- Is a warp fully reconverged (02 R39)? -/
def reconverged (w : Warp) : Bool :=
  match liveLanes w with
  | [] => true
  | l :: t =>
    let x := laneOf w l
    let m := maskOf (l :: t)
    (t.all fun i => (laneOf w i).pc == x.pc && (laneOf w i).rep == x.rep)
    && (List.range 12).all fun k => mget 0 w.masks k == 0 || mget 0 w.masks k == m

/-- Does an engine of the core still hold a command or a chain of a warp? -/
def engineHolds (k : Core) (serial : Nat) : Bool :=
  (k.matrix.cmds.any fun x => x.src.serial == serial)
  || k.queues.any fun q => (q.2.heads.any fun h => h.src.serial == serial) ||
    (match q.2.cur with | some h => h.src.serial == serial | none => false)

/-- May a warp enter DRAINING under a mode: 1 at once, 2 when fully reconverged?  A halted group goes once its skid is over;
an ended warp whose engine words cannot complete before the save goes with them (02 R38, R39, 09 R212, log 12). -/
def mayDrain (s : State) (c : Nat) (mode : Nat) (w : Warp) : Bool :=
  match w.st with
  | .ready | .current | .parked => !w.halting && (mode == 1 || reconverged w)
  | .halted => (groupOf s c w.group).slots.all fun sl =>
      [WarpSt.halted, .exiting, .draining, .saving, .free].contains (warpOf s c sl).st
  | .exiting => engineHolds (coreOf s c) w.serial
  | _ => false

/-- A warp of a core that leaves its holder enters DRAINING as soon as it may; one that drains by reconvergence is saved
compactly.  A released bundle's claim on the next slot does not outlast a save (02 R31, log 26). -/
def drainWarp (c slot : Nat) (s : State) : State :=
  let mode := (coreOf s c).leaving
  if mode != 0 && mayDrain s c mode (warpOf s c slot) then
    leaveCurrent c slot (modWarp s c slot fun w => { w with st := .draining, compact := mode == 2 && w.st != .halted, prefer := 0 })
  else s

/-- Every warp of a core that may drain does so. -/
def drainCore (c : Nat) (s : State) : State := (coreOf s c).warps.foldl (fun s e => drainWarp c e.1 s) s

/-- Settle a warp, its scheduler's choice and its group's watchdog time; what it has become is an instruction boundary, at which
it may enter DRAINING (02 R33, R37-R39, 22 R400). -/
def settleAt (c slot : Nat) (s : State) : State :=
  let s := drainWarp c slot (leaveCurrent c slot (modWarp s c slot settleWarp))
  let g := (warpOf s c slot).group
  let all := allParked s c g
  modGroup s c g fun x => { x with parkedSince := if all then (x.parkedSince.getD (watchTime s x.ctx)) else none }

/-- The threads a word parks: PARKKIND, PARKOP and destination (02 R36, R40). -/
def parkLanes (kind dst : Nat) (eng : Bool) (vs : List (Nat × Word)) (s : State) : State :=
  let n := iCount s
  let wd := iWord s
  let ix := s.issue.widx
  iMoved (vs.foldl (fun s e => iModLane s e.1 fun x =>
    { x with st := .parked, pc := s.issue.gpc,
             park := { kind := kind, op := e.2, words := n, word := wd, widx := ix, dst := dst, eng := eng } }) s)
    (vs.map (·.1))

/-! ### Code -/

/-- The instruction cache takes in a word it has read. -/
def icacheFill (c : Nat) (l : CacheLine) (s : State) : State :=
  modCore s c fun k => { k with icache := l :: k.icache.filter fun o => !(o.ctx == l.ctx && o.gen == l.gen && o.va == l.va) }

/-- A word of code as a core fetches it: EXEC is needed (10 R216, 04 R82).  A word that the instruction cache took in under
the same generation may still be there when memory has changed since: that is a free choice (04 R86, log 46). -/
def fetchWord (w : Who) (pc : Nat) : M Nat := do
  let w := { w with agent := 1 }
  let pa ← translate w (.ofNat 64 pc) 2
  if isDevice pa then
    modify (afterRead (pa / 8 * 8))
    return (readRegister (← get) (pa / 8 * 8)).toNat / 2 ^ (8 * (pa % 8)) % 2 ^ 32
  let bs ← readPhys w pa 4
  let s ← get
  let l : CacheLine := ⟨w.ctx, (ctxOf s w.ctx).gen, pc, bs⟩
  match (coreOf s w.core).icache.find? fun o => o.ctx == l.ctx && o.gen == l.gen && o.va == pc && o.bytes != bs with
  | none => modify (icacheFill w.core l); return ofBytes bs
  | some o =>
    let (held, s) := pick s 2
    if held = 0 then set (icacheFill w.core l s); return ofBytes bs
    else set s; return ofBytes o.bytes

/-- Is a word EXT or REP? -/
def isPrefix (x : Nat) : Bool := decide (0x3E ≤ fld x 30 25)

/-- Does a transfer target break R218 or R246: not a 48-bit multiple of 4, or inside a group of its packet? -/
def badTarget (w : Who) (t : Nat) (s : State) : Bool :=
  t % 4 != 0 || decide (2 ^ 48 ≤ t) || (t % 12 != 0 && match quiet s (fetchWord w (t - 4)) with
    | some p => bitAt p 31 || isPrefix p
    | none => false)

/-- The page request that stands between a target and its check: the word before it in its packet cannot be read yet. -/
def targetPage (w : Who) (t : Nat) (s : State) : Option (Nat × Waiter × Word) :=
  if t % 4 != 0 || decide (2 ^ 48 ≤ t) || t % 12 == 0 then none
  else match fetchWord w (t - 4) s with
    | .error (.page x r va) _ => some (x, r, va)
    | _ => none

/-! ### One word -/

/-- The first register of a word at or above REGS (04 R69, 10 R227). -/
def badReg (s : State) (i : Instr) : Option Nat :=
  let u := uses s.issue.stepD s.issue.stepA s.issue.stepB i
  (u.xr ++ u.xw).find? fun n => decide ((iWarp s).regsN ≤ n)

/-- What a check of the threads answers: a cause and ADDR, or nothing. -/
abbrev Check := List Nat → State → Option (Nat × Word)

/-- A word whose threads raise nothing at issue. -/
def noCheck : Check := fun _ _ => none

/-- Issue one word: branch targets, register range, its own issue-time faults, then its effect for the threads it acts
for; a word that acts for no thread does nothing more (10 R215, R227). -/
def issueWord (i : Instr) (g : BitVec 3) (target own : Check) (eff : List Nat → State → State) (s : State) : State :=
  let ls := actLanes s g
  match if ls.isEmpty then none else target ls s with
  | some (c, a) => stopIssue c a (maskOf ls) s
  | none =>
    match badReg s i with
    | some n => stopIssue 0x09 (.ofNat 64 n) s.issue.lanes s
    | none =>
      if ls.isEmpty then s else
      match own ls s with
      | some (c, a) => stopIssue c a (maskOf ls) s
      | none => eff ls s

/-- Issue a word that names a target for each thread: the check of a target waits until the word before it can be read
(10 R218, 23 R403). -/
def issueTarget (i : Instr) (g : BitVec 3) (dest : State → Nat → Option Nat) (check own : Check)
    (eff : List Nat → State → State) (s : State) : State :=
  let ls := actLanes s g
  if !ls.isEmpty && (check ls s).isSome then issueWord i g check own eff s
  else match ls.findSome? fun l => (dest s l).bind fun t => targetPage (iWho s) t s with
    | some (x, r, va) => waitIssue x r va (maskOf ls) s
    | none => issueWord i g check own eff s

/-- A word that computes one register of each thread from what the thread holds. -/
def issueX (i : Instr) (g : BitVec 3) (d lat : Nat) (f : State → Nat → Word) (s : State) : State :=
  issueWord i g noCheck noCheck (fun ls s => putX s d lat (ls.map fun l => (l, f s l))) s

/-- A word that computes one predicate of each thread. -/
def issueP (i : Instr) (g : BitVec 3) (d lat : Nat) (f : State → Nat → Bool) (s : State) : State :=
  issueWord i g noCheck noCheck (fun ls s => putP s d lat (ls.map fun l => (l, f s l))) s

/-- The first lane, ascending, that a check of one lane fails. -/
def firstBad (f : State → Nat → Option (Nat × Word)) : Check := fun ls s => ls.findSome? (f s)

/-- Does a TIDSET of one of these threads hold its later E words (14 R296)? -/
def tidHeld (s : State) (ls : List Nat) : Bool := ls.any fun l => (laneOf (iWarp s) l).tidWait

/-- An E-pipe word's issue is a release at .sector and posts its threads' earlier STS (05 R100, R103): it waits for
their global accesses and posts (log 8). -/
def issueE (i : Instr) (g : BitVec 3) (own : Check) (eff : List Nat → State → State) (s : State) : State :=
  issueWord i g noCheck own (fun ls s =>
    if frontsEmpty s ls && !tidHeld s ls then eff ls (postLanes s s.issue.core s.issue.slot ls) else stallIssue s) s

end Sys2Proof.Machine
end

