-- ==== Sys2Proof/Machine/Integer.lean ====
section
/-! DEFINITION. Integer, immediate, compare, predicate, move and system-value words: majors 0x00 to 0x0B (11 R232-R243). -/

namespace Sys2Proof.Machine

/-- A binary member of the integer ALU: every sub-element on its own (11 R233). -/
def alu2 (i : Instr) (g : BitVec 3) (d a b : BitVec 6) (w lat : Nat) (f : Nat → Nat → Nat → Nat) (s : State) : State :=
  issueX i g (rD s d) lat (fun s l =>
    let x := getX (iLane s l) (rA s a)
    let y := getX (iLane s l) (rB s b)
    packW w fun k => f w (sub_ x w k) (sub_ y w k)) s

/-- A member that also reads xd (11 R235). -/
def alu3 (i : Instr) (g : BitVec 3) (d a b : BitVec 6) (w lat : Nat) (f : Nat → Nat → Nat → Nat → Nat) (s : State) : State :=
  issueX i g (rD s d) lat (fun s l =>
    let x := getX (iLane s l) (rA s a)
    let y := getX (iLane s l) (rB s b)
    let z := getX (iLane s l) (rD s d)
    packW w fun k => f w (sub_ x w k) (sub_ y w k) (sub_ z w k)) s

/-- A unary member. -/
def alu1 (i : Instr) (g : BitVec 3) (d a : BitVec 6) (w lat : Nat) (f : Nat → Nat → Nat) (s : State) : State :=
  issueX i g (rD s d) lat (fun s l =>
    let x := getX (iLane s l) (rA s a)
    packW w fun k => f w (sub_ x w k)) s

/-- The result `res` of each member for sub-elements of `w` bits (11 R233, R235-R237); the caller truncates. -/
def opAdd (_ a b : Nat) : Nat := a + b
def opSub (w a b : Nat) : Nat := truncI ((a : Int) - b) w
def opMinS (w a b : Nat) : Nat := if signed w a ≤ signed w b then a else b
def opMinZ (_ a b : Nat) : Nat := min a b
def opMaxS (w a b : Nat) : Nat := if signed w a ≤ signed w b then b else a
def opMaxZ (_ a b : Nat) : Nat := max a b
def opAbs (w a : Nat) : Nat := (signed w a).natAbs
def opAnd (_ a b : Nat) : Nat := a &&& b
def opOr (_ a b : Nat) : Nat := a ||| b
def opXor (_ a b : Nat) : Nat := a ^^^ b
def opAndn (w a b : Nat) : Nat := a &&& (2 ^ w - 1 - b)
def opShl (w a b : Nat) : Nat := a * 2 ^ (b % w)
def opShr (w a b : Nat) : Nat := a / 2 ^ (b % w)
def opSra (w a b : Nat) : Nat := truncI (signed w a / (2 ^ (b % w) : Nat)) w
def opRot (w a b : Nat) : Nat := a * 2 ^ (b % w) % 2 ^ w + a / 2 ^ (w - b % w)
def opMul (_ a b : Nat) : Nat := a * b
def opMulhS (w a b : Nat) : Nat := truncI (signed w a * signed w b / (2 ^ w : Nat)) w
def opMulhZ (w a b : Nat) : Nat := a * b / 2 ^ w
def opMad (_ a b d : Nat) : Nat := a * b + d
/-- Division toward zero; by zero it gives all ones (11 R236). -/
def opDivS (w a b : Nat) : Nat := if b = 0 then 2 ^ w - 1 else truncI ((signed w a).tdiv (signed w b)) w
def opDivZ (w a b : Nat) : Nat := if b = 0 then 2 ^ w - 1 else a / b
/-- The remainder has the dividend's sign; by zero it is the dividend (11 R236). -/
def opRemS (w a b : Nat) : Nat := if b = 0 then a else truncI (signed w a - signed w b * (signed w a).tdiv (signed w b)) w
def opRemZ (_ a b : Nat) : Nat := if b = 0 then a else a % b
def opClz (w a : Nat) : Nat := if a = 0 then w else w - 1 - Nat.log2 a
def opPopc (w a : Nat) : Nat := (List.range w).foldl (fun n k => n + a / 2 ^ k % 2) 0
def opBrev (w a : Nat) : Nat := (List.range w).foldl (fun n k => n + a / 2 ^ k % 2 * 2 ^ (w - 1 - k)) 0
/-- The field length that BFX and BFI use (11 R237). -/
def fieldLen (w b : Nat) : Nat := if fld b 5 0 < w then min (fld b 14 8) (w - fld b 5 0) else 0
def opBfx (w a b : Nat) : Nat :=
  let n := fieldLen w b
  if n = 0 then 0
  else
    let f := a / 2 ^ fld b 5 0 % 2 ^ n
    if bitAt b 15 then truncI (signed n f) w else f
def opBfi (w a b d : Nat) : Nat :=
  let n := fieldLen w b
  let p := fld b 5 0
  d - d / 2 ^ p % 2 ^ n * 2 ^ p + a % 2 ^ n * 2 ^ p

/-- ADD (11 R233). -/
def execAdd (c : BitVec 1) (w : BitVec 2) (g : BitVec 3) (d a b : BitVec 6) (s : State) : Host.Outcome State Fault Refusal :=
  .next (alu2 (.add c w g d a b) g d a b (aluW w) 4 opAdd s)

/-- SUB (11 R233). -/
def execSub (c : BitVec 1) (w : BitVec 2) (g : BitVec 3) (d a b : BitVec 6) (s : State) : Host.Outcome State Fault Refusal :=
  .next (alu2 (.sub c w g d a b) g d a b (aluW w) 4 opSub s)

/-- MIN.s (11 R233). -/
def execMinS (c : BitVec 1) (w : BitVec 2) (g : BitVec 3) (d a b : BitVec 6) (s : State) : Host.Outcome State Fault Refusal :=
  .next (alu2 (.minS c w g d a b) g d a b (aluW w) 4 opMinS s)

/-- MIN.z (11 R233). -/
def execMinZ (c : BitVec 1) (w : BitVec 2) (g : BitVec 3) (d a b : BitVec 6) (s : State) : Host.Outcome State Fault Refusal :=
  .next (alu2 (.minZ c w g d a b) g d a b (aluW w) 4 opMinZ s)

/-- MAX.s (11 R233). -/
def execMaxS (c : BitVec 1) (w : BitVec 2) (g : BitVec 3) (d a b : BitVec 6) (s : State) : Host.Outcome State Fault Refusal :=
  .next (alu2 (.maxS c w g d a b) g d a b (aluW w) 4 opMaxS s)

/-- MAX.z (11 R233). -/
def execMaxZ (c : BitVec 1) (w : BitVec 2) (g : BitVec 3) (d a b : BitVec 6) (s : State) : Host.Outcome State Fault Refusal :=
  .next (alu2 (.maxZ c w g d a b) g d a b (aluW w) 4 opMaxZ s)

/-- ABS (11 R233). -/
def execAbs (c : BitVec 1) (w : BitVec 2) (g : BitVec 3) (d a : BitVec 6) (s : State) : Host.Outcome State Fault Refusal :=
  .next (alu1 (.abs c w g d a) g d a (aluW w) 4 opAbs s)

/-- AND (11 R233). -/
def execAnd (c : BitVec 1) (w : BitVec 2) (g : BitVec 3) (d a b : BitVec 6) (s : State) : Host.Outcome State Fault Refusal :=
  .next (alu2 (.and c w g d a b) g d a b (aluW w) 4 opAnd s)

/-- OR (11 R233). -/
def execOr (c : BitVec 1) (w : BitVec 2) (g : BitVec 3) (d a b : BitVec 6) (s : State) : Host.Outcome State Fault Refusal :=
  .next (alu2 (.or c w g d a b) g d a b (aluW w) 4 opOr s)

/-- XOR (11 R233). -/
def execXor (c : BitVec 1) (w : BitVec 2) (g : BitVec 3) (d a b : BitVec 6) (s : State) : Host.Outcome State Fault Refusal :=
  .next (alu2 (.xor c w g d a b) g d a b (aluW w) 4 opXor s)

/-- ANDN (11 R233). -/
def execAndn (c : BitVec 1) (w : BitVec 2) (g : BitVec 3) (d a b : BitVec 6) (s : State) : Host.Outcome State Fault Refusal :=
  .next (alu2 (.andn c w g d a b) g d a b (aluW w) 4 opAndn s)

/-- SHL (11 R233). -/
def execShl (c : BitVec 1) (w : BitVec 2) (g : BitVec 3) (d a b : BitVec 6) (s : State) : Host.Outcome State Fault Refusal :=
  .next (alu2 (.shl c w g d a b) g d a b (aluW w) 4 opShl s)

/-- SHR (11 R233). -/
def execShr (c : BitVec 1) (w : BitVec 2) (g : BitVec 3) (d a b : BitVec 6) (s : State) : Host.Outcome State Fault Refusal :=
  .next (alu2 (.shr c w g d a b) g d a b (aluW w) 4 opShr s)

/-- SRA (11 R233). -/
def execSra (c : BitVec 1) (w : BitVec 2) (g : BitVec 3) (d a b : BitVec 6) (s : State) : Host.Outcome State Fault Refusal :=
  .next (alu2 (.sra c w g d a b) g d a b (aluW w) 4 opSra s)

/-- ROT (11 R233). -/
def execRot (c : BitVec 1) (w : BitVec 2) (g : BitVec 3) (d a b : BitVec 6) (s : State) : Host.Outcome State Fault Refusal :=
  .next (alu2 (.rot c w g d a b) g d a b (aluW w) 4 opRot s)

/-- MUL (11 R235). -/
def execMul (c w : BitVec 1) (g : BitVec 3) (d a b : BitVec 6) (s : State) : Host.Outcome State Fault Refusal :=
  .next (alu2 (.mul c w g d a b) g d a b (mulW w) 6 opMul s)

/-- MULH.s (11 R235). -/
def execMulhS (c w : BitVec 1) (g : BitVec 3) (d a b : BitVec 6) (s : State) : Host.Outcome State Fault Refusal :=
  .next (alu2 (.mulhS c w g d a b) g d a b (mulW w) 6 opMulhS s)

/-- MULH.z (11 R235). -/
def execMulhZ (c w : BitVec 1) (g : BitVec 3) (d a b : BitVec 6) (s : State) : Host.Outcome State Fault Refusal :=
  .next (alu2 (.mulhZ c w g d a b) g d a b (mulW w) 6 opMulhZ s)

/-- MAD (11 R235). -/
def execMad (c w : BitVec 1) (g : BitVec 3) (d a b : BitVec 6) (s : State) : Host.Outcome State Fault Refusal :=
  .next (alu3 (.mad c w g d a b) g d a b (mulW w) 6 opMad s)

/-- DIV.s (11 R235, R236). -/
def execDivS (c w : BitVec 1) (g : BitVec 3) (d a b : BitVec 6) (s : State) : Host.Outcome State Fault Refusal :=
  .next (alu2 (.divS c w g d a b) g d a b (mulW w) 36 opDivS s)

/-- DIV.z (11 R235, R236). -/
def execDivZ (c w : BitVec 1) (g : BitVec 3) (d a b : BitVec 6) (s : State) : Host.Outcome State Fault Refusal :=
  .next (alu2 (.divZ c w g d a b) g d a b (mulW w) 36 opDivZ s)

/-- REM.s (11 R235, R236). -/
def execRemS (c w : BitVec 1) (g : BitVec 3) (d a b : BitVec 6) (s : State) : Host.Outcome State Fault Refusal :=
  .next (alu2 (.remS c w g d a b) g d a b (mulW w) 36 opRemS s)

/-- REM.z (11 R235, R236). -/
def execRemZ (c w : BitVec 1) (g : BitVec 3) (d a b : BitVec 6) (s : State) : Host.Outcome State Fault Refusal :=
  .next (alu2 (.remZ c w g d a b) g d a b (mulW w) 36 opRemZ s)

/-- BFX (11 R237). -/
def execBfx (c w : BitVec 1) (g : BitVec 3) (d a b : BitVec 6) (s : State) : Host.Outcome State Fault Refusal :=
  .next (alu2 (.bfx c w g d a b) g d a b (mulW w) 4 opBfx s)

/-- BFI (11 R237). -/
def execBfi (c w : BitVec 1) (g : BitVec 3) (d a b : BitVec 6) (s : State) : Host.Outcome State Fault Refusal :=
  .next (alu3 (.bfi c w g d a b) g d a b (mulW w) 4 opBfi s)

/-- CLZ (11 R235, R236). -/
def execClz (c w : BitVec 1) (g : BitVec 3) (d a : BitVec 6) (s : State) : Host.Outcome State Fault Refusal :=
  .next (alu1 (.clz c w g d a) g d a (mulW w) 4 opClz s)

/-- POPC (11 R235, R236). -/
def execPopc (c w : BitVec 1) (g : BitVec 3) (d a : BitVec 6) (s : State) : Host.Outcome State Fault Refusal :=
  .next (alu1 (.popc c w g d a) g d a (mulW w) 4 opPopc s)

/-- BREV (11 R235, R236). -/
def execBrev (c w : BitVec 1) (g : BitVec 3) (d a : BitVec 6) (s : State) : Host.Outcome State Fault Refusal :=
  .next (alu1 (.brev c w g d a) g d a (mulW w) 4 opBrev s)

/-! ### Immediate forms (11 R238) -/

/-- A word that works on the whole of xa. -/
def imm1 (i : Instr) (g : BitVec 3) (d a : BitVec 6) (f : State → Word → Word) (s : State) : State :=
  issueX i g (rD s d) 4 (fun s l => f s (getX (iLane s l) (rA s a))) s

/-- IMM[9:0] of the split fields. -/
def imm10 (h : BitVec 4) (i : BitVec 6) : Nat := h.toNat * 64 + i.toNat
/-- IMM[7:0]. -/
def imm8 (h : BitVec 2) (i : BitVec 6) : Nat := h.toNat * 64 + i.toNat
/-- IMM[15:0] of MOVI. -/
def imm16 (h : BitVec 4) (j i : BitVec 6) : Nat := (h.toNat * 64 + j.toNat) * 64 + i.toNat

/-- ADDI (11 R238, 10 R220). -/
def execAddi (c : BitVec 1) (g : BitVec 3) (h : BitVec 4) (d a i : BitVec 6) (s : State) : Host.Outcome State Fault Refusal :=
  .next (imm1 (.addi c g h d a i) g d a (fun s x => x + immS s 10 (imm10 h i)) s)

/-- ANDI (11 R238, 10 R220). -/
def execAndi (c : BitVec 1) (g : BitVec 3) (h : BitVec 2) (d a i : BitVec 6) (s : State) : Host.Outcome State Fault Refusal :=
  .next (imm1 (.andi c g h d a i) g d a (fun s x => x &&& immZ s 8 (imm8 h i)) s)

/-- ORI (11 R238, 10 R220). -/
def execOri (c : BitVec 1) (g : BitVec 3) (h : BitVec 2) (d a i : BitVec 6) (s : State) : Host.Outcome State Fault Refusal :=
  .next (imm1 (.ori c g h d a i) g d a (fun s x => x ||| immZ s 8 (imm8 h i)) s)

/-- XORI (11 R238, 10 R220). -/
def execXori (c : BitVec 1) (g : BitVec 3) (h : BitVec 2) (d a i : BitVec 6) (s : State) : Host.Outcome State Fault Refusal :=
  .next (imm1 (.xori c g h d a i) g d a (fun s x => x ^^^ immZ s 8 (imm8 h i)) s)

/-- SHLI (11 R238). -/
def execShli (c : BitVec 1) (g : BitVec 3) (d a i : BitVec 6) (s : State) : Host.Outcome State Fault Refusal :=
  .next (imm1 (.shli c g d a i) g d a (fun _ x => x <<< i.toNat) s)

/-- SHRI (11 R238). -/
def execShri (c : BitVec 1) (g : BitVec 3) (d a i : BitVec 6) (s : State) : Host.Outcome State Fault Refusal :=
  .next (imm1 (.shri c g d a i) g d a (fun _ x => x >>> i.toNat) s)

/-- SRAI (11 R238). -/
def execSrai (c : BitVec 1) (g : BitVec 3) (d a i : BitVec 6) (s : State) : Host.Outcome State Fault Refusal :=
  .next (imm1 (.srai c g d a i) g d a (fun _ x => x.sshiftRight i.toNat) s)

/-- MOVI (11 R238, 10 R220). -/
def execMovi (c : BitVec 1) (g : BitVec 3) (h : BitVec 4) (d j i : BitVec 6) (s : State) : Host.Outcome State Fault Refusal :=
  .next (issueX (.movi c g h d j i) g (rD s d) 4 (fun s _ => immS s 16 (imm16 h j i)) s)

/-! ### Compares and predicates (11 R239, R240) -/

/-- The condition codes of R239, also WAITV's (12 R264), on values of `w` bits. -/
def condHolds (e w a b : Nat) : Bool :=
  match e with
  | 0 => a == b
  | 1 => a != b
  | 2 => decide (signed w a < signed w b)
  | 3 => decide (signed w b ≤ signed w a)
  | 4 => decide (a < b)
  | 5 => decide (b ≤ a)
  | 6 => (a &&& b) != 0
  | _ => (a &&& b) == 0

/-- CMPI (11 R239). -/
def execCmpi (c : BitVec 1) (g : BitVec 3) (h : BitVec 4) (e p : BitVec 3) (a i : BitVec 6) (s : State) : Host.Outcome State Fault Refusal :=
  .next (issueP (.cmpi c g h e p a i) g p.toNat 4 (fun s l =>
    condHolds e.toNat 64 (getX (iLane s l) (rA s a)).toNat (immS s 10 (imm10 h i)).toNat) s)

/-- CMP: sub-element 0 of each operand (11 R239). -/
def execCmp (c : BitVec 1) (g : BitVec 3) (w : BitVec 2) (e p : BitVec 3) (a b : BitVec 6) (s : State) : Host.Outcome State Fault Refusal :=
  .next (issueP (.cmp c g w e p a b) g p.toNat 4 (fun s l =>
    condHolds e.toNat (aluW w) (sub_ (getX (iLane s l) (rA s a)) (aluW w) 0) (sub_ (getX (iLane s l) (rB s b)) (aluW w) 0)) s)

/-- PAND (11 R240). -/
def execPand (c : BitVec 1) (g p q r : BitVec 3) (s : State) : Host.Outcome State Fault Refusal :=
  .next (issueP (.pand c g p q r) g p.toNat 4 (fun s l => getP (iLane s l) q.toNat && getP (iLane s l) r.toNat) s)

/-- POR (11 R240). -/
def execPor (c : BitVec 1) (g p q r : BitVec 3) (s : State) : Host.Outcome State Fault Refusal :=
  .next (issueP (.por c g p q r) g p.toNat 4 (fun s l => getP (iLane s l) q.toNat || getP (iLane s l) r.toNat) s)

/-- PXOR (11 R240). -/
def execPxor (c : BitVec 1) (g p q r : BitVec 3) (s : State) : Host.Outcome State Fault Refusal :=
  .next (issueP (.pxor c g p q r) g p.toNat 4 (fun s l => getP (iLane s l) q.toNat != getP (iLane s l) r.toNat) s)

/-- PNOT (11 R240). -/
def execPnot (c : BitVec 1) (g p q : BitVec 3) (s : State) : Host.Outcome State Fault Refusal :=
  .next (issueP (.pnot c g p q) g p.toNat 4 (fun s l => !getP (iLane s l) q.toNat) s)

/-! ### Moves and address arithmetic (11 R241-R243) -/

/-- SEL: xd is the selector and the destination (11 R241). -/
def execSel (c : BitVec 1) (g : BitVec 3) (d a b : BitVec 6) (s : State) : Host.Outcome State Fault Refusal :=
  .next (issueX (.sel c g d a b) g (rD s d) 4 (fun s l =>
    let m := getX (iLane s l) (rD s d)
    (getX (iLane s l) (rA s a) &&& m) ||| (getX (iLane s l) (rB s b) &&& ~~~m)) s)

/-- MOV (11 R241). -/
def execMov (c : BitVec 1) (g : BitVec 3) (d a : BitVec 6) (s : State) : Host.Outcome State Fault Refusal :=
  .next (issueX (.mov c g d a) g (rD s d) 4 (fun s l => getX (iLane s l) (rA s a)) s)

/-- LEA (11 R241). -/
def execLea (c : BitVec 1) (g : BitVec 3) (d a b : BitVec 6) (s : State) : Host.Outcome State Fault Refusal :=
  .next (issueX (.lea c g d a b) g (rD s d) 4 (fun s l => getX (iLane s l) (rA s a) + 8 * getX (iLane s l) (rB s b)) s)

/-- The register number in bits [9:0] of an index register (04 R70). -/
def indexOf (s : State) (a : BitVec 6) (l : Nat) : Nat := (getX (iLane s l) (rA s a)).toNat % 1024

/-- An index at or above REGS in some lane (11 R242). -/
def indexCheck (a : BitVec 6) : Check := firstBad fun s l =>
  if (iWarp s).regsN ≤ indexOf s a l then some (0x09, .ofNat 64 (indexOf s a l)) else none

/-- IXGET (11 R242, 04 R70). -/
def execIxget (c : BitVec 1) (g : BitVec 3) (d a : BitVec 6) (s : State) : Host.Outcome State Fault Refusal :=
  .next (issueWord (.ixget c g d a) g noCheck (indexCheck a) (fun ls s =>
    putX s (rD s d) 4 (ls.map fun l => (l, getX (iLane s l) (indexOf s a l)))) s)

/-- What another word of the group would still deliver to a register of a lane is discarded. -/
def dropLate (s : State) (l n : Nat) : State :=
  let mine (e : Access) : Bool := e.seq == (iWarp s).retired && e.pc == s.issue.gpc && e.dst == n
  iMod s fun w => { modLane w l fun x => { x with
      front := x.front.map fun e => if mine e then { e with dst := 0 } else e,
      park := if x.park.dst == n && x.pc == s.issue.gpc then { x.park with dst := 0 } else x.park } with
    board := (w.board.map fun p => if p.kind == 0 && p.num == n && p.due == 0 then { p with lanes := maskSet p.lanes l false } else p).filter
      (·.lanes != 0) }

/-- IXPUT: its write comes after those of the other words of its group, and stands (11 R242, 04 R70). -/
def execIxput (c : BitVec 1) (g : BitVec 3) (a b : BitVec 6) (s : State) : Host.Outcome State Fault Refusal :=
  .next (issueWord (.ixput c g a b) g noCheck (indexCheck a) (fun ls s =>
    ls.foldl (fun s l => putX (dropLate s l (indexOf s a l)) (indexOf s a l) 4 [(l, getX (iLane s l) (rB s b))]) s) s)

/-- A thread's index within its work-group: its warp's lanes come after those of the warps before (03 R51, R52). -/
def threadIndex (s : State) (core slot l : Nat) : Nat :=
  (warpOf s core slot).windex * 32 + l

/-- LVLi of a thread: its unit's index within its parent (03 R51), from its place in its work-group below the work-group
level and from the work-group's index above; zero for tasks and handlers (03 R60, 22 R394). -/
def levelIndex (s : State) (core slot l i : Nat) : Nat :=
  let w := warpOf s core slot
  let la := launchOf s w.ctx w.launch
  let ext := la.extents
  let top := coreLevel la
  if w.kind != .grid || ext.length ≤ i then 0
  else if i < top then threadIndex s core slot l / (ext.take i).foldl (· * ·) 1 % ext.getD i 1
  else (groupOf s core w.group).index / ((ext.take i).drop top).foldl (· * ·) 1 % ext.getD i 1

/-- The system values of 10 R224. -/
def systemValue (s : State) (n l : Nat) : Nat :=
  let c := s.issue.core
  let w := iWarp s
  let x := iLane s l
  let la := launchOf s w.ctx w.launch
  match n with
  | 0 => l
  | 1 => if w.kind == .grid then w.windex else s.issue.slot
  | 2 => c
  | 3 => c % Config.coresPerSector / 4
  | 4 => secOf c
  | 5 => if fabricBound la then recField s w.ctx 447 440 else 0
  | 24 => x.qrow
  | 25 => x.qchunk
  | 26 => x.qarch
  | 27 => la.world
  | 28 => la.view
  | 29 => s.clk
  | 30 => fabtime s
  | 31 => x.seed.toNat
  | 32 => x.trapRec.toNat
  | n =>
    if 8 ≤ n && n ≤ 15 then levelIndex s c s.issue.slot l (n - 8)
    else if 16 ≤ n && n ≤ 23 then (if w.kind == .grid then la.extents.getD (n - 16) 0 else 0)
    else 0

/-- GETS (11 R243, 10 R224). -/
def execGets (c : BitVec 1) (g : BitVec 3) (d a : BitVec 6) (s : State) : Host.Outcome State Fault Refusal :=
  .next (issueX (.gets c g d a) g (rD s d) 4 (fun s l => .ofNat 64 (systemValue s a.toNat l)) s)

/-- PUTS SEED (11 R243). -/
def execPuts (c : BitVec 1) (g : BitVec 3) (b : BitVec 6) (s : State) : Host.Outcome State Fault Refusal :=
  .next (issueWord (.puts c g b) g noCheck noCheck (fun ls s =>
    ls.foldl (fun s l => iModLane s l fun x => { x with seed := getX (iLane s l) (rB s b) }) s) s)

end Sys2Proof.Machine
end

