-- ==== Sys2Proof/Machine/Flags.lean ====
section
/-! DEFINITION. The flag word and FPFLAGS (06 R124, R136, R137). -/

namespace Sys2Proof.Machine

/-- The flag word's bits (06 R124). -/
def flNV : Nat := 1
def flDZ : Nat := 2
def flOF : Nat := 4
def flUF : Nat := 8
def flNX : Nat := 16
def flSKIPNF : Nat := 32

/-- Merge flags by OR into a context's FPFLAGS (06 R124). -/
def mergeFlags (ctx f : Nat) (s : State) : State :=
  if f = 0 then s else modCtx s ctx fun c => { c with fpflags := c.fpflags ||| BitVec.ofNat 6 f }

/-- Merge flags that the issuing bundle raised. -/
def iFlags (f : Nat) (s : State) : State := mergeFlags (iWarp s).ctx f s

end Sys2Proof.Machine
end

