-- ==== Sys2Proof/Machine/Numbers.lean ====
section
/-! DEFINITION. Number formats, rounding and the special functions (06 R110-R123). -/

namespace Sys2Proof.Machine

/-! ### Values -/

/-- A decoded number: any NaN, an infinity, or (-1)^neg × m × 2^e, a signed zero when m is 0 (06 R110, R111). -/
inductive Num where
  | nan
  | inf (neg : Bool)
  | fin (neg : Bool) (m : Nat) (e : Int)
  deriving DecidableEq, Repr

/-- How a format's top codes read (06 R110, R112-R114). -/
inductive Top where
  /-- infinity and NaN -/
  | ieee
  /-- one NaN, no infinity (E4M3) -/
  | nanOnly
  /-- numbers all, signed (E2M1) or unsigned (E3M5) -/
  | signed
  | unsigned
  deriving DecidableEq, Repr

/-- A float format. -/
structure Fmt where
  width : Nat
  ebits : Nat
  mbits : Nat
  bias : Nat
  top : Top
  deriving DecidableEq, Repr

def f32 : Fmt := ⟨32, 8, 23, 127, .ieee⟩
def f16 : Fmt := ⟨16, 5, 10, 15, .ieee⟩
def bf16 : Fmt := ⟨16, 8, 7, 127, .ieee⟩
def e4m3 : Fmt := ⟨8, 4, 3, 7, .nanOnly⟩
def e5m2 : Fmt := ⟨8, 5, 2, 15, .ieee⟩
def e2m1 : Fmt := ⟨4, 2, 1, 1, .signed⟩
def e3m5 : Fmt := ⟨8, 3, 5, 3, .unsigned⟩

/-- The float codes of 10 R223. -/
def fltFmt (code : Nat) : Fmt :=
  match code with
  | 0 => f32 | 1 => f16 | 2 => bf16 | 3 => e4m3 | 4 => e5m2 | 5 => e2m1 | _ => e3m5

/-- The integer codes of 10 R223: width and whether signed. -/
def intFmt (code : Nat) : Nat × Bool :=
  match code with
  | 0 => (64, true) | 1 => (32, true) | 2 => (16, true) | 3 => (8, true) | 4 => (4, true)
  | 5 => (32, false) | 6 => (16, false) | _ => (8, false)

/-- 2^k as a scale on a natural number: m × 2^k rounded toward zero. -/
def shiftI (m : Nat) (k : Int) : Nat := if 0 ≤ k then m * 2 ^ k.toNat else m / 2 ^ (-k).toNat

/-- Read a code (06 R110, R112-R114). -/
def Fmt.decode (f : Fmt) (x : Nat) : Num :=
  let m := x % 2 ^ f.mbits
  let e := x / 2 ^ f.mbits % 2 ^ f.ebits
  let neg := f.top != .unsigned && bitAt x (f.ebits + f.mbits)
  if f.top == .ieee && e + 1 == 2 ^ f.ebits then (if m == 0 then .inf neg else .nan)
  else if f.top == .nanOnly && e + 1 == 2 ^ f.ebits && m + 1 == 2 ^ f.mbits then .nan
  else if e == 0 then .fin neg m (1 - f.bias - f.mbits)
  else .fin neg (2 ^ f.mbits + m) (e - f.bias - f.mbits)

/-- The sign bit in place. -/
def Fmt.sign (f : Fmt) (neg : Bool) : Nat := if neg && f.top != .unsigned then 2 ^ (f.ebits + f.mbits) else 0
/-- The exponent and mantissa of the largest finite value. -/
def Fmt.maxCode (f : Fmt) : Nat :=
  match f.top with
  | .ieee => 2 ^ (f.ebits + f.mbits) - 2 ^ f.mbits - 1
  | .nanOnly => 2 ^ (f.ebits + f.mbits) - 2
  | _ => 2 ^ (f.ebits + f.mbits) - 1
/-- The default NaN: quiet bit set, sign clear (06 R110, R112); E4M3 and E5M2 have 0x7F. -/
def Fmt.dnan (f : Fmt) : Nat :=
  if f.width = 8 then 0x7F else 2 ^ (f.ebits + f.mbits) - 2 ^ f.mbits + 2 ^ (f.mbits - 1)
/-- The infinity's exponent and mantissa. -/
def Fmt.infCode (f : Fmt) : Nat := 2 ^ (f.ebits + f.mbits) - 2 ^ f.mbits

/-- Is a non-zero discarded part rounded away from zero (06 R119, R121)?  `q` the kept part, `r` of `2^sh` the rest,
`rnd` the stochastic r. -/
def roundsUp (mode : Nat) (neg : Bool) (q r sh rnd : Nat) : Bool :=
  if r = 0 then false else
  match mode with
  | 0 => decide (2 ^ sh < 2 * r) || (2 * r == 2 ^ sh && q % 2 == 1)
  | 1 => false
  | 2 => neg
  | 3 => !neg
  | _ => if neg then !decide (rnd < (2 ^ sh - r) * 2 ^ 32 / 2 ^ sh) else decide (rnd < r * 2 ^ 32 / 2 ^ sh)

/-- Round m × 2^e to a multiple of 2^q: the multiple, and whether a part was lost. -/
def roundAt (mode : Nat) (neg : Bool) (rnd m : Nat) (e q : Int) : Nat × Bool :=
  if q ≤ e then (m * 2 ^ (e - q).toNat, false)
  else
    let sh := (q - e).toNat
    let k := m / 2 ^ sh
    let r := m % 2 ^ sh
    (if roundsUp mode neg k r sh rnd then k + 1 else k, r != 0)

/-- Encode k × 2^q, k > 0, known to fit. -/
def Fmt.place (f : Fmt) (k : Nat) (q : Int) : Nat :=
  let top := q + Nat.log2 k
  if top < 1 - f.bias then shiftI k (q - (1 - f.bias - f.mbits))
  else (top + f.bias).toNat * 2 ^ f.mbits + (shiftI k (f.mbits - (Nat.log2 k : Int)) - 2 ^ f.mbits)

/-- a × 2^p against b × 2^q: is the first greater? -/
def scaledGt (a : Nat) (p : Int) (b : Nat) (q : Int) : Bool :=
  if q ≤ p then decide (b < a * 2 ^ (p - q).toNat) else decide (b * 2 ^ (q - p).toNat < a)

/-- What overflow gives (06 R120). -/
def Fmt.overflow (f : Fmt) (mode : Nat) (sat neg : Bool) : Nat :=
  let toMax := sat || f.top == .signed || f.top == .unsigned || mode == 1 || (mode == 2 && !neg) || (mode == 3 && neg)
  if toMax then f.sign neg + f.maxCode
  else if f.top == .nanOnly then f.dnan else f.sign neg + f.infCode

/-- Is a magnitude tiny after rounding, as though the exponent had no lower limit (06 R124)? -/
def Fmt.tiny (f : Fmt) (mode : Nat) (neg : Bool) (rnd m : Nat) (e : Int) : Bool :=
  let q := e + Nat.log2 m - f.mbits
  scaledGt 1 (1 - f.bias) (roundAt mode neg rnd m e q).1 q

/-- Round a finite non-zero magnitude into a format (06 R119-R121, R124): the code and the flags. -/
def Fmt.roundFin (f : Fmt) (mode : Nat) (sat : Bool) (rnd : Nat) (neg : Bool) (m : Nat) (e : Int) : Nat × Nat :=
  let top := e + Nat.log2 m
  let emin : Int := 1 - f.bias
  let maxq : Int := match f.decode f.maxCode with | .fin _ _ q => q | _ => 0
  let maxm : Nat := match f.decode f.maxCode with | .fin _ k _ => k | _ => 0
  let mode := if mode == 4 && scaledGt m e maxm maxq then 0 else mode
  let q := max top emin - f.mbits
  let (k, lost) := roundAt mode neg rnd m e q
  if scaledGt k q maxm maxq then (f.overflow mode sat neg, flOF ||| flNX)
  else
    let fl := if lost then flNX ||| (if f.tiny mode neg rnd m e then flUF else 0) else 0
    (if k = 0 then f.sign neg else f.sign neg + f.place k q, fl)

/-- Round a number into a format: the code and the flags (06 R120, 13 R280). -/
def Fmt.round (f : Fmt) (mode : Nat) (sat : Bool) (rnd : Nat) (v : Num) : Nat × Nat :=
  match v with
  | .nan => if f.top == .signed || f.top == .unsigned then (0, flNV) else (f.dnan, 0)
  | .inf neg =>
    match f.top with
    | .unsigned => if neg then (0, flNV) else (f.maxCode, flOF ||| flNX)
    | .signed => (f.sign neg + f.maxCode, flOF ||| flNX)
    | .nanOnly => (if sat then f.sign neg + f.maxCode else f.dnan, flOF ||| flNX)
    | .ieee => if sat then (f.sign neg + f.maxCode, flOF ||| flNX) else (f.sign neg + f.infCode, 0)
  | .fin neg m e =>
    if m = 0 then (f.sign neg, 0)
    else if f.top == .unsigned && neg then (0, flNV)
    else f.roundFin mode sat rnd neg m e

/-- Round to an integer of `w` bits, saturating always (06 R120, 13 R281). -/
def roundInt (w : Nat) (sgn : Bool) (mode rnd : Nat) (v : Num) : Nat × Nat :=
  let lo : Int := if sgn then -(2 ^ (w - 1) : Nat) else 0
  let hi : Int := if sgn then (2 ^ (w - 1) : Nat) - 1 else (2 ^ w : Nat) - 1
  match v with
  | .nan => (0, flNV)
  | .inf neg => (truncI (if neg then lo else hi) w, flOF ||| flNX)
  | .fin neg m e =>
    let mode := if mode == 4 && scaledGt m e (if neg && sgn then lo.natAbs else hi.natAbs) 0 then 0 else mode
    let (k, lost) := roundAt mode neg rnd m e 0
    let x : Int := if neg then -k else k
    if x < lo then (truncI lo w, flOF ||| flNX)
    else if hi < x then (truncI hi w, flOF ||| flNX)
    else (truncI x w, if lost then flNX else 0)

/-- StepSeed (06 R121). -/
def stepSeed (x : Word) : Word :=
  let x := if x = 0 then 0x9E3779B97F4A7C15#64 else x
  let x := x ^^^ (x <<< 13)
  let x := x ^^^ (x >>> 7)
  x ^^^ (x <<< 17)

/-! ### Arithmetic -/

/-- The sign of an exact zero sum (06 R111): both terms zeros of one sign, or the rounding's zero. -/
def zeroSign (mode : Nat) (zx zy nx ny : Bool) : Bool :=
  if zx && zy && nx == ny then nx else mode == 2

/-- The exact sum of two numbers and its flags (06 R111, 13 R274). -/
def addNum (mode : Nat) (a b : Num) : Num × Nat :=
  match a, b with
  | .nan, _ => (.nan, 0)
  | _, .nan => (.nan, 0)
  | .inf x, .inf y => if x == y then (.inf x, 0) else (.nan, flNV)
  | .inf x, _ => (.inf x, 0)
  | _, .inf y => (.inf y, 0)
  | .fin nx mx ex, .fin ny my ey =>
    let e := min ex ey
    let t : Int := (if nx then -1 else 1) * (mx * 2 ^ (ex - e).toNat : Nat) + (if ny then -1 else 1) * (my * 2 ^ (ey - e).toNat : Nat)
    if t = 0 then (.fin (zeroSign mode (mx == 0) (my == 0) nx ny) 0 0, 0)
    else (.fin (decide (t < 0)) t.natAbs e, 0)

/-- The exact product of two numbers. -/
def mulNum (a b : Num) : Num × Nat :=
  match a, b with
  | .nan, _ => (.nan, 0)
  | _, .nan => (.nan, 0)
  | .inf x, .inf y => (.inf (x != y), 0)
  | .inf x, .fin y m _ => if m = 0 then (.nan, flNV) else (.inf (x != y), 0)
  | .fin x m _, .inf y => if m = 0 then (.nan, flNV) else (.inf (x != y), 0)
  | .fin x m e, .fin y k d => (.fin (x != y) (m * k) (e + d), 0)

/-- The number with its sign inverted. -/
def negNum : Num → Num
  | .nan => .nan
  | .inf x => .inf (!x)
  | .fin x m e => .fin (!x) m e

/-- a × b + d, the product not rounded (13 R274). -/
def fmaNum (mode : Nat) (a b d : Num) : Num × Nat :=
  let (p, f) := mulNum a b
  if f != 0 then (.nan, f) else addNum mode p d

/-- FADD, FSUB, FMUL, FFMA of one sub-element, by op 0 to 3 (13 R274): the code and the flags. -/
def arith (f : Fmt) (op mode a b d : Nat) : Nat × Nat :=
  let x := f.decode a
  let y := f.decode b
  let (v, fl) := match op with
    | 0 => addNum mode x y
    | 1 => addNum mode x (negNum y)
    | 2 => mulNum x y
    | _ => fmaNum mode x y (f.decode d)
  let (c, g) := f.round mode false 0 v
  (c, fl ||| g)

/-- a < b of two numbers, zeros equal; NaN is not less. -/
def ltNum (a b : Num) : Bool :=
  match a, b with
  | .nan, _ => false
  | _, .nan => false
  | .inf x, .inf y => x && !y
  | .inf x, .fin .. => x
  | .fin .., .inf y => !y
  | .fin nx mx ex, .fin ny my ey =>
    let e := min ex ey
    decide ((if nx then -1 else 1) * ((mx * 2 ^ (ex - e).toNat : Nat) : Int)
      < (if ny then -1 else 1) * ((my * 2 ^ (ey - e).toNat : Nat) : Int))

/-- a = b of two numbers, zeros equal. -/
def eqNum (a b : Num) : Bool := a != .nan && b != .nan && !ltNum a b && !ltNum b a

/-- Is a number negative, a zero by its sign? -/
def isNeg : Num → Bool
  | .nan => false
  | .inf x => x
  | .fin x _ _ => x

/-- FMIN (or FMAX) of one sub-element (13 R276). -/
def minMax (f : Fmt) (mx : Bool) (a b : Nat) : Nat :=
  let x := f.decode a
  let y := f.decode b
  if x == .nan then (if y == .nan then f.dnan else b)
  else if y == .nan then a
  else
    let aLess := ltNum x y || (eqNum x y && isNeg x && !isNeg y)
    if aLess != mx then a else b

/-- FCLASS of one sub-element (13 R278). -/
def classOf (f : Fmt) (a : Nat) : Nat :=
  match f.decode a with
  | .nan => 2 ^ 8
  | .inf n => if n then 1 else 2 ^ 7
  | .fin n m _ =>
    let k := if m = 0 then 3 else if m < 2 ^ f.mbits then 2 else 1
    if n then 2 ^ k else 2 ^ (7 - k)

/-! ### Special functions (06 R123): the exact value to many bits, its last bit sticky -/

/-- floor of the square root, bit by bit. -/
def isqrtGo (n : Nat) : Nat → Nat → Nat
  | 0, r => r
  | k + 1, r => isqrtGo n k (if (r + 2 ^ k) * (r + 2 ^ k) ≤ n then r + 2 ^ k else r)
/-- floor of the square root. -/
def isqrt (n : Nat) : Nat := isqrtGo n (Nat.log2 n / 2 + 1) 0

/-- A positive value q × 2^e, not exact when `lost`: one more bit holds that. -/
def sticky (neg : Bool) (q : Nat) (e : Int) (lost : Bool) : Num := .fin neg (2 * q + if lost then 1 else 0) (e - 1)

/-- m × 2^e with an even exponent. -/
def evenExp (m : Nat) (e : Int) : Nat × Int := if e % 2 = 0 then (m, e) else (2 * m, e - 1)

/-- 1/(m × 2^e). -/
def recip (neg : Bool) (m : Nat) (e : Int) : Num :=
  let k := 80 + Nat.log2 m
  sticky neg (2 ^ k / m) (-e - k) (2 ^ k % m != 0)

/-- The square root of m × 2^e. -/
def sqrtNum (m : Nat) (e : Int) : Num :=
  let (m, e) := evenExp m e
  let n := m * 2 ^ 160
  let q := isqrt n
  sticky false q (e / 2 - 80) (q * q != n)

/-- The reciprocal square root of m × 2^e. -/
def rsqrtNum (m : Nat) (e : Int) : Num :=
  let (m, e) := evenExp m e
  let k := 80 + Nat.log2 m
  let q := isqrt (2 ^ (2 * k) / m)
  sticky false q (-(e / 2) - k) (q * q * m != 2 ^ (2 * k))

/-- Fraction bits of the fixed-point series: enough that no FP32 argument's value lies within their error of a rounding
boundary. -/
def fracBits : Nat := 512
/-- One in fixed point. -/
def one : Nat := 2 ^ fracBits

/-- Σ ±z^(2k+1)/(2k+1) from power `p` at index `k`: atan (alternating) or atanh. -/
def oddSeries (alt : Bool) (zz : Nat) : Nat → Nat → Nat → Int
  | 0, _, _ => 0
  | n + 1, k, p => (if alt && k % 2 == 1 then -1 else 1) * (p / (2 * k + 1) : Nat) + oddSeries alt zz n (k + 1) (p * zz / one)

/-- atan(1/n). -/
def atanInv (n : Nat) : Int := oddSeries true (one / (n * n)) 120 0 (one / n)
/-- π/2 (Machin). -/
def halfPi : Nat := (8 * atanInv 5 - 2 * atanInv 239).toNat
/-- The natural logarithm of 2: 2 atanh(1/3). -/
def ln2 : Nat := (2 * oddSeries false (one / 9) 170 0 (one / 3)).toNat

/-- Σ t^k/k! from term `p` at index `k`. -/
def expSeries (t : Nat) : Nat → Nat → Nat → Nat
  | 0, _, _ => 0
  | n + 1, k, p => p + expSeries t n (k + 1) (p * t / one / (k + 1))

/-- Σ of alternating terms, each from the last by t²/((k+1)(k+2)). -/
def trigSeries (tt : Nat) : Nat → Nat → Nat → Int
  | 0, _, _ => 0
  | n + 1, k, p => (p : Int) - trigSeries tt n (k + 2) (p * tt / one / ((k + 1) * (k + 2)))

/-- 2^x of x = ±m × 2^e. -/
def exp2Num (neg : Bool) (m : Nat) (e : Int) : Num :=
  if scaledGt m e 1023 0 then .fin false 1 (if neg then -400 else 400)
  else
    let u : Nat := shiftI m (e + fracBits)
    let exact := shiftI m e * one == u && shiftI u (-(e + fracBits)) == m
    -- x = n + f with f in [0,1)
    let n : Int := if neg then -((u + one - 1) / one : Nat) else (u / one : Nat)
    let f : Nat := if neg then (n.natAbs * one - u) else u % one
    if exact then .fin false 1 n
    else sticky false (expSeries (f * ln2 / one) 120 0 one) (n - fracBits) true

/-- log2 of m × 2^e. -/
def log2Num (m : Nat) (e : Int) : Num :=
  let k := Nat.log2 m
  let n : Int := e + k
  if m == 2 ^ k then .fin (decide (n < 0)) n.natAbs 0
  else
    -- ln(m/2^k) = 2 atanh((m - 2^k)/(m + 2^k))
    let z := (m - 2 ^ k) * one / (m + 2 ^ k)
    let l := (2 * oddSeries false (z * z / one) 170 0 z).toNat * one / ln2
    let v : Int := n * (one : Int) + l
    sticky (decide (v < 0)) v.natAbs (-(fracBits : Int)) true

/-- sin (or cos) of ±m × 2^e, reduced exactly by π/2. -/
def trigNum (cos neg : Bool) (m : Nat) (e : Int) : Num :=
  let u := m * 2 ^ (e + fracBits).toNat
  let k := u / halfPi
  let r := u % halfPi
  let quad := (k + if cos then 1 else 0) % 4
  let tt := r * r / one
  let v := if quad % 2 == 0 then trigSeries tt 60 1 r else trigSeries tt 60 0 one
  sticky ((decide (2 ≤ quad)) != (neg && !cos)) v.natAbs (-(fracBits : Int)) true

/-- A special function of an FP32 code, by FN 0 to 6 (06 R123): the code and the flags. -/
def special (fn a : Nat) : Nat × Nat :=
  let go (v : Num) : Nat × Nat := f32.round 0 false 0 v
  let nanNV : Nat × Nat := (f32.dnan, flNV)
  match f32.decode a with
  | .nan => (f32.dnan, 0)
  | .inf neg =>
    match fn with
    | 0 => (f32.sign neg, 0)
    | 1 => if neg then nanNV else (0, 0)
    | 2 => if neg then nanNV else (f32.infCode, 0)
    | 3 => if neg then (0, 0) else (f32.infCode, 0)
    | 4 => if neg then nanNV else (f32.infCode, 0)
    | _ => nanNV
  | .fin neg m e =>
    if m = 0 then
      match fn with
      | 0 => (f32.sign neg + f32.infCode, flDZ)
      | 1 => (f32.sign neg + f32.infCode, flDZ)
      | 2 => (f32.sign neg, 0)
      | 3 => (0x3F800000, 0)
      | 4 => (f32.sign true + f32.infCode, flDZ)
      | 5 => (f32.sign neg, 0)
      | _ => (0x3F800000, 0)
    else
      match fn with
      | 0 => go (recip neg m e)
      | 1 => if neg then nanNV else go (rsqrtNum m e)
      | 2 => if neg then nanNV else go (sqrtNum m e)
      | 3 => go (exp2Num neg m e)
      | 4 => if neg then nanNV else go (log2Num m e)
      | 5 => go (trigNum false neg m e)
      | _ => go (trigNum true neg m e)

end Sys2Proof.Machine
end

