-- ==== Sys2Proof/Machine/Access.lean ====
section
/-! DEFINITION. The steps of the abstract machine for a thread's global accesses (05 R94-R101), parked threads' waits
(02 R36, 12 R264, R267, R270) and completion objects (09 R206, R207). -/

namespace Sys2Proof.Machine

/-- A step that is not enabled changes nothing. -/
def orSame (f : State → Option State) (s : State) : State := (f s).getD s

/-! ### Atomic operations -/

/-- The value an atomic writes on a location of `n` bytes, none when a CAS fails (12 R258-R262). -/
def atomNew (op : AtomOp) (n old x1 x2 : Nat) : Option Nat :=
  let w := 8 * n
  let b := x1 % 2 ^ w
  match op with
  | .add => some ((old + b) % 2 ^ w)
  | .minS => some (opMinS w old b)
  | .maxS => some (opMaxS w old b)
  | .and => some (old &&& b)
  | .or => some (old ||| b)
  | .xor => some (old ^^^ b)
  | .exch => some b
  | .inc => some (if b ≤ old then 0 else old + 1)
  | .fadd => some (arith (if n == 2 then bf16 else f32) 0 0 old b 0).1
  | .cas => if old = b then some (x2 % 2 ^ w) else none
  | .nibLo => some (old / 16 * 16 + x1 % 16)
  | .nibHi => some (old % 16 + x1 % 16 * 16)

/-! ### A thread's front -/

/-- The applied vector of a core's sector. -/
def vecOf (s : State) (c : Nat) : Vec4 := (sectorOf s (secOf c)).a

/-- Does an entry hold the thread's later accesses: an acquire not performed or not caught up with, or a fence
(05 R94, R96, R101)?  Every scope does so, also where its pair's scopes fail each other (R99: DESIGN CHOICE, log 8). -/
def holdsLater (a : Vec4) (e : Access) : Bool :=
  match e.kind with
  | .fence => true
  | .hold => !e.stamp.le a
  | .load => e.ord != 0
  | .waitv => e.ord != 0
  | .join => true
  | .vopen => true
  | .query => true
  | .atomic => e.ord != 0 && !e.red
  | .store => false

/-- Is an entry a thread's own access to memory, translated under a generation, and not one that a unit makes for it? -/
def isOwnAcc (e : Access) : Bool := e.kind != .fence && e.kind != .hold && e.kind != .vopen && e.kind != .query

/-- Is an entry a memory access that has not performed or drained? -/
def isMemAcc (e : Access) : Bool := e.kind != .fence && e.kind != .hold

/-- Do two accesses share a byte, by virtual or by physical address? -/
def overlaps (e f : Access) : Bool :=
  (decide (e.va.toNat < f.va.toNat + f.size) && decide (f.va.toNat < e.va.toNat + e.size)) ||
  (e.pa != 0 && f.pa != 0 && decide (e.pa < f.pa + f.size) && decide (f.pa < e.pa + e.size))

/-- A lane's entry. -/
def entryAt (s : State) (c slot l i : Nat) : Option Access := (laneOf (warpOf s c slot) l).front[i]?

/-- The entries before it. -/
def entriesBefore (s : State) (c slot l i : Nat) : List Access := (laneOf (warpOf s c slot) l).front.take i

/-- What every step of an access needs: its translation current, no request awaited by it or an earlier access, no
earlier acquire or fence (05 R94, 04 R85, 23 R403). -/
def mayAct (s : State) (c slot l i : Nat) (e : Access) : Bool :=
  e.wait.isNone && e.gen == (ctxOf s (warpOf s c slot).ctx).gen &&
  (entriesBefore s c slot l i).all fun b => !holdsLater (vecOf s c) b && b.wait.isNone

/-- A load's further condition: no earlier load or atomic on its bytes waits to perform. -/
def loadClear (s : State) (c slot l i : Nat) (e : Access) : Bool :=
  (entriesBefore s c slot l i).all fun b => b.kind == .store || !isMemAcc b || !overlaps b e

/-- Is a remote write that a core's queues sent still on its way (05 R94, R101; log 9)? -/
def remoteOut (s : State) (c : Nat) : Bool := s.sent.any fun r => r.core == c

/-- A release's further conditions (05 R94). -/
def releaseClear (s : State) (c slot l i ord : Nat) : Bool :=
  (entriesBefore s c slot l i).all (!isMemAcc ·) && (ord != 5 || !remoteOut s c)

/-- Accesses of one bundle to one location act in ascending lane order (04 R88, 12 R263); `but` is a lane that acts with it. -/
def lowerLanesClear (s : State) (c slot l : Nat) (e : Access) (but : Nat := 32) : Bool :=
  (List.range l).all fun k => k == but || (laneOf (warpOf s c slot) k).front.all fun b =>
    !(b.seq == e.seq && b.pc == e.pc && b.widx == e.widx && b.kind == e.kind && overlaps b e)

/-- Remove a lane's entry. -/
def dropEntry (s : State) (c slot l i : Nat) : State :=
  modWarp s c slot fun w => modLane w l fun x => { x with front := x.front.eraseIdx i }
/-- Change a lane's entry. -/
def modEntry (s : State) (c slot l i : Nat) (f : Access → Access) : State :=
  modWarp s c slot fun w => modLane w l fun x => { x with front := x.front.modify i f }

/-- The scoreboard without one lane's write of a register. -/
def clearPending (w : Warp) (n l : Nat) : Warp :=
  { w with board := (w.board.map fun p =>
      if p.kind == 0 && p.num == n then { p with lanes := maskSet p.lanes l false } else p).filter (·.lanes != 0) }

/-- A result arrives in a lane's register (02 R34). -/
def deliverX (s : State) (c slot l n : Nat) (v : Word) : State :=
  modWarp s c slot fun w => clearPending (modLane w l fun x => setX x n v) n l

/-- The agent that a warp's thread accesses are made by. -/
def whoOf (s : State) (c slot : Nat) : Who := ⟨c, (warpOf s c slot).ctx, 0⟩

/-- Does an entry come from the same word of the same bundle? -/
def sameWord (e f : Access) : Bool := e.seq == f.seq && e.pc == f.pc && e.widx == f.widx && e.kind == f.kind

/-- Drop what a word still waits for in one lane. -/
def dropWord (e : Access) (w : Warp) (l : Nat) : Warp :=
  let x := laneOf w l
  if x.front.any (sameWord e) then
    clearPending (setLane w l { x with front := x.front.filter fun f => !sameWord e f }) e.dst l
  else w

/-- An access found at fault after issue: its word's threads stop at the group, and what the word still waits for is
dropped (22 R389, R392, 10 R227). -/
def accessFault (s : State) (c slot l i cause : Nat) (addr : Word) : State :=
  match entryAt s c slot l i with
  | none => s
  | some e =>
    let ls := e.lanes ||| (1#32 <<< l)
    let s := modWarp s c slot fun w => (lanesOf ls).foldl (dropWord e) w
    raiseFault {
      cause := cause, addr := addr, core := c, slot := slot, lanes := ls, pc := e.pc,
      words := e.words, widx := e.widx, word := e.word, rep := some e.rep, reps := e.reps, byAccess := true } s

/-- Carry out an entry's access: a missing page makes it wait, a failed check faults (23 R403). -/
def carryOut {α : Type} (s : State) (c slot l i : Nat) (m : M α) (k : α → State → State) : State :=
  match m s with
  | .ok a s => k a s
  | .error (.page x r va) s =>
    let (n, s) := postPage s x r
    modEntry s c slot l i fun e => { e with wait := some (x, n), va := if e.kind == .vopen then va else e.va }
  | .error (.fail cause va) s => accessFault s c slot l i cause va

/-- The bytes a load sees: the youngest earlier store of its thread to each byte, else its sector (05 R94). -/
def loadBytes (w : Who) (before : List Access) (e : Access) : M (List Byte) := do
  let bs ← vread w e.va.toNat e.size
  return (List.range e.size).map fun k =>
    match before.reverse.find? fun b => b.kind == .store &&
        overlaps b { e with va := e.va + .ofNat 64 k, pa := if e.pa == 0 then 0 else e.pa + k, size := 1 } with
    | some b =>
      let off := if b.va.toNat ≤ e.va.toNat + k && decide (e.va.toNat + k < b.va.toNat + b.size)
        then e.va.toNat + k - b.va.toNat else e.pa + k - b.pa
      .ofNat 8 (b.x1.toNat / 2 ^ (8 * off))
    | none => bs.getD k 0

/-- LOAD_PERFORM: enabled and performed (05 R94). -/
def loadStep (c slot l i : Nat) (s : State) : Option State :=
  match entryAt s c slot l i with
  | some e =>
    if e.kind == .load && mayAct s c slot l i e && loadClear s c slot l i e then
      some (carryOut s c slot l i (loadBytes (whoOf s c slot) (entriesBefore s c slot l i) e) fun bs s =>
        deliverX (dropEntry s c slot l i) c slot l e.dst (.ofNat 64 (ofBytes bs)))
    else none
  | none => none

/-- STORE_DRAIN: the store leaves the buffer and is applied at its sector (05 R94, R95). -/
def storeStep (c slot l i : Nat) (s : State) : Option State :=
  match entryAt s c slot l i with
  | some e =>
    if e.kind == .store && mayAct s c slot l i e
        && ((entriesBefore s c slot l i).all fun b => !isMemAcc b || !overlaps b e)
        && (e.ord == 0 || releaseClear s c slot l i e.ord) && lowerLanesClear s c slot l e then
      some (carryOut s c slot l i (vwrite (whoOf s c slot) e.va.toNat (leBytes e.size e.x1.toNat)) fun _ s =>
        dropEntry s c slot l i)
    else none
  | none => none

/-- May an atomic perform (05 R94, R96)?  `but` is a lane of its bundle whose request merges with it. -/
def atomicClear (s : State) (c slot l i : Nat) (e : Access) (but : Nat := 32) : Bool :=
  e.kind == .atomic && mayAct s c slot l i e
    && ((entriesBefore s c slot l i).all fun b => !isMemAcc b || !overlaps b e)
    && (e.ord == 0 || releaseClear s c slot l i e.ord) && lowerLanesClear s c slot l e but

/-- The old value and the stamp of an atomic on virtual memory; the sink returns 0 (12 R263). -/
def atomicVirt (w : Who) (va : Word) (n : Nat) (f : Nat → Option Nat) : M (Nat × Vec4) := do
  if let some _ := sinkWorld (← get) w va.toNat then return (0, {})
  let pa ← translate w va 3
  atomicPhys w pa n f

/-- Two requests that a router may merge: to one address, whatever their sectors and contexts (05 R97). -/
def mergesWith (e f : Access) : Bool :=
  f.kind == .atomic && e.mergeable && f.mergeable && f.op == e.op && f.size == e.size && f.pa == e.pa && e.pa != 0

/-- The requests that could merge with this one, each enabled by itself but for this one. -/
def mergePeers (s : State) (c slot l i : Nat) (e : Access) : List (Nat × Nat × Nat × Nat) :=
  if !e.mergeable then [] else
  s.cores.flatMap fun k => k.2.warps.flatMap fun w =>
    w.2.lanes.flatMap fun x => ((List.range x.2.front.length).map fun j => (k.1, w.1, x.1, j)).filter fun p =>
      p != (c, slot, l, i) && match entryAt s p.1 p.2.1 p.2.2.1 p.2.2.2 with
        | some f => mergesWith e f &&
            atomicClear s p.1 p.2.1 p.2.2.1 p.2.2.2 f (if p.1 == c && p.2.1 == slot then l else 32)
        | none => false

/-- The operand of a merged request: the two operands under the operation, one rounding for ATOMF (05 R97). -/
def mergedOperand (e f : Access) : Nat :=
  (atomNew e.op e.size (e.x1.toNat % 2 ^ (8 * e.size)) f.x1.toNat 0).getD e.x1.toNat

/-- ATOMIC_PERFORM: at the home sector; an acquire holds the thread until its sector reaches the stamp (05 R96).
Whether an eligible request merges with another is a free choice, two at a time (05 R97, log 4, log 27). -/
def atomicStep (c slot l i : Nat) (s : State) : Option State :=
  match entryAt s c slot l i with
  | some e =>
    if atomicClear s c slot l i e then
      let peers := mergePeers s c slot l i e
      let (pickd, s) := if peers.isEmpty then (0, s) else pick s (peers.length + 1)
      let peer := if pickd = 0 then none else peers[pickd - 1]?
      let x1 := match peer with
        | some p => match entryAt s p.1 p.2.1 p.2.2.1 p.2.2.2 with
          | some f => mergedOperand e f
          | none => e.x1.toNat
        | none => e.x1.toNat
      some (carryOut s c slot l i (atomicVirt (whoOf s c slot) e.va e.size fun old => atomNew e.op e.size old x1 e.x2.toNat)
        fun r s =>
          let s := modWarp s c slot fun w => modLane w l fun x => { x with stamp := x.stamp.join r.2 }
          let s := if e.ord != 0 && !e.red
            then modEntry s c slot l i fun _ => { kind := .hold, stamp := r.2 }
            else dropEntry s c slot l i
          let s := match peer with
            | some p =>
              let s := modWarp s p.1 p.2.1 fun w => modLane w p.2.2.1 fun x => { x with stamp := x.stamp.join r.2 }
              if p.1 == c && p.2.1 == slot && p.2.2.1 == l && decide (i < p.2.2.2) && !(e.ord != 0 && !e.red)
              then dropEntry s p.1 p.2.1 p.2.2.1 (p.2.2.2 - 1) else dropEntry s p.1 p.2.1 p.2.2.1 p.2.2.2
            | none => s
          if e.red then s else deliverX s c slot l e.dst (.ofNat 64 r.1))
    else none
  | none => none

/-- The sectors whose vectors a fence of a scope waits for (05 R101). -/
def fenceSectors (s : State) (c ord : Nat) : List Nat :=
  if ord == 4 || ord == 5 then [0, 1, 2, 3].filter fun x => samePart s (secOf c) x else [secOf c]

/-- FENCE_COMPLETE: the lane's oldest fence (05 R101). -/
def fenceStep (c slot l : Nat) (s : State) : Option State :=
  let x := laneOf (warpOf s c slot) l
  match x.front.findIdx? fun e => e.kind == .fence with
  | none => none
  | some i =>
    let e := x.front.getD i { kind := .fence }
    let ready := (x.front.take i).all (!isMemAcc ·) && x.stamp.le (vecOf s c)
    if !ready then none
    else
      let s' := if e.armed then s else modEntry s c slot l i fun e => { e with armed := true, stamp := vecOf s c }
      let v := if e.armed then e.stamp else vecOf s c
      if ((fenceSectors s c e.ord).all fun d => v.le (sectorOf s d).a) && (e.ord != 5 || !remoteOut s c) then
        let s := dropEntry s' c slot l i
        let s := if e.ord == 6 then postSts s c (writerOf (warpOf s c slot) l) e.x1.toNat else s
        let w := warpOf s c slot
        let p := (laneOf w l).park
        -- a warp that drains, is halted or has left wakes nothing (02 R42)
        some (if p.kind == 5 && (w.st == .ready || w.st == .current || w.st == .parked)
          then settleAt c slot (maskRelease c slot p.op.toNat s) else s)
      else if e.armed then none else some s'

/-- GENERATION_REJECT_REPLAY: the oldest access under a stale generation is translated anew (04 R85, 23 R408). -/
def replayStep (c slot l : Nat) (s : State) : Option State :=
  let g := (ctxOf s (warpOf s c slot).ctx).gen
  match (laneOf (warpOf s c slot) l).front.findIdx? fun e => isOwnAcc e && e.gen != g && e.wait.isNone with
  | none => none
  | some i =>
    match entryAt s c slot l i with
    | none => none
    | some e =>
      let kind := match e.kind with | .store => 1 | .atomic => 3 | _ => 0
      let s := modEntry s c slot l i fun e => { e with gen := g }
      some (if (sinkWorld s (whoOf s c slot) e.va.toNat).isSome then s
        else carryOut s c slot l i (translate (whoOf s c slot) e.va kind) fun pa s => modEntry s c slot l i fun e => { e with pa := pa })

/-! ### Completion objects (09 R206, R207) -/

/-- The object's flag word, bits [95:64], and its COUNT, in scratchpad order; damaged granules read zero (23 R409). -/
def objRead (s : State) (c a : Nat) : Nat × Nat :=
  let part (b : Nat) : Nat := if (coreOf s c).padBad.contains (b / 8 * 8) then 0 else ofBytes (memGets (coreOf s c).pad b 8)
  (part (a + 8) % 2 ^ 32, part a)

/-- The damage that a read of an object finds is logged (23 R409); KIND 2 for an atomic. -/
def objLog (s : State) (c ctx agent a kind : Nat) : State := (padRead s c ctx agent a 16 kind).2

/-- An engine sets bits of the flag word. -/
def objFlag (s : State) (c a bits : Nat) : State :=
  if bits = 0 then s else engWrite s c (a + 8) (leBytes 4 ((objRead s c a).1 ||| bits))

/-- A count-down of n bytes: the new COUNT, and whether it overran (09 R207). -/
def countResult (count n : Nat) : Nat × Bool := if n ≤ count then (count - n, false) else (0, true)

/-- An engine's count-down on an object. -/
def countDown (s : State) (c a n : Nat) : State :=
  if n = 0 then s else
  let (v, ovf) := countResult (objRead s c a).2 n
  let s := objFlag s c a (if ovf then 2 ^ 9 else 0)
  engWrite s c a (leBytes 8 v)

/-! ### Waking parked threads -/

/-- WAITV's evaluation: enabled and satisfied (12 R264). -/
def waitvStep (c slot l i : Nat) (e : Access) (s : State) : Option State :=
  if mayAct s c slot l i e && loadClear s c slot l i e then
    match loadBytes (whoOf s c slot) (entriesBefore s c slot l i) e s with
    | .ok bs s' =>
      let w := 8 * e.size
      if condHolds e.cond w (ofBytes bs) (e.x1.toNat % 2 ^ w)
      then some (deliverX (dropEntry s' c slot l i) c slot l e.dst (.ofNat 64 (ofBytes bs)))
      else none
    | .error _ _ => some (carryOut s c slot l i (loadBytes (whoOf s c slot) (entriesBefore s c slot l i) e) fun _ s => s)
  else none

/-- JOIN's evaluation: the counter reads zero (15 R323). -/
def joinStep (c slot l i : Nat) (e : Access) (s : State) : Option State :=
  if mayAct s c slot l i e && loadClear s c slot l i e then
    match loadBytes (whoOf s c slot) (entriesBefore s c slot l i) e s with
    | .ok bs s' => if ofBytes bs = 0 then some (dropEntry s' c slot l i) else none
    | .error _ _ => some (carryOut s c slot l i (loadBytes (whoOf s c slot) (entriesBefore s c slot l i) e) fun _ s => s)
  else none

/-- Let a lane leave its wait. -/
def wakeAt (c slot l : Nat) (s : State) : State :=
  settleAt c slot (modWarp s c slot fun w => unparkWarp (modLane w l wakeLane))

/-- The arrivals of an ended phase are posted (12 R267). -/
def postPhase (s : State) (c g n tok : Nat) : State :=
  (mget [] (mget {} (groupOf s c g).bars n).past tok).foldl (fun s e => postSts s c e.1 e.2) s

/-- THREAD_WAKE: a parked thread whose condition holds becomes ready (02 R36). -/
def wakeStep (c slot l : Nat) (s : State) : Option State :=
  let w := warpOf s c slot
  let x := laneOf w l
  if !(x.st == .parked && !x.stopped && (w.st == .ready || w.st == .current || w.st == .parked)) then none
  else match x.park.kind with
    | 1 =>
      match x.front.findIdx? fun e => e.kind == .waitv with
      | some i => match x.front[i]? with
        | some e => (waitvStep c slot l i e s).map fun s =>
            if ((laneOf (warpOf s c slot) l).front.any fun e => e.kind == .waitv) || (laneOf (warpOf s c slot) l).stopped then s
            else wakeAt c slot l s
        | none => none
      | none => none
    | 2 =>
      match x.front.findIdx? fun e => e.kind == .join with
      | some i => match x.front[i]? with
        | some e => (joinStep c slot l i e s).map fun s =>
            if ((laneOf (warpOf s c slot) l).front.any fun e => e.kind == .join) || (laneOf (warpOf s c slot) l).stopped then s
            else wakeAt c slot l s
        | none => none
      | none => none
    | 3 =>
      let a := w.padBase + x.park.op.toNat
      let (f, n) := objRead s c a
      let s := if n = 0 || bitAt f 10 then objLog s c w.ctx 0 a 0 else s
      if n = 0 || bitAt f 10 then some (wakeAt c slot l (modWarp s c slot fun w =>
        addPending (modLane w l fun k => setX k x.park.dst (.ofNat 64 f)) 0 x.park.dst (maskOf [l]) (s.clk + 24)))
      else none
    | 4 =>
      let n := x.park.op.toNat % 1024
      let tok := fld x.park.op.toNat 31 16
      if (mget {} (groupOf s c w.group).bars n).phase != tok
      then some (wakeAt c slot l (if x.park.eng then postPhase s c w.group n tok else s))
      else none
    | 5 =>
      let s' := maskRelease c slot x.park.op.toNat s
      if (laneOf (warpOf s' c slot) l).st == .parked && !(laneOf (warpOf s' c slot) l).stopped then none else some (settleAt c slot s')
    | _ => none

/-- Every thread of a warp whose condition holds wakes, in lane order: R36 gives each 16 clk. -/
def wakeAll (c slot : Nat) (s : State) : Option State :=
  (List.range 32).foldl (fun (r : Option State) l =>
    match wakeStep c slot l (r.getD s) with | some s => some s | none => r) none

end Sys2Proof.Machine
end

