-- ==== Sys2Proof/Machine/Tensor.lean ====
section
/-! DEFINITION. Tensor identifiers (06 R125, R126), where a tensor's elements, scales and bands lie (06 R116-R118), and the
array's arithmetic (06 R127-R131, 09 R197, R198). -/

namespace Sys2Proof.Machine

/-! ### Tensor identifiers -/

/-- A TID entry (06 R125); extents beyond NDIM are 1. -/
structure Tensor where
  format : Nat
  valid : Bool
  resv : Bool
  sunit : Bool
  pad : Bool
  enc : Bool
  sparse : Bool
  d0 : Nat
  d1 : Nat
  d2 : Nat
  d3 : Nat
  s1 : Nat
  s2 : Nat
  s3 : Nat
  base : Nat
  scale : Nat
  band : Nat
  code : Nat
  meta_ : Nat
  deriving DecidableEq, Repr

/-- Read a TID image's fields. -/
def tensorOf (v : Nat) : Tensor :=
  let nd := fld v 15 14
  { format := fld v 7 0, valid := bitAt v 8, resv := bitAt v 9 || fld v 34 16 != 0, sunit := bitAt v 10,
    pad := bitAt v 11, enc := bitAt v 12, sparse := bitAt v 13, d0 := fld v 58 35,
    d1 := if 1 ≤ nd then fld v 82 59 else 1, d2 := if 2 ≤ nd then fld v 106 83 else 1,
    d3 := if 3 ≤ nd then fld v 130 107 else 1, s1 := fld v 162 131, s2 := fld v 194 163, s3 := fld v 226 195,
    base := fld v 283 227, scale := fld v 340 284, band := fld v 397 341, code := fld v 454 398, meta_ := fld v 511 455 }

/-- Bits of an element (06 R110-R116, R126). -/
def elemBits (format : Nat) : Nat :=
  match format with
  | 1 => 32 | 2 => 16 | 3 => 16 | 4 => 8 | 5 => 8 | 6 => 4 | 7 => 4 | 8 => 8 | 9 => 4 | _ => 32

/-- Is an entry usable, its window range apart (06 R126)? -/
def Tensor.usable (t : Tensor) : Bool :=
  t.valid && !t.resv && 1 ≤ t.format && t.format ≤ 10 && t.d0 != 0 && t.d1 != 0 && t.d2 != 0 && t.d3 != 0
  && (t.format != 6 || t.d0 % 8 == 0) && (t.format != 7 || t.d0 % 32 == 0)
  && (!t.sparse || t.format == 4 || t.format == 5 || t.format == 8)

/-- Rows of a tensor: ρ runs over dimensions 1 to 3 (06 R117). -/
def Tensor.rows (t : Tensor) : Nat := t.d1 * t.d2 * t.d3
/-- The address of a row's first element: dimension 0 is dense (06 R125). -/
def Tensor.rowAddr (t : Tensor) (r : Nat) : Nat :=
  t.base + (r % t.d1 * t.s1 + r / t.d1 % t.d2 * t.s2 + r / (t.d1 * t.d2) * t.s3) * (if t.sunit then 4096 else 1)

/-- A range of scratchpad offsets. -/
abbrev Span := Nat × Nat

/-- The bytes of `n` elements of a row from element `k` on, those outside the extents left out. -/
def Tensor.elems (t : Tensor) (r k n : Nat) : Span :=
  if t.rows ≤ r || t.d0 ≤ k then (0, 0)
  else
    let w := elemBits t.format
    let m := min n (t.d0 - k)
    (t.rowAddr r + k * w / 8, ((k + m) * w + 7) / 8 - k * w / 8)
/-- The stored elements of a compressed row, four for each group of eight (14 R298). -/
def Tensor.stored (t : Tensor) (r k n : Nat) : Span :=
  let m := (t.d0 + 7) / 8 * 4
  if t.rows ≤ r || m ≤ k then (0, 0) else (t.rowAddr r + k, min n (m - k))
/-- The block-scale bytes of `n` elements of a row (06 R117, R118). -/
def Tensor.scales (t : Tensor) (r k n : Nat) : Span :=
  let b := if t.format == 6 then 8 else 32
  if (t.format != 6 && t.format != 7) || t.rows ≤ r || t.d0 ≤ k || n == 0 then (0, 0)
  else (t.scale + r * (t.d0 / b) + k / b, (min (k + n) t.d0 - 1) / b - k / b + 1)
/-- The band-scale bytes of a row; none when every band scale is 1.0 (06 R117). -/
def Tensor.bandOf (t : Tensor) (r : Nat) : Span :=
  if t.format != 6 || t.band == 0 || t.rows ≤ r then (0, 0) else (t.band + 2 * (r / 64), 2)

/-- Does a span lie in a window of `size` bytes? -/
def spanIn (size : Nat) (x : Span) : Bool := x.2 == 0 || decide (x.1 + x.2 ≤ size)

/-! ### Elements -/

/-- An integer as a number. -/
def numOfInt (v : Int) : Num := .fin (decide (v < 0)) v.natAbs 0
/-- An E8M0 scale (06 R115). -/
def e8m0 (b : Nat) : Num := if b = 255 then .nan else .fin false 1 ((b : Int) - 127)
/-- The value of an element's code, its scales apart. -/
def elemNum (format raw : Nat) : Num :=
  match format with
  | 1 => f32.decode raw | 2 => f16.decode raw | 3 => bf16.decode raw | 4 => e4m3.decode raw | 5 => e5m2.decode raw
  | 6 => e2m1.decode raw | 7 => e2m1.decode raw
  | f => numOfInt (signed (elemBits f) raw)
/-- The value of a block-scale byte. -/
def scaleNum (format b : Nat) : Num := if format = 6 then e3m5.decode b else e8m0 b
/-- Is a number a NaN or an infinity? -/
def nonFinite : Num → Bool
  | .fin .. => false
  | _ => true

/-- Element `j` of packed elements of `w` bits. -/
def elemAt (x w j : Nat) : Nat := x / 2 ^ (w * j) % 2 ^ w

/-- The pairs of R127 by weights' or activations' format: 0 BF16, 1 FP8, 2 INT8, 3 NB8 and MXFP4, 4 INT4, 5 no pair. -/
def pairOf (format : Nat) : Nat :=
  match format with
  | 3 => 0 | 4 => 1 | 5 => 1 | 8 => 2 | 6 => 3 | 7 => 3 | 9 => 4 | _ => 5
/-- Elements that one cell handles (06 R127). -/
def perCell (pair : Nat) : Nat := match pair with | 0 => 1 | 1 => 2 | 2 => 2 | _ => 8
/-- Is a pair's tile word INT32? -/
def pairInt (pair : Nat) : Bool := pair == 2 || pair == 4

/-! ### A cell -/

/-- A dot product, exact, whatever the order of its terms (06 R128): the value and the flags. -/
def dotNum (ws as : List Num) : Num × Nat :=
  let ps := List.zipWith mulNum ws as
  let vs := ps.map (·.1)
  let fl := ps.foldl (fun f p => f ||| p.2) 0 ||| (if vs.contains (.inf true) && vs.contains (.inf false) then flNV else 0)
  match vs with
  | [] => (.fin false 0 0, 0)
  | v :: t => (t.foldl (fun s x => (addNum 0 s x).1) v, fl)

/-- The indices that a metadata halfword keeps (14 R298). -/
def keptOf (h : Nat) : List Nat := [h % 8, h / 8 % 8, h / 64 % 8, h / 512 % 8]

/-- A plane as the array reads it: formats, and the 32 bits and the side word of each cell. -/
structure Weights where
  format : Nat
  sparse : Bool
  cell : Nat → Nat → Nat × Nat

/-- The weights and activations that meet in a cell: `w` its bits, `h` its side word, `a` the row's activations, `r` the
array row (06 R128). -/
def cellPairs (p : Weights) (af w h a r : Nat) : List Nat × List Nat :=
  let bits := elemBits p.format
  let ab := elemBits af
  if p.sparse then ((List.range 4).map (elemAt w 8), (keptOf h).map fun i => elemAt a 8 (8 * r + i))
  else
    let k := perCell (pairOf p.format)
    ((List.range k).map (elemAt w bits), (List.range k).map fun j => elemAt a ab (k * r + j))

/-- A floating-point cell's value, its flags included: an all-zero NB8 block is skipped (06 R128, 09 R194). -/
def cellNum (p : Weights) (af sa w h a r : Nat) : Num × Nat :=
  let (ws, as) := cellPairs p af w h a r
  if pairOf af == 3 then
    if (p.format == 6 && h % 256 == 0) || (af == 6 && sa == 0) then
      (.fin false 0 0, if (p.format == 7 && h % 256 == 255) || (af == 7 && sa == 255) then flSKIPNF else 0)
    else
      let (v, f) := dotNum (ws.map (elemNum p.format)) (as.map (elemNum af))
      let (x, g) := mulNum (scaleNum p.format (h % 256)) (scaleNum af sa)
      let (y, k) := mulNum x v
      (y, f ||| g ||| k)
  else dotNum (ws.map (elemNum p.format)) (as.map (elemNum af))

/-- An integer cell's value. -/
def cellInt (p : Weights) (af w h a r : Nat) : Int :=
  let (ws, as) := cellPairs p af w h a r
  (List.zipWith (fun x y => signed (elemBits p.format) x * signed (elemBits af) y) ws as).foldl (· + ·) 0

/-! ### A pass -/

/-- floor(log2 |v|) of a non-zero finite number. -/
def topBit : Num → Int
  | .fin _ m e => e + Nat.log2 m
  | _ => 0
/-- Is a number a non-zero finite one? -/
def nonZero : Num → Bool
  | .fin _ m _ => m != 0
  | _ => false
/-- A term truncated toward zero to a multiple of 2^q, and whether a part was lost. -/
def truncTerm (q : Int) : Num → Int × Bool
  | .fin n m e => let k := shiftI m (e - q); (if n then -(k : Int) else k, decide (e < q) && m % 2 ^ (q - e).toNat != 0)
  | _ => (0, false)

/-- The floating-point update of a tile word from its terms (06 R129): the code and the flags. -/
def passWord (vs : List Num) : Nat × Nat :=
  if vs.any (· == .nan) then (f32.dnan, 0)
  else if vs.any (· == .inf true) && vs.any (· == .inf false) then (f32.dnan, flNV)
  else if vs.any (· == .inf false) then (f32.infCode, 0)
  else if vs.any (· == .inf true) then (f32.sign true + f32.infCode, 0)
  else
    let z := vs.filter nonZero
    match z with
    | [] => (if vs.all isNeg then f32.sign true else 0, 0)
    | v :: t =>
      let e := t.foldl (fun m x => max m (topBit x)) (topBit v)
      let q := e - 56
      let ts := z.map (truncTerm q)
      let sum : Int := ts.foldl (fun n x => n + x.1) 0
      let lost := ts.any (·.2)
      if sum = 0 then (0, if lost then flNX else 0)
      else
        let (c, f) := f32.roundFin 0 false 0 (decide (sum < 0)) sum.natAbs q
        (c, if lost then f ||| flNX ||| (if f32.tiny 0 (decide (sum < 0)) 0 sum.natAbs q then flUF else 0) else f)

/-- The integer update of a tile word (06 R130). -/
def passInt (c : Nat) (cells : List Int) : Nat := truncI (signed 32 c + cells.foldl (· + ·) 0) 32

/-- The once-rounded reference of R134. -/
def reference (vs : List Num) : Nat :=
  (f32.round 0 false 0 (vs.foldl (fun n x => (addNum 0 n x).1) (.fin true 0 0))).1

/-- The class of a number for R134: finite, infinite, NaN. -/
def numClass : Num → Nat
  | .nan => 2 | .inf _ => 1 | .fin .. => 0

/-- |result - reference| and it in ulps of the reference, none when the classes differ (06 R134). -/
def deviation (result ref : Nat) : Option (Num × Nat) :=
  let a := f32.decode result
  let b := f32.decode ref
  if numClass a != numClass b then none
  else match (addNum 0 a (negNum b)).1, b with
    | .fin _ m e, .fin _ k d =>
      let top : Int := if k = 0 then -126 else max (-126) (d + Nat.log2 k)
      some (.fin false m e, shiftI m (e - (top - 23)))
    | _, _ => some (.fin false 0 0, 0)

/-! ### The drain chain (09 R197, R198) -/

/-- An epilogue set, as its 144 words: word i of set k stands at 144 k + i. -/
abbrev EpiSet := Nat → Nat

/-- Act(y): the segment, exact, then a fused multiply-add (09 R198). -/
def actNum (e : EpiSet) (y : Nat) : Nat × Nat :=
  match f32.decode y with
  | .nan => (f32.dnan, 0)
  | v =>
    let seg : Nat := match v with
      | .fin ny my ey =>
        match f32.decode (e 128), f32.decode (e 129) with
        | .fin nl ml el, .fin nh mh eh =>
          let q := min ey (min el eh)
          let val (n : Bool) (m : Nat) (x : Int) : Int := (if n then -1 else 1) * (m * 2 ^ (x - q).toNat : Nat)
          let lo := val nl ml el
          let hi := val nh mh eh
          if hi ≤ lo then 0 else (max 0 (min 63 (64 * (val ny my ey - lo) / (hi - lo)))).toNat
        | _, _ => 0
      | .inf n => if n then 0 else (match f32.decode (e 128), f32.decode (e 129) with
        | x, y => if ltNum x y then 63 else 0)
      | .nan => 0
    let (r, f) := fmaNum 0 (f32.decode (e (2 * seg))) v (f32.decode (e (2 * seg + 1)))
    let (c, g) := f32.round 0 false 0 r
    (c, f ||| g)

/-- The product of two numbers rounded to f32. -/
def mulRound (a b : Num) : Nat × Nat :=
  let (p, f) := mulNum a b
  let (c, g) := f32.round 0 false 0 p
  (c, f ||| g)

/-- What an MDRAIN's operands ask of the chain. -/
structure DrainCfg where
  bias : Bool
  act : Bool
  quant : Bool
  rnd : Nat
  format : Nat
  int : Bool

/-- Convert to an output format, saturating (06 R120, R122). -/
def toFormat (format mode rnd v : Nat) : Nat × Nat :=
  match format with
  | 1 => f32.round mode true rnd (f32.decode v)
  | 2 => f16.round mode true rnd (f32.decode v)
  | 3 => bf16.round mode true rnd (f32.decode v)
  | 4 => e4m3.round mode true rnd (f32.decode v)
  | 5 => e5m2.round mode true rnd (f32.decode v)
  | f => roundInt (elemBits f) true mode rnd (f32.decode v)

/-- One word through the drain chain: the output code and the flags (09 R197). -/
def drainWord (g : DrainCfg) (e : EpiSet) (c bw ba bias rnd : Nat) : Nat × Nat :=
  if g.int && !(g.bias || g.act || g.quant) && g.format != 1 then (c, 0)
  else
    let (y, f) := if g.int then f32.round 0 false 0 (numOfInt (signed 32 c))
      else
        let (y, f) := mulRound (f32.decode c) (bf16.decode bw)
        let (z, h) := mulRound (f32.decode y) (bf16.decode ba)
        (z, f ||| h)
    let (y, f) := if g.bias then (let (z, h) := arith f32 0 0 y bias 0; (z, f ||| h)) else (y, f)
    let (y, f) := if g.act then (let (z, h) := actNum e y; (z, f ||| h)) else (y, f)
    if g.quant then
      let (z, h) := mulRound (f32.decode y) (f32.decode (e 130))
      let (c, k) := toFormat g.format g.rnd rnd z
      (c, f ||| h ||| k)
    else (y, f)

end Sys2Proof.Machine
end

