-- ==== Sys2Proof/Machine/Engines.lean ====
section
/-! DEFINITION. What the engines of a core share: event lines (09 R208, R209), power leave (01 R20-R22, 09 R210, 24 R432),
completion (09 R206, R207, 06 R136), TID entries in memory (06 R125, 14 R296) and the TID and event words of majors 0x30
and 0x36. -/

namespace Sys2Proof.Machine

/-! ### Event lines (09 R208) -/

/-- A pulse on a line: a lost one sets the overflow bit. -/
def pulse (c n : Nat) (s : State) : State :=
  modCore s c fun k =>
    let v := mget 0 k.events n
    if v < 255 then { k with events := mput 0 k.events n (v + 1) } else { k with overflow := maskSet k.overflow n true }

/-- A sink takes 1 from a line, if it can. -/
def takeEvent (c n : Nat) (s : State) : Option State :=
  let v := mget 0 (coreOf s c).events n
  if v = 0 then none else some (modCore s c fun k => { k with events := mput 0 k.events n (v - 1) })

/-- EVCLR. -/
def clearEvent (c n : Nat) (s : State) : State :=
  modCore s c fun k => { k with events := mput 0 k.events n 0, overflow := maskSet k.overflow n false }

/-! ### Completion -/

/-- A command's flags when it completes: to the completion object outside normal service, else to FPFLAGS; SKIPNF to
FPFLAGS always (06 R136, R137). -/
def commandFlags (c ctx mode flags : Nat) (obj : Option Nat) (s : State) : State :=
  match (if mode = 0 then none else obj) with
  | some a => mergeFlags ctx (flags &&& flSKIPNF) (objFlag s c a (flags % 64))
  | none => mergeFlags ctx flags s

/-- May a count on this object be taken: a release at .fabric waits for the core's remote writes (05 R94, R100, log 9)? -/
def objReady (s : State) (c : Nat) (obj : Option Nat) : Bool :=
  match obj with
  | some a => decide ((objRead s c a).1 / 64 % 8 < 4) || !remoteOut s c
  | none => true

/-! ### Power leave -/

/-- Committed power of a sector in watts (09 R210). -/
def committed (s : State) (x : Nat) : Nat := (sectorOf s x).held.foldl (fun n r => n + r.watts) 380

/-- A command of a context gives its leave back (01 R21). -/
def dropLeave (c u ctx w : Nat) (s : State) : State :=
  modSector s (secOf c) fun k =>
    { k with held := k.held.eraseP fun r => r.core == c && r.unit_ == u && r.ctx == ctx && r.watts == w }

/-- A unit's request stops waiting: THROTTLED sets if it has waited longer than 200 ns (01 R22). -/
def dropRequest (c u : Nat) (s : State) : State :=
  let mine (r : LeaveReq) : Bool := r.core == c && r.unit_ == u
  let rs := (sectorOf s (secOf c)).requests
  let s := if rs.any fun r => mine r && waitedLong s r then setThrottled s (secOf c) else s
  modSector s (secOf c) fun k => { k with requests := rs.filter (!mine ·) }

/-- Does a request of the same clk go after another: a greater core number, a new one after one made again, a greater queue
or scheduler number, a matrix command after the queue of its scheduler's number (01 R21, log 49)? -/
def laterRequest (r q : LeaveReq) : Bool :=
  let key (x : LeaveReq) : Nat := ((x.core * 2 + if x.again then 0 else 1) * 16 + x.rank) * 16 + x.unit_
  r.since == q.since && decide (key q < key r)

/-- Enter a request: waiting requests stand in arrival order, those of one clk by core and number (01 R21). -/
def addRequest (q : LeaveReq) (s : State) : State :=
  modSector s (secOf q.core) fun k =>
    let n := (k.requests.takeWhile fun r => !laterRequest r q).length
    { k with requests := k.requests.take n ++ q :: k.requests.drop n }

/-- Log a refused request (24 R432). -/
def logRefused (c u ctx w : Nat) (s : State) : State :=
  logCore s c ctx 0x4C 0 (detail 15 (if u = 8 then 3 else 2) 3
    (pglim s (secOf c) * 65536 + (if u = 8 then 255 else u) * 256 + w))

/-! ### TID entries -/

/-- The address of an entry of a context's table. -/
def tidAddr (s : State) (ctx n : Nat) : Nat := recField s ctx 319 256 + 64 * n

/-- The image of an entry: memory, and what a TIDSET of the same core has not yet put there (14 R296). -/
def tidRead (w : Who) (n : Nat) (own : Bool) : M Nat := do
  let s ← get
  match if own then (coreOf s w.core).tidset.reverse.find? fun e => e.1 == w.ctx && e.2.1 == n else none with
  | some e => return ofBytes e.2.2.1
  | none => vreadN w (tidAddr s w.ctx n) 64

/-- An engine's access outside an instruction: done, not possible before a page request is answered (with the state in
which the request is posted, when it is new), or failed. -/
inductive Engine (α : Type) where
  | done (a : α) (s : State)
  | wait (s : Option State)
  | failed (s : State)

/-- Run the access of unit `u` of a core. -/
def runEngine {α : Type} (c u : Nat) (m : M α) (s : State) : Engine α :=
  let k := coreOf s c
  if k.unitWait.any (·.1 == u) then .wait none
  else if k.unitFail.contains u then .failed (modCore s c fun k => { k with unitFail := k.unitFail.erase u })
  else match m s with
  | .ok a s => .done a s
  | .error (.page x r _) _ =>
    let (n, s) := postPage s x r
    .wait (some (modCore s c fun k => { k with unitWait := k.unitWait ++ [(u, x, n)] }))
  | .error (.fail _ _) s => .failed s

/-- Do a core's engines start nothing more: it drains (09 R212)? -/
def engineStops (k : Core) : Bool :=
  k.leaving == 1 || (k.leaving == 2 && k.warps.all fun e => e.2.st == .draining || e.2.st == .saving)

/-! ### Commands -/

/-- The lane a command word takes its operands from (14 R291). -/
def leader (ls : List Nat) : Nat := ls.headD 0

/-- The bundle that a command of the issuing word comes from. -/
def originOf (ls : List Nat) (s : State) : Origin :=
  let w := iWarp s
  { ctx := w.ctx, launch := w.launch, group := w.group, slot := s.issue.slot, serial := w.serial, lanes := maskOf ls,
    pc := iAddr s, word := iWord s, words := iCount s, base := w.padBase, size := w.padSize }

/-- A command faults after issue: its threads stop where they stand (14 R294, 25 R435). -/
def commandFault (c : Nat) (o : Origin) (cause : Nat) (addr : Word) (s : State) : State :=
  let w := warpOf s c o.slot
  if w.serial == o.serial && w.st != .free then
    raiseFault {
      cause := cause, addr := addr, core := c, slot := o.slot, lanes := o.lanes, pc := o.pc, words := o.words,
      word := o.word, byCommand := true } s
  else logCore s c o.ctx cause 0 0

/-- Checks of a command word's first part (14 R292, R293): reserved and partner fields, and CMD by `ok`. -/
def cmdBad (x : Word) (ok : Nat → Bool) : Bool :=
  let v := x.toNat
  fld v 51 49 != 0 || (!bitAt v 63 && fld v 62 58 != 0) || (!bitAt v 57 && fld v 56 52 != 0)
  || (!bitAt v 48 && fld v 47 32 != 0) || !ok (fld v 31 0)

/-- The completion object's window offset of a command word. -/
def cmdObj (x : Word) : Option Nat := if bitAt x.toNat 48 then some (fld x.toNat 47 32 * 16) else none

/-- An aligned range of the window that a command names. -/
def rangeCheck (off align n : Nat) (s : State) : Option (Nat × Word) :=
  if off % align ≠ 0 then some (0x05, .ofNat 64 off)
  else if (iWarp s).padSize < off + n then some (0x11, .ofNat 64 off) else none

/-- A command word's checks on its own operands (14 R293). -/
def cmdCheck (a : BitVec 6) (ok : Nat → Bool) : Check := fun ls s =>
  let x := getX (iLane s (leader ls)) (rA s a)
  if cmdBad x ok then some (0x0E, 0)
  else match cmdObj x with
    | some o => rangeCheck o 16 16 s
    | none => none

/-! ### TIDSET, TIDGET, event words -/

/-- TIDSET's image range. -/
def tidsetCheck (b : BitVec 6) : Check := fun ls s =>
  rangeCheck (getX (iLane s (leader ls)) (rB s b)).toNat 64 64 s

/-- TIDSET: the image is taken through posting floors; the leader's later E words wait (14 R296). -/
def execTidset (c : BitVec 1) (g : BitVec 3) (a b : BitVec 6) (s : State) : Host.Outcome State Fault Refusal :=
  .next (issueE (.tidset c g a b) g (tidsetCheck b) (fun ls s =>
    let x := iLane s (leader ls)
    let k := s.issue.core
    let ctx := (iWarp s).ctx
    let (img, s) := engRead s k ctx 3 ((iWarp s).padBase + (getX x (rB s b)).toNat) 64
    let e := (ctx, (getX x (rA s a)).toNat % 256, img, s.issue.slot, leader ls)
    iModLane (modCore s k fun q => { q with tidset := q.tidset ++ [e] }) (leader ls) fun y => { y with tidWait := true }) s)

/-- TIDSET_COMPLETE: the oldest image becomes the entry that later commands of any core use (14 R296). -/
def tidsetStep (c : Nat) (s : State) : Option State :=
  match (coreOf s c).tidset with
  | [] => none
  | (ctx, n, img, slot, l) :: t =>
    let fin (s : State) : State :=
      let s := modCore (deliverAll s) c fun k => { k with tidset := t }
      if t.any fun e => e.2.2.2.1 == slot && e.2.2.2.2 == l then s
      else modWarp s c slot fun w => modLane w l fun x => { x with tidWait := false }
    match runEngine c 9 (vwrite ⟨c, ctx, 3⟩ (tidAddr s ctx n) img) s with
    | .done _ s => some (fin s)
    | .wait o => o
    | .failed s => some (fin s)

/-- TIDSET_COMPLETE (14 R296). -/
def execTidsetComplete (core : Nat) (s : State) : Host.Outcome State Fault Refusal := .next (orSame (tidsetStep core) s)

/-- An access that its translation refuses raises another cause, the one that its word may raise (22 R397). -/
def asCause {α : Type} (cause : Nat) (m : M α) : M α := fun s =>
  match m s with
  | .error (.fail _ _) s => .error (.fail cause 0) s
  | r => r

/-- TIDGET: one word of an entry for each thread, 8 clk after issue (14 R296); an entry that cannot be read raises
TID_INVALID, the only cause that fits of those that its word may raise (22 R397, log 56). -/
def execTidget (c : BitVec 1) (g : BitVec 3) (d a : BitVec 6) (s : State) : Host.Outcome State Fault Refusal :=
  .next (issueE (.tidget c g d a) g noCheck (fun ls s =>
    inlineM s ls (asCause 0x0C (ls.mapM fun l => do
      let x := (getX (iLane s l) (rA s a)).toNat
      let v ← tidRead (iWho s 3) (x % 256) true
      return (l, BitVec.ofNat 64 (v / 2 ^ (64 * (x / 256 % 8)))))) (fun vs s => putX s (rD s d) 8 vs) 0x0C) s)

/-- EVSET: one pulse for the bundle (14 R306). -/
def execEvset (c : BitVec 1) (g : BitVec 3) (n : BitVec 5) (s : State) : Host.Outcome State Fault Refusal :=
  .next (issueE (.evset c g n) g noCheck (fun _ s => pulse s.issue.core n.toNat s) s)

/-- EVCLR (14 R306, 09 R209). -/
def execEvclr (c : BitVec 1) (g : BitVec 3) (n : BitVec 5) (s : State) : Host.Outcome State Fault Refusal :=
  .next (issueE (.evclr c g n) g noCheck (fun _ s => clearEvent s.issue.core n.toNat s) s)

end Sys2Proof.Machine
end

