-- ==== Sys2Proof/Machine/Memory.lean ====
section
/-! DEFINITION. Loads, stores, atomics, WAITV, fences, barriers, completion objects and cache words: majors 0x10 to 0x1D
(12 R253-R271), and the steps of the abstract machine that carry them out (05 R94-R101). -/

namespace Sys2Proof.Machine

/-! ### Global accesses -/

/-- A global address with a bit of [63:57] set, or misaligned, in some lane (12 R256). -/
def globalCheck (n : Nat) (addr : State → Nat → Word) : Check := firstBad fun s l =>
  let va := addr s l
  if 2 ^ 57 ≤ va.toNat then some (0x06, va) else if va.toNat % n ≠ 0 then some (0x05, va) else none

/-- An entry as the issuing word makes it, before its translation. -/
def entryOf (s : State) (e : Access) : Access :=
  { e with gen := (ctxOf s (iWarp s).ctx).gen, seq := (iWarp s).retired, pc := s.issue.gpc, words := iCount s,
           widx := s.issue.widx, word := iWord s, rep := (iLane s ((lanesOf s.issue.lanes).headD 0)).rep, reps := iReps s,
           lanes := maskOf (actLanes s (.ofNat 3 (fld (iWord s) 24 22))) }

/-- Translate an entry: its physical address, or the page request it waits on; a failure with its cause. -/
def translateEntry (kind : Nat) (e : Access) (s : State) : Except (Nat × Word) Access × State :=
  let who := iWho s
  if (sinkWorld s who e.va.toNat).isSome then (.ok e, s)
  else match translate who e.va kind s with
    | .ok pa s => (.ok { e with pa := pa }, s)
    | .error (.page x r _) s =>
      let (n, s) := postPage s x r
      (.ok { e with wait := some (x, n) }, s)
    | .error (.fail c va) s => (.error (c, va), s)

/-- Translate the entries of a word's threads in lane order, up to the first that fails. -/
def translateAll (kind : Nat) : List (Nat × Access) → State → Except (Nat × Word) (List (Nat × Access)) × State
  | [], s => (.ok [], s)
  | (l, e) :: t, s =>
    match translateEntry kind (entryOf s e) s with
    | (.error f, s) => (.error f, s)
    | (.ok e, s) =>
      match translateAll kind t s with
      | (.error f, s) => (.error f, s)
      | (.ok es, s) => (.ok ((l, e) :: es), s)

/-- Put an entry at the young end of a lane's front, from which acquires that hold nothing any more are gone. -/
def pushEntry (s : State) (l : Nat) (e : Access) : State :=
  iModLane s l fun x => { x with front := x.front.filter (fun f => !doneHold s s.issue.core f) ++ [e] }

/-- Issue a global access for each thread: a failed translation is a fault of the word alone (12 R254, R256, 10 R227). -/
def issueGlobal (kind dst : Nat) (f : State → Nat → Access) (ls : List Nat) (s : State) : State :=
  match translateAll kind (ls.map fun l => (l, f s l)) s with
  | (.error (c, va), s) => lateFault c va ls s
  | (.ok es, s) =>
    iMod (es.foldl (fun s e => pushEntry s e.1 e.2) s) fun w => addPending w 0 dst (maskOf ls) 0

/-- The address of a load or store: X(t,A) plus the offset (12 R253, R254). -/
def memAddr (a : BitVec 6) (k : BitVec 5) (n : Nat) (s : State) (l : Nat) : Word :=
  getX (iLane s l) (rA s a) + memOff s k n

/-- Bytes of a SIZE code. -/
def sizeOf_ (z : BitVec 2) : Nat := 2 ^ z.toNat

/-- LDG (12 R253, R254, R256). -/
def execLdg (c : BitVec 1) (g : BitVec 3) (z : BitVec 2) (o : BitVec 3) (d a : BitVec 6) (k : BitVec 5) (s : State) : Host.Outcome State Fault Refusal :=
  .next (issueWord (.ldg c g z o d a k) g noCheck (globalCheck (sizeOf_ z) (memAddr a k (sizeOf_ z)))
    (issueGlobal 0 (rD s d) fun s l =>
      { kind := .load, va := memAddr a k (sizeOf_ z) s l, size := sizeOf_ z, ord := o.toNat, dst := rD s d }) s)

/-- STG (12 R253, R254, R256). -/
def execStg (c : BitVec 1) (g : BitVec 3) (z : BitVec 2) (o : BitVec 3) (d a : BitVec 6) (k : BitVec 5) (s : State) : Host.Outcome State Fault Refusal :=
  .next (issueWord (.stg c g z o d a k) g noCheck (globalCheck (sizeOf_ z) (memAddr a k (sizeOf_ z)))
    (issueGlobal 1 0 fun s l =>
      { kind := .store, va := memAddr a k (sizeOf_ z) s l, size := sizeOf_ z, ord := o.toNat,
        x1 := getX (iLane s l) (rD s d) }) s)

/-! ### Scratchpad accesses -/

/-- An offset that is misaligned or outside the window in some lane (04 R71, 12 R256). -/
def padCheck (n : Nat) (off : State → Nat → Word) : Check := firstBad fun s l =>
  let o := off s l
  if o.toNat % n ≠ 0 then some (0x05, o) else if (iWarp s).padSize < o.toNat + n then some (0x11, o) else none

/-- The scratchpad address of an offset in the issuing warp's window (04 R71). -/
def padAddr (s : State) (o : Word) : Nat := (iWarp s).padBase + o.toNat

/-- Must a scratchpad word wait: a range it touches is registered, or an earlier acquire or fence of its threads is not
complete (04 R74, 05 R102)? -/
def padHeld (n : Nat) (off : State → Nat → Word) (ls : List Nat) (s : State) : Bool :=
  (ls.any fun l => rangeHeld s s.issue.core (padAddr s (off s l)) n) ||
  (ls.any fun l => (iLane s l).front.any (holdsLater (vecOf s s.issue.core)))

/-- Must the release part of a scratchpad word wait (12 R255)? -/
def relHeld (ord : Nat) (ls : List Nat) (s : State) : Bool :=
  ord != 0 && (!frontsEmpty s ls || (ord == 5 && remoteOut s s.issue.core))

/-- Passes of a scratchpad word: the most distinct words of one bank (04 R72). -/
def passes (as : List Nat) (n : Nat) : Nat :=
  let ws := (as.flatMap fun a => [a / 8, (a + n - 1) / 8]).eraseDups
  ws.foldl (fun m x => max m (ws.filter fun y => y % 512 == x % 512).length) 1

/-- Issue a scratchpad word that reads or writes `n` bytes for each thread; it stalls while `hold` (12 R254, 04 R74). -/
def issuePad (i : Instr) (g : BitVec 3) (n : Nat) (off : State → Nat → Word) (ord : Nat)
    (eff : List Nat → State → State) (s : State) : State :=
  issueWord i g noCheck (padCheck n off) (fun ls s =>
    if padHeld n off ls s || relHeld ord ls s then stallIssue s else eff ls s) s

/-- Read the scratchpad at an offset for a lane; KIND 2 of a log record for an atomic. -/
def padLoad (s : State) (o : Word) (n : Nat) (kind : Nat := 0) : Nat × State :=
  let (b, s) := padRead s s.issue.core (iWarp s).ctx 0 (padAddr s o) n kind
  (ofBytes b, s)

/-- A lane's write of the scratchpad at an offset. -/
def padStore (s : State) (l : Nat) (o : Word) (bs : List Byte) : State :=
  padWrite s s.issue.core (writerOf (iWarp s) l) (padAddr s o) bs

/-- LDS: delivered 24 + (passes - 1) clk after issue (12 R254, 04 R72). -/
def execLds (c : BitVec 1) (g : BitVec 3) (z : BitVec 2) (o : BitVec 3) (d a : BitVec 6) (k : BitVec 5) (s : State) : Host.Outcome State Fault Refusal :=
  .next (issuePad (.lds c g z o d a k) g (sizeOf_ z) (memAddr a k (sizeOf_ z)) 0 (fun ls s =>
    let at_ := memAddr a k (sizeOf_ z) s
    let lat := 23 + passes (ls.map fun l => padAddr s (at_ l)) (sizeOf_ z)
    let (vs, s) := ls.foldl (fun (r : List (Nat × Word) × State) l =>
      let (v, s) := padLoad r.2 (at_ l) (sizeOf_ z)
      (r.1 ++ [(l, .ofNat 64 v)], s)) ([], s)
    putX s (rD s d) lat vs) s)

/-- STS: lanes in ascending order, so that the higher lane's byte stands (12 R254, R255, 04 R72). -/
def execSts (c : BitVec 1) (g : BitVec 3) (z : BitVec 2) (o : BitVec 3) (d a : BitVec 6) (k : BitVec 5) (s : State) : Host.Outcome State Fault Refusal :=
  .next (issuePad (.sts c g z o d a k) g (sizeOf_ z) (memAddr a k (sizeOf_ z)) o.toNat (fun ls s =>
    ls.foldl (fun s l => padStore s l (memAddr a k (sizeOf_ z) s l)
      (leBytes (sizeOf_ z) (getX (iLane s l) (rD s d)).toNat)) s) s)

/-! ### Atomics (12 R257-R263) -/

/-- The address of an atomic: X(t,A). -/
def atomAddr (a : BitVec 6) (s : State) (l : Nat) : Word := getX (iLane s l) (rA s a)

/-- What an atomic word does: `x1` and `x2` are the numbers of its operand registers. -/
structure Atom where
  op : AtomOp
  size : Nat
  ord : Nat
  det : Bool
  red : Bool
  dst : Nat
  x1 : Nat
  x2 : Nat := 0

/-- One lane's scratchpad atomic: it performs at issue, in lane order (12 R263). -/
def padAtomic (t : Atom) (a : BitVec 6) (s : State) (l : Nat) : State :=
  let o := atomAddr a s l
  let (old, s) := padLoad s o t.size 2
  let x := iLane s l
  let s := match atomNew t.op t.size old (getX x t.x1).toNat (getX x t.x2).toNat with
    | some v => padStore s l o (leBytes t.size v)
    | none => s
  if t.red then s else putX s t.dst 24 [(l, .ofNat 64 old)]

/-- The operations that a router may merge (05 R97). -/
def merges (op : AtomOp) : Bool :=
  match op with
  | .add | .minS | .maxS | .and | .or | .xor | .fadd => true
  | .exch | .inc | .cas | .nibLo | .nibHi => false

/-- Issue an atomic: global (SPACE 0) or scratchpad (12 R257, R263).  A relaxed one without a result register and without
.det may merge (05 R97). -/
def issueAtomic (i : Instr) (g : BitVec 3) (a : BitVec 6) (p : BitVec 1) (t : Atom) (s : State) : State :=
  if p = 1 then
    issuePad i g t.size (atomAddr a) t.ord (fun ls s => ls.foldl (padAtomic t a) s) s
  else
    issueWord i g noCheck (globalCheck t.size (atomAddr a)) (issueGlobal 3 (if t.red then 0 else t.dst) fun s l => {
      kind := .atomic, va := atomAddr a s l, size := t.size, ord := t.ord, dst := t.dst, op := t.op,
      x1 := getX (iLane s l) t.x1, x2 := getX (iLane s l) t.x2, red := t.red,
      mergeable := t.ord == 0 && !t.det && (t.red || t.dst == 0) && merges t.op }) s

/-- Bytes of ATOM's SIZE: 2 or 3. -/
def atomSize (z : BitVec 1) : Nat := 4 * 2 ^ z.toNat

/-- ATOM.add (12 R258, R263). -/
def execAtomAdd (c : BitVec 1) (g : BitVec 3) (z : BitVec 1) (o : BitVec 3) (d a : BitVec 6) (e p : BitVec 1) (s : State) : Host.Outcome State Fault Refusal :=
  .next (issueAtomic (.atomAdd c g z o d a e p) g a p
    { op := .add, size := atomSize z, ord := o.toNat, det := e == 1, red := false, dst := rD s d, x1 := rA s a + 1 } s)

/-- ATOM.min.s (12 R258, R263). -/
def execAtomMinS (c : BitVec 1) (g : BitVec 3) (z : BitVec 1) (o : BitVec 3) (d a : BitVec 6) (e p : BitVec 1) (s : State) : Host.Outcome State Fault Refusal :=
  .next (issueAtomic (.atomMinS c g z o d a e p) g a p
    { op := .minS, size := atomSize z, ord := o.toNat, det := e == 1, red := false, dst := rD s d, x1 := rA s a + 1 } s)

/-- ATOM.max.s (12 R258, R263). -/
def execAtomMaxS (c : BitVec 1) (g : BitVec 3) (z : BitVec 1) (o : BitVec 3) (d a : BitVec 6) (e p : BitVec 1) (s : State) : Host.Outcome State Fault Refusal :=
  .next (issueAtomic (.atomMaxS c g z o d a e p) g a p
    { op := .maxS, size := atomSize z, ord := o.toNat, det := e == 1, red := false, dst := rD s d, x1 := rA s a + 1 } s)

/-- ATOM.and (12 R258, R263). -/
def execAtomAnd (c : BitVec 1) (g : BitVec 3) (z : BitVec 1) (o : BitVec 3) (d a : BitVec 6) (e p : BitVec 1) (s : State) : Host.Outcome State Fault Refusal :=
  .next (issueAtomic (.atomAnd c g z o d a e p) g a p
    { op := .and, size := atomSize z, ord := o.toNat, det := e == 1, red := false, dst := rD s d, x1 := rA s a + 1 } s)

/-- ATOM.or (12 R258, R263). -/
def execAtomOr (c : BitVec 1) (g : BitVec 3) (z : BitVec 1) (o : BitVec 3) (d a : BitVec 6) (e p : BitVec 1) (s : State) : Host.Outcome State Fault Refusal :=
  .next (issueAtomic (.atomOr c g z o d a e p) g a p
    { op := .or, size := atomSize z, ord := o.toNat, det := e == 1, red := false, dst := rD s d, x1 := rA s a + 1 } s)

/-- ATOM.xor (12 R258, R263). -/
def execAtomXor (c : BitVec 1) (g : BitVec 3) (z : BitVec 1) (o : BitVec 3) (d a : BitVec 6) (e p : BitVec 1) (s : State) : Host.Outcome State Fault Refusal :=
  .next (issueAtomic (.atomXor c g z o d a e p) g a p
    { op := .xor, size := atomSize z, ord := o.toNat, det := e == 1, red := false, dst := rD s d, x1 := rA s a + 1 } s)

/-- ATOM.exch (12 R258, R263). -/
def execAtomExch (c : BitVec 1) (g : BitVec 3) (z : BitVec 1) (o : BitVec 3) (d a : BitVec 6) (e p : BitVec 1) (s : State) : Host.Outcome State Fault Refusal :=
  .next (issueAtomic (.atomExch c g z o d a e p) g a p
    { op := .exch, size := atomSize z, ord := o.toNat, det := e == 1, red := false, dst := rD s d, x1 := rA s a + 1 } s)

/-- ATOM.inc (12 R258, R263). -/
def execAtomInc (c : BitVec 1) (g : BitVec 3) (z : BitVec 1) (o : BitVec 3) (d a : BitVec 6) (e p : BitVec 1) (s : State) : Host.Outcome State Fault Refusal :=
  .next (issueAtomic (.atomInc c g z o d a e p) g a p
    { op := .inc, size := atomSize z, ord := o.toNat, det := e == 1, red := false, dst := rD s d, x1 := rA s a + 1 } s)

/-- ATOMF.add: one rounding, no IEEE flag (12 R259, R263). -/
def execAtomfAdd (c : BitVec 1) (g : BitVec 3) (z : BitVec 2) (o : BitVec 3) (d a : BitVec 6) (e p : BitVec 1) (s : State) : Host.Outcome State Fault Refusal :=
  .next (issueAtomic (.atomfAdd c g z o d a e p) g a p
    { op := .fadd, size := sizeOf_ z, ord := o.toNat, det := e == 1, red := false, dst := rD s d, x1 := rA s a + 1 } s)

/-- CAS (12 R260, R263). -/
def execCas (c : BitVec 1) (g : BitVec 3) (z : BitVec 1) (o : BitVec 3) (d a : BitVec 6) (p : BitVec 1) (s : State) : Host.Outcome State Fault Refusal :=
  .next (issueAtomic (.cas c g z o d a p) g a p
    { op := .cas, size := atomSize z, ord := o.toNat, det := false, red := false, dst := rD s d, x1 := rA s a + 1,
      x2 := rA s a + 2 } s)

/-- NIBINS.lo and .hi (12 R261, 04 R89). -/
def execNibins (c : BitVec 1) (g o : BitVec 3) (d a : BitVec 6) (n p : BitVec 1) (s : State) : Host.Outcome State Fault Refusal :=
  .next (issueAtomic (.nibins c g o d a n p) g a p
    { op := if n = 1 then .nibHi else .nibLo, size := 1, ord := o.toNat, det := false, red := false, dst := rD s d,
      x1 := rA s a + 1 } s)

/-- RED.add (12 R262, R263). -/
def execRedAdd (c : BitVec 1) (g : BitVec 3) (z : BitVec 1) (o : BitVec 3) (d a : BitVec 6) (e p : BitVec 1) (s : State) : Host.Outcome State Fault Refusal :=
  .next (issueAtomic (.redAdd c g z o d a e p) g a p
    { op := .add, size := atomSize z, ord := o.toNat, det := e == 1, red := true, dst := 0, x1 := rD s d } s)

/-- RED.min.s (12 R262, R263). -/
def execRedMinS (c : BitVec 1) (g : BitVec 3) (z : BitVec 1) (o : BitVec 3) (d a : BitVec 6) (e p : BitVec 1) (s : State) : Host.Outcome State Fault Refusal :=
  .next (issueAtomic (.redMinS c g z o d a e p) g a p
    { op := .minS, size := atomSize z, ord := o.toNat, det := e == 1, red := true, dst := 0, x1 := rD s d } s)

/-- RED.max.s (12 R262, R263). -/
def execRedMaxS (c : BitVec 1) (g : BitVec 3) (z : BitVec 1) (o : BitVec 3) (d a : BitVec 6) (e p : BitVec 1) (s : State) : Host.Outcome State Fault Refusal :=
  .next (issueAtomic (.redMaxS c g z o d a e p) g a p
    { op := .maxS, size := atomSize z, ord := o.toNat, det := e == 1, red := true, dst := 0, x1 := rD s d } s)

/-- RED.and (12 R262, R263). -/
def execRedAnd (c : BitVec 1) (g : BitVec 3) (z : BitVec 1) (o : BitVec 3) (d a : BitVec 6) (e p : BitVec 1) (s : State) : Host.Outcome State Fault Refusal :=
  .next (issueAtomic (.redAnd c g z o d a e p) g a p
    { op := .and, size := atomSize z, ord := o.toNat, det := e == 1, red := true, dst := 0, x1 := rD s d } s)

/-- RED.or (12 R262, R263). -/
def execRedOr (c : BitVec 1) (g : BitVec 3) (z : BitVec 1) (o : BitVec 3) (d a : BitVec 6) (e p : BitVec 1) (s : State) : Host.Outcome State Fault Refusal :=
  .next (issueAtomic (.redOr c g z o d a e p) g a p
    { op := .or, size := atomSize z, ord := o.toNat, det := e == 1, red := true, dst := 0, x1 := rD s d } s)

/-- RED.xor (12 R262, R263). -/
def execRedXor (c : BitVec 1) (g : BitVec 3) (z : BitVec 1) (o : BitVec 3) (d a : BitVec 6) (e p : BitVec 1) (s : State) : Host.Outcome State Fault Refusal :=
  .next (issueAtomic (.redXor c g z o d a e p) g a p
    { op := .xor, size := atomSize z, ord := o.toNat, det := e == 1, red := true, dst := 0, x1 := rD s d } s)

/-- RED.inc (12 R262, R263). -/
def execRedInc (c : BitVec 1) (g : BitVec 3) (z : BitVec 1) (o : BitVec 3) (d a : BitVec 6) (e p : BitVec 1) (s : State) : Host.Outcome State Fault Refusal :=
  .next (issueAtomic (.redInc c g z o d a e p) g a p
    { op := .inc, size := atomSize z, ord := o.toNat, det := e == 1, red := true, dst := 0, x1 := rD s d } s)

/-- RED.fadd (12 R262, R263). -/
def execRedFadd (c : BitVec 1) (g : BitVec 3) (z : BitVec 2) (o : BitVec 3) (d a : BitVec 6) (e p : BitVec 1) (s : State) : Host.Outcome State Fault Refusal :=
  .next (issueAtomic (.redFadd c g z o d a e p) g a p
    { op := .fadd, size := sizeOf_ z, ord := o.toNat, det := e == 1, red := true, dst := 0, x1 := rD s d } s)

/-! ### WAITV and fences -/

/-- Put a parking access in a lane's front and evaluate it at once: a satisfied first evaluation parks nothing. -/
def evalOrPark (eval : Nat → Nat → Nat → Nat → Access → State → Option State) (kind : Nat) (s : State) (l : Nat)
    (e : Access) : State :=
  let s := pushEntry s l e
  let i := (laneOf (iWarp s) l).front.length - 1
  match if e.wait.isSome then none else eval s.issue.core s.issue.slot l i e s with
  | some s => s
  | none => parkLanes kind e.dst false [(l, e.va)] s

/-- WAITV (12 R264). -/
def execWaitv (c : BitVec 1) (g : BitVec 3) (z : BitVec 2) (o : BitVec 3) (d a : BitVec 6) (e : BitVec 3) (s : State) : Host.Outcome State Fault Refusal :=
  .next (issueWord (.waitv c g z o d a e) g noCheck (globalCheck (sizeOf_ z) (atomAddr a)) (fun ls s =>
    match translateAll 0 (ls.map fun l => (l, {
        kind := .waitv, va := atomAddr a s l, size := sizeOf_ z, ord := o.toNat, dst := rD s d,
        x1 := getX (iLane s l) (rA s a + 1), cond := e.toNat })) s with
    | (.error (c, va), s) => lateFault c va ls s
    | (.ok es, s) => es.foldl (fun s x => evalOrPark waitvStep 1 s x.1 x.2) s) s)

/-- A fence enters the threads' fronts (05 R101). -/
def issueFence (ord : Nat) (ls : List Nat) (s : State) : State :=
  ls.foldl (fun s l => pushEntry s l (entryOf s {
    kind := .fence, ord := ord, x1 := .ofNat 64 (coreOf s s.issue.core).padSeq })) s

/-- FENCE.core to FENCE.fabric (12 R265, 05 R101). -/
def execFence (c : BitVec 1) (g o : BitVec 3) (s : State) : Host.Outcome State Fault Refusal :=
  .next (issueWord (.fence c g o) g noCheck noCheck (issueFence o.toNat) s)

/-- FENCE.eng: FENCE.core that also posts the thread's earlier STS (12 R265, 05 R101). -/
def execFenceEng (c : BitVec 1) (g : BitVec 3) (s : State) : Host.Outcome State Fault Refusal :=
  .next (issueWord (.fenceEng c g) g noCheck noCheck (issueFence 6) s)

/-! ### Named barriers (12 R266-R268) -/

/-- The barrier of the issuing warp's group. -/
def iBar (s : State) (n : Nat) : Barrier := mget {} (groupOf s s.issue.core (iWarp s).group).bars n
/-- Change it. -/
def iModBar (s : State) (n : Nat) (f : Barrier → Barrier) : State :=
  modGroup s s.issue.core (iWarp s).group fun x => { x with bars := mput {} x.bars n (f (mget {} x.bars n)) }

/-- No such barrier: the number, or a warp without barriers (12 R268, 22 R394). -/
def barNumberBad (n : Nat) (s : State) : Bool :=
  decide ((groupOf s s.issue.core (iWarp s).group).nbars ≤ n) || (iWarp s).kind != .grid

/-- The count a lane arrives with. -/
def barCount (s : State) (d : BitVec 6) (l : Nat) : Nat := (getX (iLane s l) (rD s d)).toNat % 4096

/-- BARRIER_COUNT of an arrival (12 R268). -/
def arriveCheck (n : BitVec 10) (d : BitVec 6) : Check := fun ls s =>
  let cs := ls.map (barCount s d)
  let c := cs.headD 0
  let b := iBar s n.toNat
  if barNumberBad n.toNat s || (n == 0 && cs.any (· != 0))
      || cs.any (fun x => decide ((groupOf s s.issue.core (iWarp s).group).threads < x))
      || cs.any (· != c) || (b.set && c != b.expect)
  then some (0x0A, 0) else none

/-- BARRIER_COUNT of a wait. -/
def waitCheck (n : BitVec 10) : Check := fun _ s => if barNumberBad n.toNat s then some (0x0A, 0) else none

/-- One thread arrives: its token, and the end of a phase (12 R267). -/
def arriveLane (n c : Nat) (eng : Bool) (l : Nat) (s : State) : Nat × State :=
  let tok := (iBar s n).phase
  let me := (writerOf (iWarp s) l, (coreOf s s.issue.core).padSeq)
  let s := iModBar s n fun b => {
    b with expect := if b.set then b.expect else c, set := true, count := b.count + 1, eng := b.eng || eng,
           arrivals := b.arrivals ++ [me] }
  (tok, if barDone s s.issue.core (iWarp s).group (iBar s n) then endPhase s s.issue.core (iWarp s).group n else s)

/-- Every thread arrives in lane order (12 R267); the tokens. -/
def arriveAll (n : Nat) (d : BitVec 6) (eng : Bool) (ls : List Nat) (s : State) : List (Nat × Nat) × State :=
  ls.foldl (fun r l =>
    let (t, s) := arriveLane n (barCount r.2 d l) eng l r.2
    (r.1 ++ [(l, t)], s)) ([], s)

/-- An arrival is a release at .core: it waits for its threads' earlier global accesses (05 R100, log 8). -/
def issueArrive (i : Instr) (g : BitVec 3) (n : BitVec 10) (d : BitVec 6) (eng : Bool)
    (k : List (Nat × Nat) → State → State) (s : State) : State :=
  issueWord i g noCheck (arriveCheck n d) (fun ls s =>
    if frontsEmpty s ls then
      let (ts, s) := arriveAll n.toNat d eng ls s
      k ts s
    else stallIssue s) s

/-- The threads whose token names the current phase park (12 R267). -/
def parkBar (n : Nat) (eng : Bool) (ts : List (Nat × Nat)) (s : State) : State :=
  let p := (iBar s n).phase
  parkLanes 4 0 eng ((ts.filter fun e => e.2 == p).map fun e => (e.1, .ofNat 64 (n + e.2 * 65536))) s

/-- BAR.ARRIVE (12 R266, R267). -/
def execBarArrive (c : BitVec 1) (g : BitVec 3) (d : BitVec 6) (n : BitVec 10) (s : State) : Host.Outcome State Fault Refusal :=
  .next (issueArrive (.barArrive c g d n) g n d false (fun ts s =>
    if d = 0 then s else putX s (rD s d + 1) 4 (ts.map fun e => (e.1, .ofNat 64 e.2))) s)

/-- BAR.SYNC (12 R266, R267). -/
def execBarSync (c : BitVec 1) (g : BitVec 3) (d : BitVec 6) (n : BitVec 10) (s : State) : Host.Outcome State Fault Refusal :=
  .next (issueArrive (.barSync c g d n) g n d false (parkBar n.toNat false) s)

/-- BAR.SYNC.eng (12 R266, R267). -/
def execBarSyncEng (c : BitVec 1) (g : BitVec 3) (d : BitVec 6) (n : BitVec 10) (s : State) : Host.Outcome State Fault Refusal :=
  .next (issueArrive (.barSyncEng c g d n) g n d true (parkBar n.toNat false) s)

/-- The tokens a wait's threads hold. -/
def waitToks (d : BitVec 6) (ls : List Nat) (s : State) : List (Nat × Nat) :=
  ls.map fun l => (l, (getX (iLane s l) (rD s d)).toNat % 65536)

/-- BAR.WAIT (12 R266, R267). -/
def execBarWait (c : BitVec 1) (g : BitVec 3) (d : BitVec 6) (n : BitVec 10) (s : State) : Host.Outcome State Fault Refusal :=
  .next (issueWord (.barWait c g d n) g noCheck (waitCheck n) (fun ls s => parkBar n.toNat false (waitToks d ls s) s) s)

/-- BAR.WAIT.eng: a thread that leaves posts its phase's arrivals (12 R266, R267, 05 R103). -/
def execBarWaitEng (c : BitVec 1) (g : BitVec 3) (d : BitVec 6) (n : BitVec 10) (s : State) : Host.Outcome State Fault Refusal :=
  .next (issueWord (.barWaitEng c g d n) g noCheck (waitCheck n) (fun ls s =>
    let ts := waitToks d ls s
    let p := (iBar s n.toNat).phase
    let s := (ts.filter fun e => e.2 != p).foldl (fun s e => postPhase s s.issue.core (iWarp s).group n.toNat e.2) s
    parkBar n.toNat true ts s) s)

/-! ### Completion objects (12 R270) -/

/-- CBINIT: a 16-byte STS (12 R270). -/
def execCbinit (c : BitVec 1) (g z : BitVec 3) (a b : BitVec 6) (s : State) : Host.Outcome State Fault Refusal :=
  .next (issuePad (.cbinit c g z a b) g 16 (atomAddr a) 0 (fun ls s =>
    ls.foldl (fun s l => padStore s l (atomAddr a s l)
      (leBytes 8 (getX (iLane s l) (rB s b)).toNat ++ leBytes 8 (z.toNat * 64))) s) s)

/-- The object a lane names: flag word and COUNT. -/
def iObj (a : BitVec 6) (s : State) (l : Nat) : Nat × Nat := objRead s s.issue.core (padAddr s (atomAddr a s l))

/-- Reading the objects of some lanes logs the damage it finds. -/
def iObjLog (a : BitVec 6) (ls : List Nat) (kind : Nat) (s : State) : State :=
  ls.foldl (fun s l => objLog s s.issue.core (iWarp s).ctx 0 (padAddr s (atomAddr a s l)) kind) s

/-- Issue a word that reads completion objects: it waits for a registered range and for its threads' earlier acquires and
fences (04 R74, 05 R101, 12 R265). -/
def issueObj (i : Instr) (g : BitVec 3) (a : BitVec 6) (eff : List Nat → State → State) (s : State) : State :=
  issueWord i g noCheck (padCheck 16 (atomAddr a)) (fun ls s =>
    if padHeld 16 (atomAddr a) ls s then stallIssue s else eff ls s) s

/-- CBWAIT: parks until COUNT is 0 or ERROR is 1, then takes the flag word (12 R270). -/
def execCbwait (c : BitVec 1) (g : BitVec 3) (d a : BitVec 6) (s : State) : Host.Outcome State Fault Refusal :=
  .next (issueObj (.cbwait c g d a) g a (fun ls s =>
    let (now, later) := ls.partition fun l => let (f, n) := iObj a s l; n == 0 || bitAt f 10
    let s' := putX (iObjLog a ls 0 s) (rD s d) 24 (now.map fun l => (l, .ofNat 64 (iObj a s l).1))
    parkLanes 3 (rD s d) false (later.map fun l => (l, atomAddr a s l)) s') s)

/-- CBTEST (12 R270). -/
def execCbtest (c : BitVec 1) (g p : BitVec 3) (a : BitVec 6) (s : State) : Host.Outcome State Fault Refusal :=
  .next (issueObj (.cbtest c g p a) g a (fun ls s =>
    putP (iObjLog a ls 0 s) p.toNat 24 (ls.map fun l => (l, (iObj a s l).2 == 0))) s)

/-- One thread's CBADD: a scratchpad atomic (12 R270, 09 R207). -/
def cbaddLane (a b : BitVec 6) (s : State) (l : Nat) : State :=
  let o := atomAddr a s l
  let (f, n) := iObj a s l
  let v := (getX (iLane s l) (rB s b)).toInt
  let (n', ovf) := if 0 ≤ v then (min (n + v.toNat) (2 ^ 64 - 1), decide (2 ^ 64 - 1 < n + v.toNat))
    else countResult n (-v).toNat
  if v = 0 then s
  else padStore s l o (leBytes 8 n' ++ leBytes 4 (if ovf then f ||| 2 ^ 9 else f))

/-- Does a CBADD take an object of some lane to zero that is not ready to be completed: its release at .fabric waits (12 R270)? -/
def cbaddHeld (a : BitVec 6) (ls : List Nat) (before after : State) : Bool :=
  ls.any fun l => (iObj a before l).2 != 0 && (iObj a after l).2 == 0
    && decide (4 ≤ (iObj a before l).1 / 64 % 8) && remoteOut before before.issue.core

/-- CBADD: a count-down is a release, and waits for its threads' earlier accesses (12 R270, log 8). -/
def execCbadd (c : BitVec 1) (g : BitVec 3) (a b : BitVec 6) (s : State) : Host.Outcome State Fault Refusal :=
  .next (issueObj (.cbadd c g a b) g a (fun ls s =>
    let down := ls.filter fun l => (getX (iLane s l) (rB s b)).msb
    let t := ls.foldl (cbaddLane a b) (iObjLog a ls 2 s)
    if !frontsEmpty s down || cbaddHeld a ls s t then stallIssue s else t) s)

/-! ### Cache words (12 R271) -/

/-- PREF: no value that any access may return changes, and nothing faults (12 R271). -/
def execPref (c : BitVec 1) (g : BitVec 3) (a b : BitVec 6) (s : State) : Host.Outcome State Fault Refusal :=
  .next (issueWord (.pref c g a b) g noCheck noCheck (fun _ s => s) s)

/-- FLUSHL: listed, and the thread's later FETCH words wait for its completion (12 R271). -/
def execFlushl (c : BitVec 1) (g : BitVec 3) (a b : BitVec 6) (s : State) : Host.Outcome State Fault Refusal :=
  .next (issueWord (.flushl c g a b) g noCheck noCheck (fun ls s => ls.foldl (fun s l =>
    let e := ((getX (iLane s l) (rA s a)).toNat % 2 ^ 57, (getX (iLane s l) (rB s b)).toNat, s.issue.slot, l)
    iModLane (modCore s s.issue.core fun k => { k with flush := k.flush ++ [e] }) l fun x => { x with flushWait := true }) s) s)

/-- Does a line of the fetch cache overlap a range taken modulo 2^57? -/
def flushHits (va len : Nat) (l : CacheLine) : Bool :=
  decide (65536 < len) || (decide (0 < len) && (decide ((l.va + 2 ^ 57 - va) % 2 ^ 57 < len) || decide ((va + 2 ^ 57 - l.va) % 2 ^ 57 < 128)))

/-- Complete the core's oldest FLUSHL. -/
def flushStep (c : Nat) (s : State) : Option State :=
  match (coreOf s c).flush with
  | [] => none
  | (va, len, slot, l) :: t =>
    let s := modCore s c fun k => { k with flush := t, cache := k.cache.filter fun x => !flushHits va len x }
    some (if t.any fun e => e.2.2.1 == slot && e.2.2.2 == l then s
      else modWarp s c slot fun w => modLane w l fun x => { x with flushWait := false })

/-! ### Steps without an encoding -/

/-- STORE_DRAIN (05 R94, R95). -/
def execStoreDrain (core slot lane idx : Nat) (s : State) : Host.Outcome State Fault Refusal := .next (orSame (storeStep core slot lane idx) s)

/-- ATOMIC_PERFORM (05 R96). -/
def execAtomicPerform (core slot lane idx : Nat) (s : State) : Host.Outcome State Fault Refusal := .next (orSame (atomicStep core slot lane idx) s)

/-- CAUSAL_DELIVERY: the oldest write of a causal queue, once its stamp allows (05 R95). -/
def deliverStep (src dst : Nat) (s : State) : Option State :=
  if src < 4 && dst < 4 && src != dst && canDeliver s src dst then some (deliver s src dst) else none

/-- CAUSAL_DELIVERY (05 R95). -/
def execCausalDelivery (src dst : Nat) (s : State) : Host.Outcome State Fault Refusal := .next (orSame (deliverStep src dst) s)

/-- FENCE_COMPLETE (05 R101). -/
def execFenceComplete (core slot lane : Nat) (s : State) : Host.Outcome State Fault Refusal := .next (orSame (fenceStep core slot lane) s)

/-- GENERATION_REJECT_REPLAY (04 R85, 23 R408). -/
def execGenerationRejectReplay (core slot lane : Nat) (s : State) : Host.Outcome State Fault Refusal := .next (orSame (replayStep core slot lane) s)

/-- THREAD_WAKE (02 R36). -/
def execThreadWake (core slot lane : Nat) (s : State) : Host.Outcome State Fault Refusal := .next (orSame (wakeStep core slot lane) s)

/-- FLUSHL_COMPLETE (12 R271). -/
def execFlushlComplete (core : Nat) (s : State) : Host.Outcome State Fault Refusal := .next (orSame (flushStep core) s)

/-- The oldest pending result of a pipe reaches its register; the FX9 delivers no later than the latency (02 R34, R35). -/
def resultStep (core slot : Nat) (s : State) : Option State :=
  let w := warpOf s core slot
  if w.board.any (·.due != 0) then
    some (modWarp s core slot fun w => { w with board := w.board.eraseP (·.due != 0) })
  else none

/-- RESULT_DELIVERED (02 R35). -/
def execResultDelivered (core slot : Nat) (s : State) : Host.Outcome State Fault Refusal := .next (orSame (resultStep core slot) s)

end Sys2Proof.Machine
end

