-- ==== Sys2Proof/Machine/Deck.lean ====
section
/-! DEFINITION. Decks, stocks, dispatch and stealing, with SPAWN, JOIN and TDONE (03 R58-R68, 15 R322-R324). -/

namespace Sys2Proof.Machine

/-! ### Room on a core (03 R53, 04 R71) -/

/-- The context whose work a core runs. -/
def coreCtx (s : State) (c : Nat) : Option Nat :=
  let h := (coreOf s c).holder
  if h = 0 then none else some (h - 1)

/-- A scratchpad window's reserved size: a multiple of 4,096. -/
def padRound (n : Nat) : Nat := (n + 4095) / 4096 * 4096

/-- The lowest free window base for `n` bytes, a multiple of 4,096; which free one a window takes is not fixed (log 57). -/
def padPlace (k : Core) (n : Nat) : Option Nat :=
  let used := k.groups.filterMap fun e => if e.2.padSize = 0 then none else some (e.2.padBase, e.2.padBase + padRound e.2.padSize)
  let n := padRound n
  if n = 0 then some 0 else
  ((0 :: used.map (·.2)).filter fun b => decide (b + n ≤ 1048576) && used.all fun u => decide (b + n ≤ u.1) || decide (u.2 ≤ b)).min?

/-- Free warp slots. -/
def freeSlots (k : Core) : List Nat := (List.range 64).filter fun i => (mget {} k.warps i).st == .free
/-- Registers in use, counted in warp registers. -/
def regsUsed (k : Core) : Nat := k.warps.foldl (fun n e => if e.2.st == .free then n else n + e.2.regsN) 0
/-- Named barriers in use. -/
def barsUsed (k : Core) : Nat := k.groups.foldl (fun n e => n + e.2.nbars) 0

/-- The slot that the next warp takes: of the scheduler with the fewest occupied slots (03 R54), its lowest free one. -/
def pickSlot (k : Core) : Option Nat :=
  let free := freeSlots k
  let count (q : Nat) : Nat := (free.filter fun i => i / 16 == q).length
  let best := (List.range 4).foldl (fun b q => if count b < count q then q else b) 0
  free.find? fun i => i / 16 == best

/-- May a core take new work now? -/
def coreOpen (k : Core) : Bool := !k.off && !k.draining && k.holder != 0

/-! ### Frames (03 R58) -/

def Frame.steal (f : Frame) : Bool := f.bits.getLsbD 63
def Frame.aff (f : Frame) : Nat := min 3 (fld f.bits.toNat 62 60)
def Frame.prio (f : Frame) : Nat := fld f.bits.toNat 59 58
def Frame.entry (f : Frame) : Nat := fld f.bits.toNat 47 0
def Frame.join (f : Frame) : Nat := fld f.bits.toNat 127 64
def Frame.arg (f : Frame) (k : Nat) : Nat := f.bits.toNat / 2 ^ (128 + 64 * k) % 2 ^ 64

/-- A frame from its word 0, JOINADDR and arguments; bits [57:48] are stored as zero. -/
def frameOf (w0 j : Nat) (args : List Nat) (tag : Nat) : Frame :=
  ⟨.ofNat 512 (w0 % 2 ^ 48 + w0 / 2 ^ 58 * 2 ^ 58 + j * 2 ^ 64 + ((args.zipIdx.map fun e => e.1 * 2 ^ (128 + 64 * e.2)).foldl (· + ·) 0)), tag⟩

/-! ### Deck and stock (03 R62, R63) -/

/-- Does a restored core still hold answers to its steals?  They are applied before it pops, spills or serves (03 R67). -/
def answersHeld (k : Core) : Bool := k.transit.any fun e => match e.2 with | some x => x.answer != 0 | none => false

/-- Frames that count toward the deck's 256. -/
def deckCount (k : Core) : Nat := k.deck.length + (k.transit.filter (·.2.isSome)).length

/-- STOCKLOG and the base of a launch's stock. -/
def stockLog (la : Launch) : Nat := fld (launchField la 11) 63 58
/-- A core's stocks by key: a launch tag, or for a stock that has moved from core k, tag + 2^32 × (k + 1) (03 R68). -/
def stockTag (key : Nat) : Nat := key % 2 ^ 32
/-- The core whose stock it is. -/
def stockCore (key c : Nat) : Nat := if key < 2 ^ 32 then c else key / 2 ^ 32 - 1
/-- A core's stocks in the order in which steals look at them: ascending launch tag, 8 bits wide, a core's own before one that
has moved to it (03 R65, log 55). -/
def stocksByTag (ks : Map Stock) : Map Stock :=
  (List.range 256).flatMap fun t => ks.filter fun e => stockTag e.1 % 256 == t
/-- The address of a place in the stock of a core. -/
def stockAddr (la : Launch) (c pos : Nat) : Nat :=
  fld (launchField la 11) 56 0 + c * 2 ^ (stockLog la + 6) + pos % 2 ^ stockLog la * 64

/-- Frames in a stock. -/
def Stock.used (k : Stock) : Nat := (k.tail + 2 ^ 64 - k.head) % 2 ^ 64

/-- Change a stock. -/
def modStock (s : State) (c tag : Nat) (f : Stock → Stock) : State :=
  modCore s c fun k => { k with stocks := mput {} k.stocks tag (f (mget {} k.stocks tag)) }

/-- The 128 oldest frames of a deck whose launches have a stock. -/
def spillFrames (s : State) (ctx c : Nat) : List Frame :=
  ((coreOf s c).deck.filter fun f => stockLog (launchOf s ctx f.tag) != 0).take 128

/-- Would a spill raise STOCK_FULL? -/
def spillFull (s : State) (ctx c : Nat) : Bool :=
  let fs := spillFrames s ctx c
  fs.length < 128 || (fs.map (·.tag)).eraseDups.any fun t =>
    decide (2 ^ stockLog (launchOf s ctx t) < (mget {} (coreOf s c).stocks t).used + (fs.filter (·.tag == t)).length + 4)

/-- Can the deck and its stocks take `n` frames (03 R63, 15 R322)? -/
def deckRoom (s : State) (ctx c n : Nat) : Bool := decide (deckCount (coreOf s c) + n ≤ 256) || !spillFull s ctx c

/-- Write some frames at the tails of their stocks; the state of the stocks as they then stand. -/
def spillWrites (w : Who) : List Frame → M Unit
  | [] => return ()
  | f :: t => do
    let s ← get
    let k := mget {} (coreOf s w.core).stocks f.tag
    vwrite w (stockAddr (launchOf s w.ctx f.tag) w.core k.tail) (leBytes 64 f.bits.toNat)
    modify fun s => modStock s w.core f.tag fun k => { k with tail := (k.tail + 1) % 2 ^ 64, blocked := false }
    spillWrites w t

/-- Remove from a deck, head first, the first frames that have a stock. -/
def spillDeck (stocked : Frame → Bool) : Nat → List Frame → List Frame
  | 0, d => d
  | _, [] => []
  | n + 1, f :: t => if stocked f then spillDeck stocked n t else f :: spillDeck stocked (n + 1) t

/-- DECK_SPILL: no frame leaves the deck until every write has performed (03 R63). -/
def spill (w : Who) : M Unit := fun s =>
  match spillWrites w (spillFrames s w.ctx w.core) s with
  | .ok _ s' => .ok () (modCore s' w.core fun k =>
      { k with deck := spillDeck (fun f => stockLog (launchOf s w.ctx f.tag) != 0) 128 k.deck })
  | .error e s' => .error e (modCore s' w.core fun k => { k with stocks := (coreOf s w.core).stocks })

/-- Push frames at the deck tail. -/
def pushFrames (c : Nat) (fs : List Frame) (s : State) : State := modCore s c fun k => { k with deck := k.deck ++ fs }

/-! ### SPAWN, JOIN, TDONE -/

/-- SPAWN's checks (15 R322). -/
def spawnCheck (a : BitVec 6) : Check := fun ls s =>
  match firstBad (fun s l =>
    let x := iLane s l
    let v := getX x (rA s a)
    let j := getX x (rA s a + 1)
    if v.toNat % 4 ≠ 0 then some (0x04, .ofNat 64 (v.toNat % 2 ^ 48))
    else if 2 ^ 57 ≤ j.toNat then some (0x06, j)
    else if j.toNat % 8 ≠ 0 then some (0x05, j) else none) ls s with
  | some e => some e
  | none => if deckRoom s (iWarp s).ctx s.issue.core ls.length then none else some (0x0F, 0)

/-- The frame that a lane spawns. -/
def spawnFrame (a : BitVec 6) (s : State) (l : Nat) : Frame :=
  let x := iLane s l
  let r (k : Nat) : Nat := (getX x (rA s a + k)).toNat
  frameOf (r 0) (r 1) ((List.range 6).map fun k => r (k + 2)) (iWarp s).launch

/-- SPAWN: a spill if the pushes need one, then for each thread its counter's increment and its frame (15 R322). -/
def execSpawn (c : BitVec 1) (g : BitVec 3) (a : BitVec 6) (s : State) : Host.Outcome State Fault Refusal :=
  .next (issueE (.spawn c g a) g (spawnCheck a) (fun ls s =>
    if answersHeld (coreOf s s.issue.core) then stallIssue s else
    inlineM s ls (do
      let w := iWho s
      if 256 < deckCount (coreOf s w.core) + ls.length then spill w
      for l in ls do
        let f := spawnFrame a s l
        if f.join != 0 then
          let _ ← vatomic w f.join 8 fun v => some ((v + 1) % 2 ^ 64)
        modify (pushFrames w.core [f])) fun _ s => s) s)

/-- The address checks of a counter: a null one is none (12 R256, 15 R323, R324). -/
def counterCheck (f : State → Nat → Word) : Check := firstBad fun s l =>
  let va := f s l
  if 2 ^ 57 ≤ va.toNat then some (0x06, va) else if va.toNat % 8 ≠ 0 then some (0x05, va) else none

/-- JOIN: it evaluates and parks as WAITV does (15 R323). -/
def execJoin (c : BitVec 1) (g o : BitVec 3) (a : BitVec 6) (s : State) : Host.Outcome State Fault Refusal :=
  .next (issueE (.join c g o a) g (counterCheck (atomAddr a)) (fun ls s =>
    match translateAll 0 ((ls.filter fun l => atomAddr a s l != 0).map fun l => (l, {
        kind := .join, va := atomAddr a s l, size := 8, ord := o.toNat + 1 })) s with
    | (.error (c, va), s) => lateFault c va ls s
    | (.ok es, s) => es.foldl (fun s x => evalOrPark joinStep 2 s x.1 x.2) s) s)

/-- x7 of a thread. -/
def joinReg (s : State) (l : Nat) : Word := getX (iLane s l) 7

/-- TDONE: each thread's counter falls by one, then the threads exit (15 R324). -/
def execTdone (c : BitVec 1) (g : BitVec 3) (s : State) : Host.Outcome State Fault Refusal :=
  .next (issueE (.tdone c g) g (counterCheck joinReg) (fun ls s =>
    inlineM s ls (do
      for l in ls do
        if joinReg s l != 0 then
          let _ ← vatomic (iWho s) (joinReg s l).toNat 8 fun v => some ((v + 2 ^ 64 - 1) % 2 ^ 64)) fun _ s =>
        exitLanes s.issue.core s.issue.slot ls (iMoved s ls)) s)

/-! ### Dispatch (03 R60) -/

/-- Registers per thread of a launch's role. -/
def roleRegs (la : Launch) (r : Nat) : Nat := fld (launchField la (6 + r)) 58 48
/-- NROLES. -/
def nRoles (la : Launch) : Nat := fld (launchField la 9) 49 48
/-- The register count of a launch's task warps. -/
def taskRegs (la : Launch) : Nat := ((List.range (max 1 (nRoles la))).map (roleRegs la)).foldl max 0
/-- TASKPAD. -/
def taskPad (la : Launch) : Nat := fld (launchField la 16) 20 0

/-- The frames that the dispatcher pops, tail first. -/
def popFrames (deck : List Frame) : List Frame :=
  match deck.reverse with
  | [] => []
  | f :: t => f :: (t.takeWhile fun g => g.entry == f.entry && g.tag == f.tag).take 31

/-- A task thread as it starts. -/
def taskLane (f : Frame) : Lane :=
  let x : Lane := { pc := f.entry, st := .ready }
  setX ((List.range 6).foldl (fun x k => setX x (k + 1) (.ofNat 64 (f.arg k))) x) 7 (.ofNat 64 f.join)

/-- TASK_DISPATCH's step. -/
def dispatchStep (c : Nat) (s : State) : Option State :=
  let k := coreOf s c
  match coreCtx s c with
  | none => none
  | some ctx =>
    if !coreOpen k || answersHeld k || !(ctxOf s ctx).in_ then none else
    let fs := popFrames k.deck
    match fs with
    | [] => none
    | f :: _ =>
      let la := launchOf s ctx f.tag
      match pickSlot k, padPlace k (taskPad la) with
      | some slot, some base =>
        if 4096 < regsUsed k + taskRegs la then none else
        let w : Warp := {
          st := .loading, kind := .task, ctx := ctx, launch := f.tag, group := 64 + slot, serial := k.serial + 1,
          lanes := (fs.zipIdx.foldl (fun (m : Map Lane) e => mput {} m e.2 (taskLane e.1)) []), order := List.range 32,
          regsN := taskRegs la, padBase := base, padSize := taskPad la,
          age := (s.clk : Int) - 1024 * (fs.foldl (fun p f => max p f.prio) 0 : Nat) }
        let g : Group := { ctx := ctx, launch := f.tag, slots := [slot], threads := fs.length, padBase := base, padSize := taskPad la }
        some (modCore s c fun k => {
          k with deck := k.deck.take (k.deck.length - fs.length), serial := k.serial + 1,
                 warps := mput {} k.warps slot w, groups := mput {} k.groups (64 + slot) g })
      | _, _ => none

/-- TASK_DISPATCH (03 R60). -/
def execTaskDispatch (core : Nat) (s : State) : Host.Outcome State Fault Refusal := .next (orSame (dispatchStep core) s)

/-! ### Refill (03 R63) -/

/-- The stocks that a refill may draw from. -/
def refillTags (k : Core) : List Nat := k.stocks.filterMap fun e => if e.2.used != 0 && !e.2.blocked then some e.1 else none

/-- The stock that a refill draws from next: the one whose read waited, else a free choice (03 R63, log 4). -/
def refillFrom (k : Core) (s : State) : Nat × State :=
  let tags := refillTags k
  match k.refill with
  | some t => if tags.contains t then (t, s) else let (i, s) := pick s tags.length; (tags.getD i 0, s)
  | none => let (i, s) := pick s tags.length; (tags.getD i 0, s)

/-- Move frames from stock tails to the deck head until it holds 128 or the stocks are empty.  A read answered FAIL blocks the
stock that it was made from. -/
def refillRun (c ctx : Nat) : Nat → State → State
  | 0, s => s
  | n + 1, s =>
    let k := coreOf s c
    if 128 ≤ k.deck.length || (refillTags k).isEmpty then modCore s c fun k => { k with refill := none } else
    let (t, s1) := refillFrom k s
    let st := mget {} k.stocks t
    match runEngine c 11 (vreadN ⟨c, ctx, 15⟩ (stockAddr (launchOf s ctx (stockTag t)) (stockCore t c) (st.tail + 2 ^ 64 - 1)) 64) s1 with
    | .done v s => refillRun c ctx n (modStock (modCore s c fun k =>
          { k with deck := ⟨.ofNat 512 v, stockTag t⟩ :: k.deck, refill := none }) c t
        fun k => { k with tail := (k.tail + 2 ^ 64 - 1) % 2 ^ 64 })
    | .wait o => modCore (o.getD s) c fun k => { k with refill := some t }
    | .failed s => refillRun c ctx n (modStock (modCore s c fun k => { k with refill := none }) c (k.refill.getD t)
        fun k => { k with blocked := true })

/-- DECK_REFILL's step: one that has begun goes on to 128 frames whatever the deck holds meanwhile, and while the core
drains (03 R63, R68). -/
def refillStep (c : Nat) (s : State) : Option State :=
  let k := coreOf s c
  match coreCtx s c with
  | none => none
  | some ctx =>
    let begins := coreOpen k && decide (k.deck.length < 32) && !(refillTags k).isEmpty && !answersHeld k
    if (k.refill.isNone && !begins) || !(ctxOf s ctx).in_ || k.unitWait.any (·.1 == 11) then none
    else some (refillRun c ctx 256 s)

/-- DECK_REFILL (03 R63). -/
def execDeckRefill (core : Nat) (s : State) : Host.Outcome State Fault Refusal := .next (orSame (refillStep core) s)

/-! ### Stealing (03 R64-R67) -/

/-- The launches of a context that have started and not ended. -/
def activeLaunches (s : State) (ctx : Nat) : List Launch :=
  (ctxOf s ctx).launches.filterMap fun e => if e.2.done then none else some e.2

/-- The widest domain bound to any level of the launches present. -/
def widestDomain (s : State) (ctx : Nat) : Nat :=
  (activeLaunches s ctx).foldl (fun m la => (List.range (levelCount la)).foldl (fun m i => max m (levelDomain la i)) m) 0

/-- The cores that an idle core asks, in order (03 R64). -/
def victims (s : State) (ctx t : Nat) : List Nat :=
  let wide := widestDomain s ctx
  let cl := t / 4 * 4
  let sec := t / 48 * 48
  let near := (List.range 3).map fun i => cl + (t - cl + 1 + i) % 4
  let mid := ((List.range 47).map fun i => sec + (t - sec + 1 + i) % 48).filter fun v => v / 4 != t / 4
  let far := ((List.range 4).filter fun x => x != secOf t && samePart s (secOf t) x).flatMap fun x =>
    (List.range 48).map (48 * x + ·)
  (if 3 ≤ wide then near else []) ++ (if 4 ≤ wide then mid else []) ++ (if 5 ≤ wide then far else [])

/-- Is a core idle (03 R64)? -/
def coreIdle (s : State) (c : Nat) : Bool :=
  let k := coreOf s c
  coreOpen k && k.deck.isEmpty && k.stocks.all (fun e => e.2.used == 0) && k.stealOut.isNone && !(freeSlots k).isEmpty
  && (match coreCtx s c with
    | some ctx => (ctxOf s ctx).in_ && !(activeLaunches s ctx).isEmpty
    | none => false)

/-- STEAL_REQUEST's step: one victim at a time. -/
def stealRequestStep (t : Nat) (s : State) : Option State :=
  let k := coreOf s t
  if !coreIdle s t || s.clk < k.stealUntil then none else
  match (victims s ((coreCtx s t).getD 0) t)[k.stealPos]? with
  | none => none
  | some v =>
    let s := modCore s t fun k =>
      { k with stealOut := some (v, k.stealSeq), stealSeq := (k.stealSeq + 1) % 2 ^ 32, stealPos := k.stealPos + 1 }
    some { s with steals := s.steals ++ [{ kind := 0, src := t, dst := v, seq := k.stealSeq, ctx := k.holder - 1 }] }

/-- STEAL_REQUEST (03 R64). -/
def execStealRequest (core : Nat) (s : State) : Host.Outcome State Fault Refusal := .next (orSame (stealRequestStep core) s)

/-- STEAL_ROUND_BACKOFF's step: a whole round brought no frame; the core waits 256 clk. -/
def backoffStep (t : Nat) (s : State) : Option State :=
  let k := coreOf s t
  let n := (victims s ((coreCtx s t).getD 0) t).length
  if coreIdle s t && n != 0 && n ≤ k.stealPos then
    some (modCore s t fun k => { k with stealPos := 0, stealUntil := s.clk + 256 })
  else none

/-- STEAL_ROUND_BACKOFF (03 R64). -/
def execStealRoundBackoff (core : Nat) (s : State) : Host.Outcome State Fault Refusal := .next (orSame (backoffStep core) s)

/-- The oldest message to a core: messages between two cores stay in order. -/
def oldestMsg (s : State) (c : Nat) : Option StealMsg := s.steals.find? (·.dst == c)
/-- Remove it. -/
def dropMsg (c : Nat) (s : State) : State := { s with steals := s.steals.eraseP (·.dst == c) }
/-- Send one. -/
def sendMsg (m : StealMsg) (s : State) : State := { s with steals := s.steals ++ [m] }

/-- The distance of a thief: 0 the core, 1 its cluster, 2 its sector, 3 the package. -/
def distance (v t : Nat) : Nat := if v == t then 0 else if v / 4 == t / 4 then 1 else if secOf v == secOf t then 2 else 3

/-- May a frame go to a thief? -/
def mayGo (v t : Nat) (f : Frame) : Bool := f.steal && decide (distance v t ≤ f.aff)

/-- The first stock head that qualifies, in the order given. -/
def stockOffer (v ctx t : Nat) : List (Nat × Stock) → M (Option Frame)
  | [] => return none
  | (tag, k) :: r => do
    if k.used = 0 then stockOffer v ctx t r
    else
      let f : Frame := ⟨.ofNat 512 (← vreadN ⟨v, ctx, 15⟩ (stockAddr (launchOf (← get) ctx (stockTag tag)) (stockCore tag v) k.head) 64), tag⟩
      if mayGo v t f then return some f else stockOffer v ctx t r

/-- Put a frame in a free in-transit slot and send it; the victim's part of R65. -/
def sendFrame (v t seq : Nat) (f : Frame) (s : State) : State :=
  let k := coreOf s v
  let i := ((List.range 4).find? fun i => (mget none k.transit i).isNone).getD 0
  sendMsg { kind := 1, src := v, dst := t, seq := seq, ctx := k.holder - 1, frame := some f }
    (modCore s v fun k => { k with transit := mput none k.transit i (some { frame := f, thief := t, seq := seq }) })

/-- STEAL_SERVE's step: a stock head, else the oldest qualifying frame of the deck, else an empty reply.  When the read of a
stock's head is refused or answered FAIL, no stock is offered from (log 57). -/
def serveStep (v : Nat) (s : State) : Option State :=
  match oldestMsg s v with
  | some m =>
    if m.kind != 0 || answersHeld (coreOf s v) then none else
    let k := coreOf s v
    let empty (s : State) : State := sendMsg { kind := 2, src := v, dst := m.src, seq := m.seq, ctx := m.ctx } (dropMsg v s)
    match coreCtx s v with
    | none => some (empty s)
    | some ctx =>
      if m.ctx != ctx || k.off || k.draining || (List.range 4).all (fun i => (mget none k.transit i).isSome)
      then some (empty s)
      else
        let fromDeck (s : State) : State :=
          match k.deck.find? (mayGo v m.src) with
          | some f => sendFrame v m.src m.seq f (modCore (dropMsg v s) v fun k => { k with deck := k.deck.erase f })
          | none => empty s
        match runEngine v 12 (stockOffer v ctx m.src (stocksByTag k.stocks)) s with
        | .wait o => o
        | .failed s => some (fromDeck s)
        | .done none s => some (fromDeck s)
        | .done (some f) s =>
          some (sendFrame v m.src m.seq { f with tag := stockTag f.tag } (modStock (dropMsg v s) v f.tag fun k => { k with head := (k.head + 1) % 2 ^ 64 }))
  | none => none

/-- STEAL_SERVE (03 R65). -/
def execStealServe (core : Nat) (s : State) : Host.Outcome State Fault Refusal := .next (orSame (serveStep core) s)

/-- STEAL_FRAME_ARRIVAL's step: push and ACK, NACK when the thief has been saved, reclaimed or halted since it asked, or the
empty reply. -/
def arrivalStep (t : Nat) (s : State) : Option State :=
  match oldestMsg s t with
  | some m =>
    if m.kind != 1 && m.kind != 2 then none else
    let k := coreOf s t
    let mine := k.stealOut == some (m.src, m.seq) && k.holder == m.ctx + 1
    let done (s : State) : State := if mine then modCore s t fun k => { k with stealOut := none } else s
    let answer (kind : Nat) : StealMsg := { kind := kind, src := t, dst := m.src, seq := m.seq, ctx := m.ctx }
    match m.kind, m.frame with
    | 1, some f =>
      if !coreOpen k || !mine then some (done (sendMsg (answer 4) (dropMsg t s)))
      else if 256 ≤ deckCount k then none
      else some (sendMsg (answer 3) (modCore (pushFrames t [f] (dropMsg t s)) t fun k => { k with stealOut := none, stealPos := 0 }))
    | _, _ => some (done (dropMsg t s))
  | none => none

/-- STEAL_FRAME_ARRIVAL (03 R65). -/
def execStealFrameArrival (core : Nat) (s : State) : Host.Outcome State Fault Refusal := .next (orSame (arrivalStep core) s)

/-- The in-transit slot of a thief and sequence number. -/
def transitAt (k : Core) (t seq : Nat) : Option Nat := (List.range 4).find? fun i =>
  match mget none k.transit i with
  | some x => x.thief == t && x.seq == seq
  | none => false

/-- The core of a context that holds the slot of a steal, and the slot: the victim, or the core that its slots have moved to
(03 R68). -/
def slotOf (s : State) (m : StealMsg) : Option (Nat × Nat) :=
  (m.dst :: List.range 192).findSome? fun c =>
    if (coreOf s c).holder == m.ctx + 1 then (transitAt (coreOf s c) m.src m.seq).map fun i => (c, i) else none

/-- The sector's arbiter holds an answer for the slot of a saved victim (03 R67); one whose slot is gone is dropped. -/
def holdAnswer (m : StealMsg) (s : State) : State :=
  modCtx s m.ctx fun x => { x with savedCores := x.savedCores.map fun e => (e.1, { e.2 with
    transit := e.2.transit.map fun t => (t.1, t.2.map fun y =>
      if y.thief == m.src && y.seq == m.seq then { y with answer := m.kind - 2 } else y) }) }

/-- Free an in-transit slot. -/
def freeSlot (c i : Nat) (s : State) : State := modCore s c fun k => { k with transit := mput none k.transit i none }

/-- STEAL_ACK's step: the slot is freed, or the answer held until its core is restored. -/
def ackStep (v : Nat) (s : State) : Option State :=
  match oldestMsg s v with
  | some m =>
    if m.kind != 3 then none else
    some (match slotOf s m with
      | some (c, i) => freeSlot c i (dropMsg v s)
      | none => holdAnswer m (dropMsg v s))
  | none => none

/-- STEAL_ACK (03 R65). -/
def execStealAck (core : Nat) (s : State) : Host.Outcome State Fault Refusal := .next (orSame (ackStep core) s)

/-- The key of the stock whose head a returned frame of a launch goes to: the first, as steals look at them, that holds frames,
else the core's own. -/
def returnStock (k : Core) (tag : Nat) : Nat :=
  (((stocksByTag k.stocks).find? fun e => stockTag e.1 == tag && e.2.used != 0).map (·.1)).getD tag

/-- A returned frame goes in front of all of its core's frames of its launch (03 R66).  When the write to its stock is refused or
answered FAIL, it goes to the deck head (log 57). -/
def returnFrame (c i : Nat) (s : State) : Option State :=
  let k := coreOf s c
  match mget none k.transit i, coreCtx s c with
  | some x, some ctx =>
    let la := launchOf s ctx x.frame.tag
    let key := returnStock k x.frame.tag
    let st := mget {} k.stocks key
    let toDeck (s : State) : State := modCore (freeSlot c i s) c fun k => { k with deck := x.frame :: k.deck }
    if stockLog la != 0 && (st.used != 0 || 256 ≤ k.deck.length) then
      match runEngine c 12 (vwrite ⟨c, ctx, 15⟩ (stockAddr la (stockCore key c) (st.head + 2 ^ 64 - 1)) (leBytes 64 x.frame.bits.toNat)) s with
      | .wait o => o
      | .failed s => some (toDeck s)
      | .done _ s => some (modStock (freeSlot c i s) c key fun k => { k with head := (k.head + 2 ^ 64 - 1) % 2 ^ 64 })
    else some (toDeck s)
  | _, _ => none

/-- The slot of a core whose frame is to be returned. -/
def nackedSlot (k : Core) : Option Nat := (List.range 4).find? fun i =>
  match mget none k.transit i with
  | some x => x.answer == 2
  | none => false

/-- Note in its slot that a frame is to be returned. -/
def noteNack (c i : Nat) (s : State) : State :=
  modCore s c fun k => { k with transit := mput none k.transit i ((mget none k.transit i).map fun x => { x with answer := 2 }) }

/-- STEAL_NACK's step: the frame is returned, now or once its write can be made, or the answer held until its core is
restored. -/
def nackStep (v : Nat) (s : State) : Option State :=
  match nackedSlot (coreOf s v) with
  | some i => returnFrame v i s
  | none =>
    match oldestMsg s v with
    | some m =>
      if m.kind != 4 then none else
      some (match slotOf s m with
        | some (c, i) =>
          let s := noteNack c i (dropMsg v s)
          (returnFrame c i s).getD s
        | none => holdAnswer m (dropMsg v s))
    | none => none

/-- STEAL_NACK (03 R66). -/
def execStealNack (core : Nat) (s : State) : Host.Outcome State Fault Refusal := .next (orSame (nackStep core) s)

end Sys2Proof.Machine
end

