-- ==== Sys2Proof/Machine/Geometry.lean ====
section
/-! DEFINITION. The geometry of the beam engine in exact arithmetic: rays, cones, direction intervals, boxes and
triangles (08 R169-R177). -/

namespace Sys2Proof.Machine

/-! ### Exact values and their roundings -/

/-- Exact sum, difference and product. -/
def nAdd (a b : Num) : Num := (addNum 0 a b).1
def nSub (a b : Num) : Num := (addNum 0 a (negNum b)).1
def nMul (a b : Num) : Num := (mulNum a b).1
/-- The zero and the infinities. -/
def nZero : Num := .fin false 0 0
def nInf (neg : Bool) : Num := .inf neg
/-- Is a value finite? -/
def nFin : Num → Bool
  | .fin .. => true
  | _ => false
/-- Is it zero? -/
def nIsZero : Num → Bool
  | .fin _ m _ => m == 0
  | _ => false
/-- The magnitude. -/
def nAbs : Num → Num
  | .fin _ m e => .fin false m e
  | .inf _ => .inf false
  | .nan => .nan
/-- a ≤ b, and the lesser and the greater; a NaN is taken over anything. -/
def nLe (a b : Num) : Bool := ltNum a b || eqNum a b
def nMin (a b : Num) : Num := if a == .nan || b == .nan then .nan else if ltNum b a then b else a
def nMax (a b : Num) : Num := if a == .nan || b == .nan then .nan else if ltNum a b then b else a

/-- FP32 rounding: 0 RNE, 2 RDN, 3 RUP. -/
def r32 (mode : Nat) (v : Num) : Num := f32.decode (f32.round mode false 0 v).1
/-- The FP32 number of 32 bits. -/
def n32 (x : Nat) : Num := f32.decode (x % 2 ^ 32)

/-- A quotient as a value that rounds as the exact one does, `b` not zero. -/
def nDiv (a b : Num) : Num :=
  match a, b with
  | .nan, _ => .nan
  | _, .nan => .nan
  | .inf _, .inf _ => .nan
  | .inf x, .fin y _ _ => .inf (x != y)
  | .fin x _ _, .inf y => .fin (x != y) 0 0
  | .fin x m e, .fin y k d =>
    if k = 0 then .nan else if m = 0 then .fin (x != y) 0 0 else
    let sh := 90 + Nat.log2 k
    sticky (x != y) (m * 2 ^ sh / k) (e - d - sh) (m * 2 ^ sh % k != 0)

/-- The square root of a quotient of two positive values, as one that rounds as the exact one does. -/
def nSqrtDiv (a b : Num) : Num :=
  match a, b with
  | .fin _ m e, .fin _ k d =>
    if k = 0 then .nan else if m = 0 then nZero else
    let sh := 180 + Nat.log2 k
    let (m, x) := evenExp (m * 2 ^ sh) (e - d - sh)
    let q := m / k
    let r := isqrt q
    sticky false r (x / 2) (r * r * k != m)
  | _, _ => .nan

/-- The value's FP32 and FP16 codes under RNE, a zero taken as +0. -/
def code32 (v : Num) : Nat :=
  let c := (f32.round 0 false 0 v).1
  if c % 2 ^ 31 = 0 then 0 else c
def code16 (v : Num) : Nat :=
  let c := (f16.round 0 false 0 v).1
  if c % 2 ^ 15 = 0 then 0 else c

/-! ### Vectors -/

/-- Three values. -/
structure Vec3 where
  x : Num
  y : Num
  z : Num
  deriving DecidableEq, Repr

/-- Component `k`. -/
def Vec3.at (v : Vec3) : Nat → Num
  | 0 => v.x | 1 => v.y | _ => v.z
/-- The vector of a function of the component. -/
def vec3 (f : Nat → Num) : Vec3 := ⟨f 0, f 1, f 2⟩
/-- Three FP32 values from low bits up, at bit `lo` of a record. -/
def vecAt (v lo : Nat) : Vec3 := vec3 fun k => n32 (v / 2 ^ (lo + 32 * k))
/-- Do all three satisfy a test?  Does one? -/
def Vec3.all (v : Vec3) (p : Num → Bool) : Bool := p v.x && p v.y && p v.z
def Vec3.any (v : Vec3) (p : Num → Bool) : Bool := p v.x || p v.y || p v.z
/-- Difference, exact. -/
def vSub (a b : Vec3) : Vec3 := vec3 fun k => nSub (a.at k) (b.at k)
/-- Cross product, exact (08 R170). -/
def vCross (a b : Vec3) : Vec3 := vec3 fun k =>
  nSub (nMul (a.at ((k + 1) % 3)) (b.at ((k + 2) % 3))) (nMul (a.at ((k + 2) % 3)) (b.at ((k + 1) % 3)))
/-- Inner product, exact. -/
def vDot (a b : Vec3) : Num := nAdd (nAdd (nMul a.x b.x) (nMul a.y b.y)) (nMul a.z b.z)
/-- One rounding per component. -/
def vRne (v : Vec3) : Vec3 := vec3 fun k => r32 0 (v.at k)

/-! ### Rays (08 R169, R170) -/

/-- The corners D00, D10, D01, D11. -/
structure Corners where
  d00 : Vec3
  d10 : Vec3
  d01 : Vec3
  d11 : Vec3
  deriving DecidableEq, Repr

/-- The corners as a list. -/
def Corners.list (c : Corners) : List Vec3 := [c.d00, c.d10, c.d01, c.d11]

/-- (i + 0.5) / 2^log. -/
def center (i log : Nat) : Num := .fin false (2 * i + 1) (-(log : Int) - 1)

/-- The direction of ray (i, j). -/
def rayDir (c : Corners) (logw logh i j : Nat) : Vec3 := vec3 fun k =>
  let fx := center i logw
  let lo := r32 0 (nAdd (nMul fx (r32 0 (nSub (c.d10.at k) (c.d00.at k)))) (c.d00.at k))
  let hi := r32 0 (nAdd (nMul fx (r32 0 (nSub (c.d11.at k) (c.d01.at k)))) (c.d01.at k))
  r32 0 (nAdd (nMul (center j logh) (r32 0 (nSub hi lo))) lo)

/-- The frustum of a cone, or none for a degenerate one. -/
def coneCorners (a u : Vec3) (th : Num) : Option Corners :=
  if !nFin th || !ltNum nZero th then none else
  let p := vRne (vCross u a)
  let q := vRne (vCross a p)
  if !p.all nFin || !q.all nFin || p.all nIsZero || q.all nIsZero then none else
  let top := nMul (nMul th th) (vDot a a)
  let kp := r32 0 (nSqrtDiv top (vDot p p))
  let kq := r32 0 (nSqrtDiv top (vDot q q))
  let corner (sp sq : Num → Num) : Vec3 := vec3 fun k =>
    r32 0 (nAdd (nAdd (a.at k) (sp (nMul kp (p.at k)))) (sq (nMul kq (q.at k))))
  let c : Corners := ⟨corner negNum negNum, corner id negNum, corner negNum id, corner id id⟩
  if nFin kp && nFin kq && c.list.all (·.all nFin) then some c else none

/-- Is ray (i, j) masked in a KIND 2 beam? -/
def rayMasked (logw logh i j : Nat) : Bool :=
  let w : Int := 2 ^ logw
  let h : Int := 2 ^ logh
  decide (w * w * (h * h) < (2 * i + 1 - w) ^ 2 * (h * h) + (2 * j + 1 - h) ^ 2 * (w * w))

/-! ### Classification (08 R174-R176) -/

/-- An interval. -/
structure Ival where
  lo : Num
  hi : Num
  deriving DecidableEq, Repr

/-- Everything. -/
def Ival.full : Ival := ⟨.inf true, .inf false⟩

/-- Δ: 2^(e - 19) for the largest corner magnitude. -/
def delta (c : Corners) : Num :=
  match c.list.foldl (fun m v => nMax m (nMax (nAbs v.x) (nMax (nAbs v.y) (nAbs v.z)))) nZero with
  | .fin _ m e => if m = 0 then nZero else .fin false 1 (e + Nat.log2 m - 19)
  | x => x

/-- The direction interval of some rays on axis `k`, widened by Δ; one that is not a number settles nothing. -/
def dirIval (rays : List Vec3) (dl : Num) (k : Nat) : Ival :=
  match rays.map (·.at k) with
  | [] => .full
  | d :: t =>
    let lo := t.foldl nMin d
    let hi := t.foldl nMax d
    if lo == .nan || hi == .nan then .full else ⟨r32 2 (nSub lo dl), r32 3 (nAdd hi dl)⟩

/-- An interval quotient, outward; a quotient that does not exist settles nothing. -/
def quotIval (num : Num) (d : Ival) : Ival :=
  let a := r32 2 num
  let b := r32 3 num
  let qs := [nDiv a d.lo, nDiv a d.hi, nDiv b d.lo, nDiv b d.hi]
  if qs.contains .nan then .full
  else ⟨(qs.map (r32 2)).foldl nMin (.inf false), (qs.map (r32 3)).foldl nMax (.inf true)⟩

/-- The three classes. -/
inductive Class where
  | none | all | mixed
  deriving DecidableEq, Repr

/-- What a classification needs to know of its beam. -/
structure View where
  single : Bool
  origin : Vec3
  rays : List Vec3
  delta : Num
  tmin : Num
  tendlo : Num
  tendhi : Num

/-- The near and far intervals of one axis; none when a single ray misses the slab. -/
def axisIval (v : View) (bmin bmax : Vec3) (k : Nat) : Option (Ival × Ival) :=
  let d := dirIval v.rays v.delta k
  if nLe d.lo nZero && nLe nZero d.hi then
    if v.single then
      if nLe (bmin.at k) (v.origin.at k) && nLe (v.origin.at k) (bmax.at k)
      then some (⟨.inf true, .inf true⟩, ⟨.inf false, .inf false⟩) else none
    else some (.full, .full)
  else
    let t1 := quotIval (nSub (bmin.at k) (v.origin.at k)) d
    let t2 := quotIval (nSub (bmax.at k) (v.origin.at k)) d
    some (⟨nMin t1.lo t2.lo, nMin t1.hi t2.hi⟩, ⟨nMax t1.lo t2.lo, nMax t1.hi t2.hi⟩)

/-- Classify a box, with tn.lo. -/
def classify (v : View) (bmin bmax : Vec3) : Class × Num :=
  if bmin.any (· == .nan) || bmax.any (· == .nan) then (.mixed, .inf true)
  else if (List.range 3).any fun k => ltNum (bmax.at k) (bmin.at k) then (.none, .inf false)
  else match axisIval v bmin bmax 0, axisIval v bmin bmax 1, axisIval v bmin bmax 2 with
  | some (n0, f0), some (n1, f1), some (n2, f2) =>
    let tn : Ival := ⟨nMax n0.lo (nMax n1.lo n2.lo), nMax n0.hi (nMax n1.hi n2.hi)⟩
    let tf : Ival := ⟨nMin f0.lo (nMin f1.lo f2.lo), nMin f0.hi (nMin f1.hi f2.hi)⟩
    if ltNum tf.hi tn.lo || ltNum v.tendhi tn.lo || ltNum tf.hi v.tmin then (.none, tn.lo)
    else if nLe tn.hi tf.lo && nLe tn.hi v.tendlo && nLe v.tmin tf.lo then (.all, tn.lo)
    else (.mixed, tn.lo)
  | _, _, _ => (.none, .inf false)

/-- A product of interval ends: a zero end gives zero. -/
def endMul (a b : Num) : Num := if nIsZero a || nIsZero b then nZero else nMul a b

/-- Is culling proven for every ray of the window (08 R176)? -/
def cullNone (v : View) (v0 v1 v2 : Vec3) (front : Bool) : Bool :=
  if !(v0.all nFin && v1.all nFin && v2.all nFin) then false else
  let n := vCross (vSub v1 v0) (vSub v2 v0)
  let part (k : Nat) : Ival :=
    let d := dirIval v.rays v.delta k
    let a := r32 2 (n.at k)
    let b := r32 3 (n.at k)
    let ps := [endMul a d.lo, endMul a d.hi, endMul b d.lo, endMul b d.hi]
    ⟨ps.foldl nMin (.inf false), ps.foldl nMax (.inf true)⟩
  if front then ltNum (r32 3 (nAdd (nAdd (part 0).hi (part 1).hi) (part 2).hi)) nZero
  else ltNum nZero (r32 2 (nAdd (nAdd (part 0).lo (part 1).lo) (part 2).lo))

/-! ### The ray and triangle test (08 R173, R177) -/

/-- t, u and bv, and whether the face is back-facing; the cull flags are the caller's. -/
def rayTri (o d v0 v1 v2 : Vec3) (tmin tmax : Num) : Option (Nat × Nat × Nat × Bool) :=
  if d.all nIsZero || !(v0.all nFin && v1.all nFin && v2.all nFin) then none else
  let kz := if ltNum (nAbs d.x) (nAbs d.y) then (if ltNum (nAbs d.y) (nAbs d.z) then 2 else 1)
    else if ltNum (nAbs d.x) (nAbs d.z) then 2 else 0
  let kx := if ltNum (d.at kz) nZero then (kz + 2) % 3 else (kz + 1) % 3
  let ky := if ltNum (d.at kz) nZero then (kz + 1) % 3 else (kz + 2) % 3
  let sx := r32 0 (nDiv (d.at kx) (d.at kz))
  let sy := r32 0 (nDiv (d.at ky) (d.at kz))
  let sz := r32 0 (nDiv (.fin false 1 0) (d.at kz))
  let a0 := vRne (vSub v0 o)
  let a1 := vRne (vSub v1 o)
  let a2 := vRne (vSub v2 o)
  let ex (a : Vec3) : Num := r32 0 (nSub (a.at kx) (nMul sx (a.at kz)))
  let ey (a : Vec3) : Num := r32 0 (nSub (a.at ky) (nMul sy (a.at kz)))
  if !([sx, sy, sz, ex a0, ex a1, ex a2, ey a0, ey a1, ey a2].all nFin && a0.all nFin && a1.all nFin && a2.all nFin) then none
  else
    let e0 := nSub (nMul (ex a1) (ey a2)) (nMul (ey a1) (ex a2))
    let e1 := nSub (nMul (ex a2) (ey a0)) (nMul (ey a2) (ex a0))
    let e2 := nSub (nMul (ex a0) (ey a1)) (nMul (ey a0) (ex a1))
    let es := [e0, e1, e2]
    if (es.any (ltNum · nZero) && es.any (ltNum nZero ·)) || es.all nIsZero then none
    else
      let det := nAdd (nAdd e0 e1) e2
      let s := nAdd (nAdd (nMul e0 (a0.at kz)) (nMul e1 (a1.at kz))) (nMul e2 (a2.at kz))
      let t := code32 (nDiv (nMul sz s) det)
      let tv := n32 t
      if !nFin tv || ltNum tv tmin || ltNum tmax tv then none
      else some (t, code16 (nDiv e1 det), code16 (nDiv e2 det),
        !ltNum (vDot (vCross (vSub v1 v0) (vSub v2 v0)) d) nZero)

end Sys2Proof.Machine
end

