-- ==== Sys2Proof/Machine/World.lean ====
section
/-! DEFINITION. The entity store: worlds, handles, columns, views, queries, edits and the sync point, with the words of
majors 0x38 to 0x3A (07 R138-R166, 15 R311-R318, 24 R420-R423). -/

namespace Sys2Proof.Machine

/-! ### World-table entries (07 R138, R139) -/

/-- A valid world as a unit sees it: the entry's address, its number and its 1,024 bits. -/
structure World where
  addr : Nat
  num : Nat
  v : Nat
  deriving DecidableEq, Repr

def World.owner (x : World) : Bool := bitAt x.v 919
def World.sysq (x : World) : Nat := fld x.v 918 913
def World.archCount (x : World) : Nat := fld x.v 912 896
def World.clist (x : World) : Nat := fld x.v 888 832
def World.views (x : World) : Nat := fld x.v 824 768
def World.sink (x : World) : Nat := fld x.v 760 704
def World.poolLog (x : World) : Nat := fld x.v 701 697
def World.pool (x : World) : Nat := fld x.v 696 640
def World.eqCap (x : World) : Nat := 2 ^ fld x.v 637 633
def World.eqBase (x : World) : Nat := fld x.v 632 576
def World.arch (x : World) : Nat := fld x.v 568 512
def World.comp (x : World) : Nat := fld x.v 504 448
def World.loc (x : World) : Nat := fld x.v 440 384
def World.version (x : World) : Nat := fld x.v 367 320
def World.locCap (x : World) : Nat := fld x.v 319 288
def World.eqCount (x : World) : Nat := fld x.v 159 128
def World.syncPos (x : World) : Nat := fld x.v 63 0

/-- The valid world of a number in the context's table. -/
def worldGet (w : Who) (n : Nat) : M (Option World) := do
  let tab := recField (← get) w.ctx 255 192
  if n == 0 || tab == 0 then return none
  let v ← vreadN w (tab + 128 * n) 128
  return if worldOk v then some ⟨tab + 128 * n, n, v⟩ else none

/-- Byte offsets of the counters of an entry that atomics reach (07 R139). -/
def offFreeHead : Nat := 8
def offNextNew : Nat := 12
def offEqCount : Nat := 16
def offPoolCount : Nat := 20
def offEdrop : Nat := 24
def offEreject : Nat := 28

/-- An atomic on a counter of an entry: the old value. -/
def worldAtomic (w : Who) (x : World) (off : Nat) (f : Nat → Option Nat) : M Nat := vatomic w (x.addr + off) 4 f

/-- An access that its checks refuse answers nothing. -/
def orNone {α : Type} (m : M α) : M (Option α) := fun s =>
  match m s with
  | .ok a s => .ok (some a) s
  | .error (.fail _ _) s => .ok none s
  | .error e s => .error e s

/-- The physical address of a world's view table, by which two listings name one world (07 R138, log 52). -/
def viewsPa (w : Who) (x : World) : M Nat := translate w (.ofNat 64 x.views) 0

/-- The entries that list a world in the tables of the partition's other contexts, with the unit that writes each. -/
def listings (w : Who) (x : World) : M (List (Who × Nat)) := do
  let home ← viewsPa w x
  let others := (← get).ctxs.filter fun e => e.1 / 64 == w.ctx / 64 && e.1 != w.ctx && fld e.2.record 255 192 != 0
  let all := others.flatMap fun e => (List.range 256).map fun n => (({ w with ctx := e.1 } : Who), n)
  all.filterMapM fun (w', n) => do
    match ← orNone (worldGet w' n) with
    | some (some y) => return if (← orNone (viewsPa w' y)) == some home then some (w', y.addr) else none
    | _ => return none

/-- What the ESU writes in a field of an entry that it keeps stands in every listing of the world (07 R138, log 52). -/
def keepField (w : Who) (x : World) (off n : Nat) (f : Nat → Nat) : M Unit := do
  let _ ← vatomic w (x.addr + off) n fun v => some (f v)
  for (w', a) in ← listings w x do
    let _ ← orNone (vatomic w' (a + off) n fun v => some (f v))

/-- Add to a saturating counter (24 R420). -/
def worldCount (w : Who) (x : World) (off n : Nat) : M Unit := do
  if n != 0 then
    let _ ← worldAtomic w x off fun v => some (min (v + n) 0xFFFFFFFF)

/-! ### Locators and handles (07 R140, R141, R146-R148) -/

def locGen (l : Nat) : Nat := fld l 127 104
def locArch (l : Nat) : Nat := fld l 103 88
def locChunk (l : Nat) : Nat := fld l 87 66
def locRow (l : Nat) : Nat := fld l 65 56
def locState (l : Nat) : Nat := fld l 55 54

/-- Index and generation of a handle. -/
def hIndex (h : Nat) : Nat := h % 2 ^ 32
def hGen (h : Nat) : Nat := fld h 55 32

/-- The locator of an index: one untorn load; 0, which is unused, at or above LOCCAP. -/
def locRead (w : Who) (x : World) (i : Nat) : M Nat := if i < x.locCap then vreadN w (x.loc + 16 * i) 16 else return 0

/-- Write a locator: one untorn write. -/
def locWrite (w : Who) (x : World) (i l : Nat) : M Unit := do
  let _ ← vatomic w (x.loc + 16 * i) 16 fun _ => some l

/-- Is a handle current, by its locator (07 R140)? -/
def isCurrent (l h : Nat) : Bool := locState l == 2 && locGen l == hGen h

/-- The void bits of a row reference. -/
def refVoid : Nat := 0x00FFFFFFFFFFFFFF

/-- EREF's row reference and predicate (07 R147). -/
def eref (w : Who) (h : Nat) : M (Nat × Bool) := do
  if h = 0 then return (2 ^ 64 - 1, false)
  match ← worldGet w (h / 2 ^ 56) with
  | none => throw (.fail 0x10 0)
  | some x =>
    let l ← locRead w x (hIndex h)
    if isCurrent l h then
      return (x.num * 2 ^ 56 + locArch l * 2 ^ 40 + locChunk l * 2 ^ 18 + locRow l * 2 ^ 8, true)
    else return (x.num * 2 ^ 56 + refVoid, false)

/-! ### Archetypes, chunks, columns (07 R142-R145, R161) -/

/-- A component column of an archetype: type, offset of column 0, of column 1 when paired, SIZE. -/
structure Col where
  ty : Nat
  c0 : Nat
  c1 : Option Nat
  size : Nat

def up64 (n : Nat) : Nat := (n + 63) / 64 * 64

/-- The types of a signature, ascending. -/
def typesOf (sig : Nat) : List Nat := (List.range 1024).filter (bitAt sig ·)

/-- A component descriptor (07 R142). -/
def compDesc (w : Who) (x : World) (c : Nat) : M Nat := vreadN w (x.comp + 16 * c) 16

/-- Is a descriptor's type in use?  A malformed one, with a reserved bit set, acts as one with VALID 0 (00 R7, log 53). -/
def compValid (d : Nat) : Bool := bitAt d 31 && d / 2 ^ 32 == 0 && fld d 28 19 == 0 && fld d 15 13 == 0

/-- The columns of a signature, and CHUNKBYTES (07 R144). -/
def columns (w : Who) (x : World) (sig : Nat) : M (List Col × Nat) := do
  let mut off := 20992
  let mut cols : List Col := []
  for c in typesOf sig do
    let d ← compDesc w x c
    let size := fld d 12 0
    let c0 := up64 off
    off := c0 + 1024 * size
    if bitAt d 30 then
      let c1 := up64 off
      off := c1 + 1024 * size
      cols := cols ++ [⟨c, c0, some c1, size⟩]
    else cols := cols ++ [⟨c, c0, none, size⟩]
  return (cols, up64 off)

/-- The column of a type at version `v`: column v mod 2 of a paired one (07 R161). -/
def Col.at (c : Col) (v : Nat) : Nat :=
  match c.c1 with
  | some c1 => if v % 2 = 0 then c.c0 else c1
  | none => c.c0

/-- The offsets of a type's columns. -/
def Col.both (c : Col) : List Nat := c.c0 :: c.c1.toList

/-- An archetype's signature. -/
def sigRead (w : Who) (x : World) (a : Nat) : M Nat := vreadN w (x.arch + 192 * a) 128
/-- LIVEROWS and NCHUNK. -/
def archRead (w : Who) (x : World) (a : Nat) : M (Nat × Nat) := do
  let v ← vreadN w (x.arch + 192 * a + 128) 8
  return (v % 2 ^ 32, fld v 54 32)
/-- Change LIVEROWS and NCHUNK. -/
def archAdd (w : Who) (x : World) (a : Nat) (rows chunks : Int) : M Unit := do
  let (r, n) ← archRead w x a
  vwrite w (x.arch + 192 * a + 128) (leBytes 8 (truncI (r + rows) 32 + truncI (n + chunks) 23 * 2 ^ 32))
/-- The address of a chunk-list entry. -/
def clistAddr (x : World) (a k : Nat) : Nat := x.clist + a * 2 ^ 25 + 8 * k

/-- Chunks of an archetype from entry `k` on: numbers and addresses, until `need` are found. -/
def chunksFrom (w : Who) (x : World) (a : Nat) : Nat → Nat → Nat → M (List (Nat × Nat))
  | 0, _, _ => return []
  | fuel + 1, k, need => do
    if need = 0 then return []
    let p ← vreadN w (clistAddr x a k) 8
    if p = 0 then chunksFrom w x a fuel (k + 1) need
    else return (k, p) :: (← chunksFrom w x a fuel (k + 1) (need - 1))

/-- The chunks of an archetype, ascending. -/
def chunksOf (w : Who) (x : World) (a : Nat) : M (List (Nat × Nat)) := do
  let (_, n) ← archRead w x a
  chunksFrom w x a 4194304 0 n

/-- BORN and DIED of the rows of a chunk, as one number. -/
def versRead (w : Who) (p : Nat) : M Nat := vreadN w (p + 4608) 16384
def bornOf (v r : Nat) : Nat := v / 2 ^ (128 * r) % 2 ^ 64
def diedOf (v r : Nat) : Nat := v / 2 ^ (128 * r + 64) % 2 ^ 64
/-- Visible at a version (07 R145). -/
def visible (v r n : Nat) : Bool := bornOf v r ≤ n && n < diedOf v r
/-- A chunk's live mask. -/
def liveRead (w : Who) (p : Nat) : M Nat := vreadN w (p + 256) 128
/-- Free under Vmin (07 R145). -/
def freeRow (live v r vmin : Nat) : Bool := !bitAt live r && decide (diedOf v r ≤ vmin)

/-- ECOL (07 R147, 15 R312): `la` is the launch of the thread. -/
def ecol (w : Who) (la : Launch) (ref c : Nat) (back : Bool) : M Nat := do
  let void := ref % 2 ^ 56 == refVoid
  let x ← match ← worldGet w (ref / 2 ^ 56) with
    | some x => pure (some x)
    | none => if !void then throw (.fail 0x10 0) else if la.bound then worldGet w la.world else pure none
  match x with
  | none => return 0
  | some x =>
    let a := fld ref 55 40
    if void || x.archCount ≤ a then return x.sink
    let sig ← sigRead w x a
    if !bitAt sig c then return x.sink
    let p ← vreadN w (clistAddr x a (fld ref 39 18)) 8
    if p = 0 then return x.sink
    let (cols, _) ← columns w x (sig % 2 ^ (c + 1))
    match cols.getLast? with
    | none => return x.sink
    | some col =>
      let v := if la.bound then la.view else x.version
      let b := if back && la.system && bitAt la.wset c then 1 else 0
      return (p + col.at (v + b) + col.size * fld ref 17 8) % 2 ^ 64

/-! ### Views (07 R160, 15 R317, R318) -/

/-- The slot words of a world's view table. -/
def viewWord (w : Who) (x : World) (k : Nat) : M Nat := vreadN w (x.views + 16 * k) 8

/-- VOPEN: the lowest free slot, or 0. -/
def vopenSlot (w : Who) (x : World) : Nat → Nat → M Nat
  | 0, _ => return 0
  | n + 1, k => do
    let new := 2 ^ 63 + w.ctx % 64 * 2 ^ 48 + x.version
    let old ← vatomic w (x.views + 16 * k) 8 fun v => if bitAt v 63 then none else some new
    if bitAt old 63 then vopenSlot w x n (k + 1) else return x.num * 2 ^ 56 + k * 2 ^ 48 + x.version

/-- The world of a number, read with acquire at .package: all its VERSION orders reaches the core's sector first. -/
def worldAcquire (w : Who) (n : Nat) : M (Option World) := do
  match ← worldGet w n with
  | none => return none
  | some x =>
    let _ ← vatomic w (x.addr + 40) 8 fun _ => none
    worldGet w n

/-- VCLOSE of a token: without effect unless it names an open slot of this context holding that version. -/
def vcloseTok (w : Who) (t : Nat) : M Unit := do
  match ← worldGet w (t / 2 ^ 56) with
  | none => return ()
  | some x =>
    let _ ← vatomic w (x.views + 16 * fld t 55 48) 8 fun v =>
      if bitAt v 63 && fld v 53 48 == w.ctx % 64 && fld v 47 0 == t % 2 ^ 48 then some (v - 2 ^ 63) else none

/-- Does a token name an open slot of the world holding its version (15 R313)? -/
def tokenOk (w : Who) (x : World) (t : Nat) : M Bool := do
  if t / 2 ^ 56 != x.num then return false
  let v ← viewWord w x (fld t 55 48)
  return bitAt v 63 && fld v 47 0 == t % 2 ^ 48

/-- The oldest open view of a world: table slots and launch bindings, of every context of the partition (07 R160). -/
def oldestView (w : Who) (x : World) : M (Option Nat) := do
  let home ← viewsPa w x
  let t ← vreadN w x.views 4096
  let slots := (List.range 256).filterMap fun k =>
    let v := t / 2 ^ (128 * k) % 2 ^ 64
    if bitAt v 63 then some (v % 2 ^ 48) else none
  let s ← get
  let binds := s.ctxs.flatMap fun e => if e.1 / 64 != w.ctx / 64 then [] else
    e.2.launches.filterMap fun la => if la.2.bound && !la.2.done && la.2.viewsPa == home then some la.2.view else none
  return (slots ++ binds).min?

/-! ### Queries (07 R162-R165) -/

/-- A query descriptor: its 736 bytes as a number. -/
abbrev Query_ := Nat

def qWorld (q : Query_) : Nat := q % 256
def qLinks (q : Query_) : Nat := fld q 9 8
def qToken (q : Query_) : Nat := fld q 127 64
def qRequired (q : Query_) : Nat := fld q 1535 512
def qExcluded (q : Query_) : Nat := fld q 2559 1536
/-- Link `i` as a number of 144 bytes. -/
def qLink (q : Query_) (i : Nat) : Nat := q / 2 ^ (3584 + 1152 * i) % 2 ^ 1152

/-- Is a descriptor malformed (07 R162)?  Its two links are checked whatever NLINK is. -/
def queryBad (q : Query_) : Bool :=
  fld q 63 10 != 0 || fld q 511 128 != 0 || qLinks q == 3
  || (List.range 2).any fun i =>
    fld (qLink q i) 63 22 != 0 || fld (qLink q i) 127 64 != 0 || fld (qLink q i) 21 10 % 8 != 0

/-- Do the first `n` links of a row of an archetype hold at view `v`? -/
def linksOk (w : Who) (q : Query_) (cols : List Col) (p r v : Nat) : Nat → M Bool
  | 0 => return true
  | n + 1 => do
    if !(← linksOk w q cols p r v n) then return false
    let l := qLink q n
    match cols.find? (·.ty == l % 1024) with
    | none => return false
    | some c =>
      let h ← vreadN w (p + c.at v + c.size * r + fld l 21 10) 8
      match ← worldGet w (h / 2 ^ 56) with
      | none => return false
      | some y =>
        let loc ← locRead w y (hIndex h)
        if h == 0 || !isCurrent loc h then return false
        let sig ← sigRead w y (locArch loc)
        let want := l / 2 ^ 128
        return sig &&& want == want

/-- The matching rows of a chunk. -/
def chunkRows (w : Who) (q : Query_) (cols : List Col) (p v : Nat) : M (List Nat) := do
  let vs ← versRead w p
  ((List.range 1024).filter fun r => visible vs r v).filterM fun r => linksOk w q cols p r v (qLinks q)

/-- Does an archetype's signature pass? -/
def sigPasses (q : Query_) (sig : Nat) : Bool := sig &&& qRequired q == qRequired q && sig &&& qExcluded q == 0

/-- Every matching row at view `v`, by archetype, chunk, row (07 R163). -/
def matchRows (w : Who) (x : World) (q : Query_) (v : Nat) : M (List (Nat × Nat × Nat)) := do
  let mut out : List (Nat × Nat × Nat) := []
  for a in List.range x.archCount do
    let sig ← sigRead w x a
    if sigPasses q sig then
      let (cols, _) ← columns w x sig
      for (k, p) in ← chunksOf w x a do
        out := out ++ (← chunkRows w q cols p v).map fun r => (a, k, r)
  return out

/-- The first run of rows, from some rows of one chunk: first row and count. -/
def firstRun (rows : List Nat) : Option (Nat × Nat) :=
  match rows with
  | [] => none
  | r :: _ => some (r, ((rows.zipIdx).takeWhile fun e => e.1 == r + e.2).length)

/-- The first run in chunks at or after (k0, r0) of an archetype. -/
def spanChunks (w : Who) (q : Query_) (cols : List Col) (v k0 r0 : Nat) : List (Nat × Nat) → M (Option (Nat × Nat × Nat))
  | [] => return none
  | (k, p) :: t => do
    if k < k0 then spanChunks w q cols v k0 r0 t
    else
      let rows ← chunkRows w q cols p v
      match firstRun (if k = k0 then rows.filter (r0 ≤ ·) else rows) with
      | some (r, n) => return some (k, r, n)
      | none => spanChunks w q cols v k0 r0 t

/-- The first run from a cursor on, over `fuel` archetypes. -/
def spanFrom (w : Who) (x : World) (q : Query_) (v : Nat) : Nat → Nat → Nat → Nat → M Nat
  | 0, _, _, _ => return 2 ^ 64 - 1
  | fuel + 1, a, k0, r0 => do
    if x.archCount ≤ a then return 2 ^ 64 - 1
    let sig ← sigRead w x a
    let found ← if sigPasses q sig then do
        let (cols, _) ← columns w x sig
        spanChunks w q cols v k0 r0 (← chunksOf w x a)
      else pure none
    match found with
    | some (k, r, n) => return a * 2 ^ 48 + k * 2 ^ 26 + r * 2 ^ 16 + n
    | none => spanFrom w x q v fuel (a + 1) 0 0

/-- ESPAN (07 R165, 15 R313): the view is the descriptor's token, the bound view, or VERSION. -/
def espan (w : Who) (la : Launch) (qa cur : Nat) : M Nat := do
  let q ← vreadN w qa 736
  match ← worldGet w (qWorld q) with
  | none => throw (.fail 0x10 0)
  | some x =>
    if queryBad q then throw (.fail 0x0E 0)
    if qToken q != 0 && !(← tokenOk w x (qToken q)) then return 2 ^ 64 - 1
    let v := if qToken q != 0 then qToken q % 2 ^ 48 else if la.bound then la.view else x.version
    let a := fld cur 63 48
    if fld cur 15 11 != 0 then spanFrom w x q v 65537 (a + 1) 0 0
    else spanFrom w x q v 65537 a (fld cur 47 26) (fld cur 25 16)

/-! ### The words EREF, ECOL, ESPAN, VOPEN, VCLOSE -/

/-- The launch of the issuing warp's threads: a task's is its frames' tag. -/
def iLaunch (s : State) : Launch := launchOf s (iWarp s).ctx (iWarp s).launch

/-- An access of a world word that its translation refuses, or whose page request is answered FAIL, finds no valid world:
HANDLE_WORLD is what the word may raise (22 R397, log 54). -/
def esuCauses {α : Type} (m : M α) : M α := fun s =>
  match m s with
  | .error (.fail c _) s => .error (.fail (if c = 0x0E then c else 0x10) 0) s
  | r => r

/-- Run an ESU access of the issuing word. -/
def inlineEsu {α : Type} (s : State) (ls : List Nat) (m : M α) (k : α → State → State) : State :=
  inlineM s ls (esuCauses m) k 0x10

/-- A world word that answers one register for each thread. -/
def issueWorld (i : Instr) (g : BitVec 3) (own : Check) (d : Nat) (f : State → Nat → M Nat) (s : State) : State :=
  issueE i g own (fun ls s =>
    inlineEsu s ls (ls.mapM fun l => do return (l, BitVec.ofNat 64 (← f s l))) fun vs s => putX s d 1 vs) s

/-- EREF (07 R147, 15 R311). -/
def execEref (c : BitVec 1) (g : BitVec 3) (d a : BitVec 6) (p : BitVec 3) (s : State) : Host.Outcome State Fault Refusal :=
  .next (issueE (.eref c g d a p) g noCheck (fun ls s =>
    inlineEsu s ls (ls.mapM fun l => do return (l, ← eref (iWho s 6) (getX (iLane s l) (rA s a)).toNat)) fun vs s =>
      putP (putX s (rD s d) 1 (vs.map fun e => (e.1, .ofNat 64 e.2.1))) p.toNat 1 (vs.map fun e => (e.1, e.2.2))) s)

/-- ECOL (07 R147, 15 R312). -/
def execEcol (c : BitVec 1) (g : BitVec 3) (d a b : BitVec 6) (s : State) : Host.Outcome State Fault Refusal :=
  .next (issueWorld (.ecol c g d a b) g noCheck (rD s d) (fun s l =>
    let y := (getX (iLane s l) (rB s b)).toNat
    ecol (iWho s 6) (iLaunch s) (getX (iLane s l) (rA s a)).toNat (y % 1024) (bitAt y 16)) s)

/-- ESPAN's address (15 R313). -/
def espanCheck (a : BitVec 6) : Check := globalCheck_ 64 a
where
  /-- Bits [63:57], then the alignment, of a register in some lane. -/
  globalCheck_ (n : Nat) (a : BitVec 6) : Check := firstBad fun s l =>
    let va := getX (iLane s l) (rA s a)
    if 2 ^ 57 ≤ va.toNat then some (0x06, va) else if va.toNat % n ≠ 0 then some (0x05, va) else none

/-- ESPAN (07 R165, 15 R313). -/
def execEspan (c : BitVec 1) (g : BitVec 3) (d a b : BitVec 6) (s : State) : Host.Outcome State Fault Refusal :=
  .next (issueWorld (.espan c g d a b) g (espanCheck a) (rD s d) (fun s l =>
    espan (iWho s 6) (iLaunch s) (getX (iLane s l) (rA s a)).toNat (getX (iLane s l) (rB s b)).toNat) s)

/-- Is a sync point of some lane's world under way (07 R160)? -/
def syncRunning (s : State) (ls : List Nat) (a : BitVec 6) : Bool := ls.any fun l =>
  match quiet s (worldGet (iWho s 6) ((getX (iLane s l) (rA s a)).toNat % 256)) with
  | some (some x) => x.syncPos != 0
  | _ => false

/-- The worlds that some lanes name, read with acquire: HANDLE_WORLD without a valid entry (15 R317). -/
def vopenWorlds (s : State) (a : BitVec 6) (ls : List Nat) : M (List (Nat × World)) :=
  ls.mapM fun l => do
    match ← worldAcquire (iWho s 6) ((getX (iLane s l) (rA s a)).toNat % 256) with
    | some x => return (l, x)
    | none => throw (.fail 0x10 0)

/-- VOPEN of threads that wait on a sync point: only their result is pending (15 R317). -/
def vopenWait (d a : BitVec 6) (ls : List Nat) (s : State) : State :=
  iMod (ls.foldl (fun s l => pushEntry s l (entryOf s {
    kind := .vopen, ord := 4, dst := rD s d, x1 := .ofNat 64 ((getX (iLane s l) (rA s a)).toNat % 256) })) s)
    fun w => addPending w 0 (rD s d) (maskOf ls) 0

/-- VOPEN (07 R160, 15 R317): one that meets a sync point under way completes when that ends. -/
def execVopen (c : BitVec 1) (g : BitVec 3) (d a : BitVec 6) (s : State) : Host.Outcome State Fault Refusal :=
  .next (issueE (.vopen c g d a) g noCheck (fun ls s =>
    if syncRunning s ls a then inlineEsu s ls (vopenWorlds s a ls) fun _ s => vopenWait d a ls s
    else inlineEsu s ls (do
      (← vopenWorlds s a ls).mapM fun e => do return (e.1, BitVec.ofNat 64 (← vopenSlot (iWho s 6) e.2 256 0))) fun vs s =>
        putX s (rD s d) 1 vs) s)

/-- A waiting VOPEN opens its view once no sync point of its world is under way, its bundle's lanes in order (15 R317). -/
def vopenStep (c slot l i : Nat) (s : State) : Option State :=
  match entryAt s c slot l i with
  | none => none
  | some e =>
    let w : Who := { whoOf s c slot with agent := 6 }
    if e.kind != .vopen || e.wait.isSome
        || ((List.range l).any fun k => (laneOf (warpOf s c slot) k).front.any (sameWord e)) then none
    else match quiet s (worldGet w e.x1.toNat) with
      | some (some x) =>
        if x.syncPos != 0 then none
        else some (carryOut s c slot l i (esuCauses (do
          match ← worldAcquire w e.x1.toNat with
          | some x => vopenSlot w x 256 0
          | none => throw (.fail 0x10 0))) fun v s => deliverX (dropEntry s c slot l i) c slot l e.dst (.ofNat 64 v))
      | _ => some (carryOut s c slot l i (esuCauses (do
          match ← worldGet w e.x1.toNat with
          | some _ => return ()
          | none => throw (.fail 0x10 0))) fun _ s => s)

/-- VCLOSE (07 R160, 15 R317): after every earlier load of its threads; it raises nothing (log 54). -/
def execVclose (c : BitVec 1) (g : BitVec 3) (a : BitVec 6) (s : State) : Host.Outcome State Fault Refusal :=
  .next (issueE (.vclose c g a) g noCheck (fun ls s =>
    inlineM s ls (ls.mapM fun l => orNone (vcloseTok (iWho s 6) (getX (iLane s l) (rA s a)).toNat)) (fun _ s => s) 0) s)

/-! ### Edits (07 R149-R152, 15 R314-R316) -/

/-- GTID of a thread of the issuing warp (07 R151). -/
def gtidOf (s : State) (l : Nat) : Nat :=
  if (iWarp s).kind == .grid then
    let g := groupOf s s.issue.core (iWarp s).group
    g.index * g.threads + (iWarp s).windex * 32 + l
  else 2 ^ 39 + s.issue.core * 2048 + s.issue.slot * 32 + l

/-- The world an edit acts on: owned, valid, and the thread's launch a system of it; none for the null handle. -/
def editWorld (w : Who) (la : Launch) (n : Nat) : M World := do
  match ← worldGet w n with
  | some x => if x.owner && la.system && la.bound && la.world == n then return x else throw (.fail 0x10 0)
  | none => throw (.fail 0x10 0)

/-- Reserve an index (07 R149, R141): a provisional handle, none when there is no index. -/
def reserveIndex (w : Who) (x : World) : M (Option Nat) := do
  let head ← worldAtomic w x offFreeHead fun _ => none
  let pick ← if head != 0xFFFFFFFF then do
      let l ← vreadN w (x.loc + 16 * head) 16
      let _ ← worldAtomic w x offFreeHead fun _ => some (l % 2 ^ 32)
      pure (some (head, l))
    else do
      let n ← worldAtomic w x offNextNew fun v => if v < x.locCap then some (v + 1) else none
      if n < x.locCap then pure (some (n, putBits (← vreadN w (x.loc + 16 * n) 16) 127 104 1)) else pure none
  match pick with
  | none => return none
  | some (i, l) =>
    locWrite w x i (putBits l 55 54 1)
    return some (x.num * 2 ^ 56 + locGen l * 2 ^ 32 + i)

/-- One thread's edit (15 R315): ENEW's handle, else 0. -/
def editLane (w : Who) (la : Launch) (tag gtid op h comp value : Nat) (grid : Bool) (x : World) : M Nat := do
  let key := tag * 2 ^ 40 + gtid
  let n := mget 0 (ctxOf (← get) w.ctx).ecount key
  if (grid && 2 ^ 39 ≤ gtid) || 2 ^ 24 ≤ n then
    worldCount w x offEdrop 1
    return 0
  let e ← worldAtomic w x offEqCount fun v => if v < x.eqCap then some (v + 1) else none
  if x.eqCap ≤ e then
    worldCount w x offEdrop 1
    return 0
  let h? ← if op = 4 then reserveIndex w x else pure (some h)
  match h? with
  | none =>
    let _ ← worldAtomic w x offEqCount fun v => some (v - 1)
    worldCount w x offEdrop 1
    return 0
  | some h =>
    vwrite w (x.eqBase + 32 * e) (leBytes 32
      (la.sysseq % 2 ^ 32 * 2 ^ 224 + gtid * 2 ^ 184 + n * 2 ^ 160 + op * 2 ^ 152 + comp * 2 ^ 128 + h * 2 ^ 64 + value))
    modify fun s => modCtx s w.ctx fun c => { c with ecount := mput 0 c.ecount key (n + 1) }
    return if op = 4 then h else 0

/-- An edit word: every thread is checked before any claims (15 R315).  `f` gives the world number (none: nothing to do),
handle, type and value of a thread. -/
def issueEdit (i : Instr) (g : BitVec 3) (op : Nat) (f : State → Nat → Option (Nat × Nat × Nat × Nat))
    (k : List (Nat × Word) → State → State) (s : State) : State :=
  issueE i g noCheck (fun ls s =>
    inlineEsu s ls (do
      let w := iWho s 6
      let xs ← (ls.filterMap fun l => (f s l).map fun e => (l, e)).mapM fun e => do
        return (e, ← editWorld w (iLaunch s) e.2.1)
      xs.mapM fun e => do
        let (_, h, comp, value) := e.1.2
        return (e.1.1, BitVec.ofNat 64 (← editLane w (iLaunch s) (iWarp s).launch (gtidOf s e.1.1) op h comp value
          ((iWarp s).kind == .grid) e.2))) k) s

/-- The handle of a lane, with the fields its edit records; none for the null handle. -/
def handleArgs (a : BitVec 6) (comp value : State → Nat → Nat) (s : State) (l : Nat) : Option (Nat × Nat × Nat × Nat) :=
  let h := (getX (iLane s l) (rA s a)).toNat
  if h = 0 then none else some (h / 2 ^ 56, h, comp s l, value s l)

/-- The component type in B. -/
def compArg (b : BitVec 6) (s : State) (l : Nat) : Nat := (getX (iLane s l) (rB s b)).toNat % 1024

/-- ENEW (07 R149). -/
def execEnew (c : BitVec 1) (g : BitVec 3) (d a b : BitVec 6) (s : State) : Host.Outcome State Fault Refusal :=
  .next (issueEdit (.enew c g d a b) g 4
    (fun s l => some ((getX (iLane s l) (rA s a)).toNat % 256, 0, 0, (getX (iLane s l) (rB s b)).toNat % 65536))
    (fun vs s => putX s (rD s d) 1 vs) s)

/-- EDEL (07 R149). -/
def execEdel (c : BitVec 1) (g : BitVec 3) (a : BitVec 6) (s : State) : Host.Outcome State Fault Refusal :=
  .next (issueEdit (.edel c g a) g 1 (handleArgs a (fun _ _ => 0) fun _ _ => 0) (fun _ s => s) s)

/-- EADD: D names the address of the initial element (15 R314). -/
def execEadd (c : BitVec 1) (g : BitVec 3) (d a b : BitVec 6) (s : State) : Host.Outcome State Fault Refusal :=
  .next (issueEdit (.eadd c g d a b) g 2 (handleArgs a (compArg b) fun s l => (getX (iLane s l) (rD s d)).toNat) (fun _ s => s) s)

/-- EREM (07 R149). -/
def execErem (c : BitVec 1) (g : BitVec 3) (a b : BitVec 6) (s : State) : Host.Outcome State Fault Refusal :=
  .next (issueEdit (.erem c g a b) g 3 (handleArgs a (compArg b) fun _ _ => 0) (fun _ s => s) s)

/-! ### The sync point (07 R156-R159) -/

/-- An edit record. -/
abbrev Edit := Nat

def edOp (e : Edit) : Nat := fld e 159 152
def edComp (e : Edit) : Nat := fld e 137 128
def edHandle (e : Edit) : Nat := fld e 127 64
def edValue (e : Edit) : Nat := fld e 63 0

/-- The batch, ascending by key: the key is the record's highest 96 bits (07 R150). -/
def batchOf (w : Who) (x : World) : M (List Edit) := do
  let n := min x.eqCount x.eqCap
  let v ← vreadN w x.eqBase (32 * n)
  return ((List.range n).map fun i => v / 2 ^ (256 * i) % 2 ^ 256).mergeSort fun a b => decide (a / 2 ^ 160 ≤ b / 2 ^ 160)

/-- What a sync point carries: its world, N, Vmin, and the archetypes it changed. -/
structure Sync where
  w : Who
  x : World
  n : Nat
  vmin : Nat

/-- Set or clear a row's live bit, and the header's count (07 R144). -/
def setLive (y : Sync) (p r : Nat) (b : Bool) : M Unit := do
  let m ← liveRead y.w p
  let m' := if b then (if bitAt m r then m else m + 2 ^ r) else (if bitAt m r then m - 2 ^ r else m)
  vwrite y.w (p + 256) (leBytes 128 m')
  let h ← vreadN y.w p 8
  vwrite y.w p (leBytes 8 (putBits h 48 38 ((List.range 1024).filter (bitAt m' ·)).length))

/-- A row dies at N. -/
def vacateRow (y : Sync) (l : Nat) : M Unit := do
  let p ← vreadN y.w (clistAddr y.x (locArch l) (locChunk l)) 8
  vwrite y.w (p + 4608 + 16 * locRow l + 8) (leBytes 8 y.n)
  setLive y p (locRow l) false
  archAdd y.w y.x (locArch l) (-1) 0

/-- A row is born at N for an index (07 R157). -/
def fillRow (y : Sync) (a p r i : Nat) : M Unit := do
  vwrite y.w (p + 4608 + 16 * r) (leBytes 8 y.n ++ leBytes 8 (2 ^ 64 - 1))
  vwrite y.w (p + 512 + 4 * r) (leBytes 4 i)
  setLive y p r true
  archAdd y.w y.x a 1 0

/-- The first free row of some chunks. -/
def firstFree (y : Sync) : List (Nat × Nat) → M (Option (Nat × Nat × Nat))
  | [] => return none
  | (k, p) :: t => do
    let v ← versRead y.w p
    let m ← liveRead y.w p
    match (List.range 1024).find? fun r => freeRow m v r y.vmin with
    | some r => return some (k, p, r)
    | none => firstFree y t

/-- A block of the pool becomes a chunk at the lowest entry that is 0 (07 R157, 24 R421). -/
def newChunk (y : Sync) (a : Nat) (have_ : List (Nat × Nat)) : M (Option (Nat × Nat)) := do
  let k := ((List.range (have_.length + 1)).find? fun k => !have_.any (·.1 == k)).getD 0
  if 4194304 ≤ k then return none
  let top ← worldAtomic y.w y.x offPoolCount fun v => if v = 0 then none else some (v - 1)
  if top = 0 then return none
  let p ← vreadN y.w (y.x.pool + 8 * (top - 1)) 8
  vwrite y.w p (leBytes 256 (a + k * 2 ^ 16))
  vwrite y.w (p + 256) (leBytes 128 0)
  vwrite y.w (p + 4608) (leBytes 16384 0)
  vwrite y.w (clistAddr y.x a k) (leBytes 8 p)
  archAdd y.w y.x a 0 1
  return some (k, p)

/-- Place an index in an archetype: its chunk, address and row (07 R157). -/
def placeRow (y : Sync) (a i : Nat) : M (Option (Nat × Nat × Nat)) := do
  let cs ← chunksOf y.w y.x a
  let spot ← match ← firstFree y cs with
    | some z => pure (some z)
    | none => do
      match ← newChunk y a cs with
      | some (k, p) => pure (some (k, p, 0))
      | none => pure none
  match spot with
  | none => return none
  | some (k, p, r) =>
    fillRow y a p r i
    return some (k, p, r)

/-- Write one element into every column of its type. -/
def setElem (y : Sync) (c : Col) (p r : Nat) (bs : List Byte) : M Unit :=
  c.both.forM fun o => vwrite y.w (p + o + c.size * r) bs

/-- Copy the elements of the types that both layouts hold. -/
def copyElems (y : Sync) (src dst : List Col) (p r q t : Nat) : M Unit :=
  dst.forM fun d => match src.find? (·.ty == d.ty) with
    | some c => (c.both.zip d.both).forM fun o => do
      vwrite y.w (q + o.2 + d.size * t) (← vread y.w (p + o.1 + c.size * r) c.size)
    | none => return ()

/-- Apply records to a signature: the new one, how many are rejected, and the adds among the rest (07 R156). -/
def applyEdits (y : Sync) : List Edit → Nat → M (Nat × Nat × List Edit)
  | [], sig => return (sig, 0, [])
  | e :: t, sig => do
    let d ← compDesc y.w y.x (edComp e)
    if !compValid d then
      let (sig, n, as) ← applyEdits y t sig
      return (sig, n + 1, as)
    else
      let sig := putBits sig (edComp e) (edComp e) (if edOp e = 2 then 1 else 0)
      let (sig, n, as) ← applyEdits y t sig
      return (sig, n, if edOp e = 2 then e :: as else as)

/-- Write the added values in key order. -/
def setValues (y : Sync) (cols : List Col) (p r : Nat) (as : List Edit) : M Unit :=
  as.forM fun e => match cols.find? (·.ty == edComp e) with
    | some c => do
      let bs ← if edValue e = 0 then pure (List.replicate c.size 0) else vread y.w (edValue e) c.size
      setElem y c p r bs
    | none => return ()

/-- Search the archetypes from `a` on for a signature. -/
def findArch (y : Sync) (sig : Nat) : Nat → Nat → M (Option Nat)
  | 0, _ => return none
  | n + 1, a => do
    if (← sigRead y.w y.x a) == sig then return some a else findArch y sig n (a + 1)

/-- FindOrCreate (07 R156); ARCHCOUNT is read afresh. -/
def findOrCreate (y : Sync) (sig : Nat) : M (Option Nat) := do
  let v ← vreadN y.w (y.x.addr + 112) 4
  let n := v % 2 ^ 17
  match ← findArch y sig n 0 with
  | some a => return some a
  | none =>
    let (_, bytes) ← columns y.w y.x sig
    if 65536 ≤ n || 2 ^ y.x.poolLog < bytes then return none
    vwrite y.w (y.x.arch + 192 * n) (leBytes 192 sig)
    keepField y.w y.x 112 4 fun v => putBits v 16 0 (n + 1)
    return some n

/-- Tombstone an index as a deletion does (07 R141, R156). -/
def tombstone (y : Sync) (i l : Nat) : M Unit := do
  if locGen l = 0xFFFFFF then locWrite y.w y.x i (putBits (putBits l 53 53 1) 55 54 3)
  else
    let head ← worldAtomic y.w y.x offFreeHead fun _ => some i
    locWrite y.w y.x i (putBits (putBits (putBits l 127 104 (locGen l + 1)) 31 0 head) 55 54 3)

/-- A deletion record: rejects, archetypes changed. -/
def syncDelete (y : Sync) (e : Edit) : M (Nat × List Nat) := do
  let i := hIndex (edHandle e)
  let l ← locRead y.w y.x i
  if !(locState l == 1 || locState l == 2) || locGen l != hGen (edHandle e) then return (1, [])
  if locState l = 2 then vacateRow y l
  tombstone y i l
  return (0, if locState l = 2 then [locArch l] else [])

/-- The records with OP 2 and 3 of a handle, once all of the batch's deletions are done. -/
def syncMove (y : Sync) (h : Nat) (rs : List Edit) : M (Nat × List Nat) := do
  let i := hIndex h
  let l ← locRead y.w y.x i
  if locState l == 1 && locGen l == hGen h then return (0, [])
  if !isCurrent l h then return (rs.length, [])
  let a0 := locArch l
  let old ← sigRead y.w y.x a0
  let (sig, bad, as) ← applyEdits y rs old
  let p ← vreadN y.w (clistAddr y.x a0 (locChunk l)) 8
  let (cols, _) ← columns y.w y.x sig
  if sig = old then
    setValues y cols p (locRow l) as
    return (bad, [])
  match ← findOrCreate y sig with
  | none => return (bad + rs.length, [])
  | some a =>
    match ← placeRow y a i with
    | none => return (bad + rs.length, [])
    | some (k, q, r) =>
      let (oldCols, _) ← columns y.w y.x old
      copyElems y oldCols cols p (locRow l) q r
      (cols.filter fun c => !bitAt old c.ty).forM fun c => setElem y c q r (List.replicate c.size 0)
      setValues y cols q r as
      vacateRow y l
      locWrite y.w y.x i (putBits (putBits (putBits l 103 88 a) 87 66 k) 65 56 r)
      return (bad, [a0, a])

/-- A creation record with the records folded into it. -/
def syncCreate (y : Sync) (e : Edit) (folded : List Edit) : M (Nat × List Nat) := do
  let i := hIndex (edHandle e)
  let l ← locRead y.w y.x i
  if locState l != 1 || locGen l != hGen (edHandle e) then return (0, [])
  let v ← vreadN y.w (y.x.addr + 112) 4
  if v % 2 ^ 17 ≤ edValue e % 65536 then
    tombstone y i l
    return (1, [])
  let (sig, bad, as) ← applyEdits y folded (← sigRead y.w y.x (edValue e % 65536))
  let spot ← match ← findOrCreate y sig with
    | none => pure none
    | some a => do
      match ← placeRow y a i with
      | some z => pure (some (a, z))
      | none => pure none
  match spot with
  | none =>
    tombstone y i l
    return (bad + 1, [])
  | some (a, k, p, r) =>
    let (cols, _) ← columns y.w y.x sig
    cols.forM fun c => setElem y c p r (List.replicate c.size 0)
    setValues y cols p r as
    locWrite y.w y.x i (putBits (putBits (putBits (putBits l 103 88 a) 87 66 k) 65 56 r) 55 54 2)
    return (bad, [a])

/-- The last visible row of some chunks, given last chunk first. -/
def lastVisible (y : Sync) : List (Nat × Nat) → M (Option (Nat × Nat × Nat))
  | [] => return none
  | (k, p) :: t => do
    let v ← versRead y.w p
    match (List.range 1024).reverse.find? fun r => visible v r y.n with
    | some r => return some (k, p, r)
    | none => lastVisible y t

/-- Move last rows into first free rows while they lie after them (07 R158). -/
def compactRows (y : Sync) (a : Nat) (cols : List Col) (cs : List (Nat × Nat)) : Nat → M Unit
  | 0 => return ()
  | n + 1 => do
    match ← lastVisible y cs.reverse, ← firstFree y cs with
    | some (k, p, r), some (k', q, r') =>
      if k' * 1024 + r' < k * 1024 + r then
        let i ← vreadN y.w (p + 512 + 4 * r) 4
        copyElems y cols cols p r q r'
        fillRow y a q r' i
        vwrite y.w (p + 4608 + 16 * r + 8) (leBytes 8 y.n)
        setLive y p r false
        archAdd y.w y.x a (-1) 0
        locWrite y.w y.x i (putBits (putBits (← locRead y.w y.x i) 87 66 k') 65 56 r')
        compactRows y a cols cs n
      else return ()
    | _, _ => return ()

/-- Return the chunks whose every row is free to the pool. -/
def returnChunks (y : Sync) (a : Nat) : List (Nat × Nat) → M Unit
  | [] => return ()
  | (k, p) :: t => do
    let v ← versRead y.w p
    let m ← liveRead y.w p
    if (List.range 1024).all fun r => freeRow m v r y.vmin then
      let top ← worldAtomic y.w y.x offPoolCount fun _ => none
      vwrite y.w (y.x.pool + 8 * top) (leBytes 8 p)
      vwrite y.w (clistAddr y.x a k) (leBytes 8 0)
      archAdd y.w y.x a 0 (-1)
      let _ ← worldAtomic y.w y.x offPoolCount fun v => some (v + 1)
    returnChunks y a t

/-- Compaction of one archetype. -/
def compactArch (y : Sync) (a : Nat) : M Unit := do
  let cs ← chunksOf y.w y.x a
  let (cols, _) ← columns y.w y.x (← sigRead y.w y.x a)
  compactRows y a cols cs (1024 * cs.length)
  returnChunks y a cs

/-- One record boundary of a sync point of `n` records: unit `u` of 3 n + |changed| + 1; the archetypes it changed. -/
def syncUnit (y : Sync) (es : List Edit) (changed : List Nat) (u : Nat) : M (List Nat) := do
  let n := es.length
  let e := es.getD (u % max n 1) 0
  let same := es.filter fun f => (edOp f == 2 || edOp f == 3) && edHandle f == edHandle e
  let done (r : Nat × List Nat) : M (List Nat) := do
    worldCount y.w y.x offEreject r.1
    return r.2
  if u < n then
    if edOp e = 1 then done (← syncDelete y e) else return []
  else if u < 2 * n then
    -- a handle's records act at the place of its first
    if (edOp e == 2 || edOp e == 3) && !((es.take (u - n)).any fun f => (edOp f == 2 || edOp f == 3) && edHandle f == edHandle e)
    then done (← syncMove y (edHandle e) same) else return []
  else if u < 3 * n then
    if edOp e = 4 then done (← syncCreate y e same) else return []
  else if u < 3 * n + changed.length then
    compactArch y (changed.getD (u - 3 * n) 0)
    return []
  else
    modify deliverAll
    keepField y.w y.x 40 8 fun v => putBits v 47 0 y.n
    let _ ← worldAtomic y.w y.x offEqCount fun _ => some 0
    if y.x.syncPos != 0 then keepField y.w y.x 0 8 fun _ => 0
    return []

/-- Run an access of a queue's arbiter or sync point: it waits on a page request, or fails, as `LQueue` records. -/
def runHeld {α : Type} (wait : Option (Nat × Nat)) (failed : Bool) (put : Option (Nat × Nat) → State → State) (m : M α) (s : State) :
    Engine α :=
  if wait.isSome then .wait none
  else if failed then .failed (put none s)
  else match m s with
  | .ok a s => .done a s
  | .error (.page x r _) _ =>
    let (n, s) := postPage s x r
    .wait (some (put (some (x, n)) s))
  | .error (.fail _ _) _ => .failed s

/-- Run an access for an entry or a sync point of a queue. -/
def runQueue {α : Type} (ctx q : Nat) (m : M α) (s : State) : Engine α :=
  let k := queueOf s ctx q
  runHeld k.wait k.failed (fun w s => modQueue s ctx q fun k => { k with wait := w, failed := false }) m s

/-- Change the first sync point of a queue that has not ended. -/
def modSync (ctx q i : Nat) (f : QEntry → QEntry) (s : State) : State :=
  modQueue s ctx q fun k => { k with entries := k.entries.modify i f }

/-- The unit of a sector that works for a context. -/
def ctxWho (s : State) (ctx agent : Nat) : Who := ⟨sectorUnit (ctxSector s ctx), ctx, agent⟩

/-- Stop a queue at an entry's offset: ERR, ERROFF and a QUEUE_ENTRY record (03 R48, 22 R386, 24 R423, log 11). -/
def queueError (ctx q off : Nat) (s : State) : State :=
  logCore (modQueue s ctx q fun k => { k with err := true, erroff := off, errlen := 0, wait := none, failed := false })
    (sectorUnit (ctxSector s ctx)) ctx 0x40 off 0

/-- The progress offset passes every entry that has ended and whose predecessors have all ended (03 R56). -/
def queueAdvance (ctx q : Nat) (s : State) : State :=
  modQueue s ctx q fun k =>
    let out := k.entries.takeWhile (·.ended)
    { k with prog := (out.getLast?.map (·.fin)).getD k.prog, entries := k.entries.drop out.length }

/-- The batch of a world that a sync point takes: its systems belong to no later batch (07 R153). -/
def closeBatch (ctx q world : Nat) (s : State) : State :=
  modCtx s ctx fun x => { x with launches := x.launches.map fun e =>
    if e.2.system && e.2.world == world && e.2.q == q then (e.1, { e.2 with batched := true }) else e }

/-- Note an interrupted sync point's place in SYNCPOS (07 R139, R166). -/
def noteSync (w : Who) (x : World) (pos : Nat) (s : State) : State :=
  match keepField w x 0 8 (fun _ => pos) s with
  | .ok _ s => s
  | .error _ _ => s

/-- Run the units of a sync point from `u` on. -/
def syncUnits (ctx q i : Nat) (w : Who) (n vmin : Nat) : Nat → Nat → State → State
  | 0, _, s => s
  | fuel + 1, u, s =>
    let e := (queueOf s ctx q).entries.getD i { off := 0, fin := 0, kind := 2 }
    let step : M (Option (List Nat × Nat)) := do
      match ← worldGet w e.world with
      | none => return none
      | some x =>
        let es ← batchOf w x
        let ch := if e.nocompact then [] else e.changed
        return some (← syncUnit ⟨w, x, n, vmin⟩ es ch u, 3 * es.length + ch.length)
    match runQueue ctx q step s with
    | .done (some (ch, last)) s =>
      if u = last then
        modCtx (queueAdvance ctx q (modSync ctx q i (fun e => { e with ended := true }) s)) ctx fun k =>
          { k with ckpt := { k.ckpt with count := k.ckpt.count + 1 } }
      else
        let all := ((e.changed ++ ch).eraseDups).mergeSort (fun a b => decide (a ≤ b))
        syncUnits ctx q i w n vmin fuel (u + 1) (modSync ctx q i (fun e => { e with pos := u + 2, changed := all }) s)
    | .wait o =>
      let s := o.getD s
      match quiet s (worldGet w e.world) with
      | some (some x) => noteSync w x (u + 1) s
      | _ => s
    | .done none s => queueError ctx q e.off s
    | .failed s =>
      let s := queueError ctx q e.off s
      match quiet s (worldGet w e.world) with
      | some (some x) => noteSync w x (u + 1) s
      | _ => s

/-- The first entry of a queue that has not ended, when it is a sync point: its place in the list. -/
def syncAt (s : State) (ctx q : Nat) : Option (Nat × QEntry) :=
  let es := (queueOf s ctx q).entries
  match es.findIdx? (!·.ended) with
  | none => none
  | some i =>
    let e := es.getD i { off := 0, fin := 0, kind := 0 }
    if e.kind == 2 || e.kind == 4 then some (i, e) else none

/-- May a queue's arbiter act: the context is switched in, the queue enabled and without an error? -/
def queueOpen (s : State) (ctx q : Nat) : Bool :=
  let c := ctxOf s ctx
  let k := queueOf s ctx q
  c.in_ && !c.stopped && c.saving == 0 && k.en && !k.err

/-- SYNC_POINT's step: a sync point starts once every earlier entry of its queue has ended (07 R155, R156). -/
def syncStep (resume : Bool) (ctx q : Nat) (s : State) : Option State :=
  if !queueOpen s ctx q || (queueOf s ctx q).wait.isSome then none else
  match syncAt s ctx q with
  | none => none
  | some (i, e) =>
    if (e.pos != 0) != resume then none else
    let w := ctxWho s ctx 6
    let s := deliverAll s
    if e.pos != 0 then
      match runQueue ctx q (worldGet w e.world) s with
      | .done (some x) s => some (syncUnits ctx q i w (x.version + 1) e.vmin (4 * 2 ^ 24 + 65538) (e.pos - 1) s)
      | .done none s => some (queueError ctx q e.off (modSync ctx q i (fun e => { e with ended := true }) s))
      | .wait o => o
      | .failed s => some (queueError ctx q e.off s)
    else
      let start : M (Option (World × Nat)) := do
        match ← worldGet w e.world with
        | none => return none
        | some x =>
          -- a world not owned, or a version that would reach 2^48 - 1, makes the WSYNC malformed (07 R155)
          if !x.owner || 2 ^ 48 - 2 ≤ x.version then return none
          return some (x, (← oldestView w x).getD (x.version + 1))
      match runQueue ctx q start s with
      | .done (some (x, v)) s =>
        let s := closeBatch ctx q e.world (modSync ctx q i (fun e => { e with pos := 1, vmin := v }) s)
        some (syncUnits ctx q i w (x.version + 1) v (4 * 2 ^ 24 + 65538) 0 s)
      | .done none s => some (queueError ctx q e.off (modSync ctx q i (fun e => { e with ended := true }) s))
      | .wait o => o
      | .failed s => some (queueError ctx q e.off s)

/-- SYNC_POINT (07 R156-R159). -/
def execSyncPoint (ctx q : Nat) (s : State) : Host.Outcome State Fault Refusal := .next (orSame (syncStep false ctx q) s)
/-- SYNC_POINT_RESUME (07 R166, 24 R423). -/
def execSyncPointResume (ctx q : Nat) (s : State) : Host.Outcome State Fault Refusal := .next (orSame (syncStep true ctx q) s)

end Sys2Proof.Machine
end

