-- ==== Sys2Proof/Machine/Beam.lean ====
section
/-! DEFINITION. The beam engine: BEAMQ, RAYQ and the running of queries (08 R167-R190, 15 R319-R321, 24 R419, R424). -/

namespace Sys2Proof.Machine

/-! ### Records (08 R167, R180, R187) -/

/-- The fields of a query's record that tracing uses. -/
structure Beam where
  single : Bool
  kind : Nat
  logw : Nat
  logh : Nat
  slogw : Nat
  slogh : Nat
  x0 : Nat
  y0 : Nat
  minlog : Nat
  anyHit : Bool
  cullBack : Bool
  cullFront : Bool
  depth : Nat
  tmin : Num
  tmax : Num
  origin : Vec3
  corners : Corners
  dir : Vec3
  /-- RESBASE or SLOT -/
  res : Nat
  rayid : Nat
  join : Nat
  root : Nat

/-- The corners of a record as it stands: for a cone those of R170, if it has any. -/
def recordCorners (v : Nat) : Option Corners :=
  if fld v 33 32 == 1 then coneCorners (vecAt v 224) (vecAt v 320) (n32 (v / 2 ^ 416))
  else some ⟨vecAt v 224, vecAt v 320, vecAt v 416, vecAt v 512⟩

/-- The fields of a beam record, or of a ray record as a beam of one ray. -/
def beamOf (ray : Bool) (v : Nat) : Beam :=
  let c := (recordCorners v).getD ⟨vecAt v 224, vecAt v 320, vecAt v 416, vecAt v 512⟩
  if ray then {
    single := true, kind := 0, logw := 0, logh := 0, slogw := 0, slogh := 0, x0 := 0, y0 := 0, minlog := 0,
    anyHit := bitAt v 448, cullBack := bitAt v 449, cullFront := bitAt v 450, depth := 0,
    tmin := n32 (v / 2 ^ 192), tmax := n32 (v / 2 ^ 224), origin := vecAt v 0, corners := c, dir := vecAt v 96,
    res := fld v 319 256, rayid := 0, join := fld v 383 320, root := fld v 447 384 }
  else {
    single := false, kind := fld v 33 32, logw := fld v 3 0, logh := fld v 7 4, slogw := fld v 11 8, slogh := fld v 15 12,
    x0 := fld v 23 16, y0 := fld v 31 24, minlog := fld v 38 34,
    anyHit := bitAt v 39, cullBack := bitAt v 40, cullFront := bitAt v 41, depth := fld v 47 43,
    tmin := n32 (v / 2 ^ 64), tmax := n32 (v / 2 ^ 96), origin := vecAt v 128, corners := c, dir := vecAt v 96,
    res := fld v 671 608, rayid := fld v 703 672, join := fld v 767 704, root := fld v 895 832 }

/-- Is a window well formed (08 R168, R190)? -/
def Beam.windowOk (b : Beam) : Bool :=
  b.logw ≤ 8 && b.logh ≤ 8 && b.slogw ≤ b.logw && b.slogh ≤ b.logh && b.x0 % 2 ^ b.slogw == 0 && b.y0 % 2 ^ b.slogh == 0
  && b.x0 + 2 ^ b.slogw ≤ 2 ^ b.logw && b.y0 + 2 ^ b.slogh ≤ 2 ^ b.logh

/-- Is a JOINADDR one that counts? -/
def joinOk (j : Nat) : Bool := j != 0 && j % 8 == 0 && j < 2 ^ 57

/-- Why a record is malformed, the lowest reason that applies; 0 when it is not (08 R190, 24 R419).  `split` holds the
second half of a split record. -/
def recordReason (ray : Bool) (v : Nat) (split : Option Nat) : Nat :=
  let b := beamOf ray v
  let sp := match split with | some h => fld h 6 2 | none => 0
  let entries := match split with | some h => (List.range (min sp 24)).map fun k => h / 2 ^ (256 + 32 * k) % 2 ^ 32 | none => []
  let reserved := if ray then v / 2 ^ 451 != 0
    else v / 2 ^ 896 != 0 || fld v 831 816 != 0 || fld v 63 52 != 0 || (b.kind == 1 && fld v 607 448 != 0)
      || (match split with
        | some h => fld h 63 27 != 0 || fld h 255 64 != 0 || (decide (sp ≤ 24) && h / 2 ^ (256 + 32 * sp) != 0)
        | none => false)
  let outside := b.root ≥ 2 ^ 57 || b.res ≥ 2 ^ 57 || b.join ≥ 2 ^ 57
    || (if ray then b.dir.all nIsZero
      else b.kind == 3 || b.logw > 8 || b.logh > 8 || b.slogw > b.logw || b.slogh > b.logh || b.minlog > 16
        || b.depth > b.logw + b.logh || sp > 24 || entries.any fun e => e / 2 ^ 30 == 0 || e / 2 ^ 30 == 3)
  let misaligned := b.root % 128 != 0 || b.res % 16 != 0 || b.join % 8 != 0 || (!ray && !b.windowOk)
    || entries.any fun e => e / 2 ^ 30 == 1 && e % 2 == 1
  let notFinite := !b.origin.all nFin || (if ray then !b.dir.all nFin
    else !(vecAt v 224).all nFin || !(vecAt v 320).all nFin
      || (b.kind != 1 && (!(vecAt v 416).all nFin || !(vecAt v 512).all nFin)))
  if reserved then 1
  else if outside then 2
  else if misaligned then 3
  else if notFinite then 4
  else if b.tmin == .nan || ltNum b.tmin nZero || !nLe b.tmin b.tmax then 5
  else if !ray && b.kind == 1 && bitAt v 42 then 6
  else if !ray && (recordCorners v).isNone then 7
  else 0

/-- The arena record that an address names: core and record (08 R181). -/
def arenaOf (base a : Nat) : Option (Nat × Nat) :=
  if base ≤ a && (a - base) / 262144 < 192 && (a - base) % 256 == 0 then some ((a - base) / 262144, (a - base) % 262144 / 256) else none

/-! ### BEAMQ and RAYQ -/

/-- Go on without an access that failed for good. -/
def softly {α : Type} (m : M α) : M (Option α) := fun s =>
  match m s with
  | .ok a s => .ok (some a) s
  | .error (.page x r a) s => .error (.page x r a) s
  | .error (.fail _ _) s => .ok none s

/-- Log a bad record (24 R419). -/
def logBeam (c ctx addr reason : Nat) (s : State) : State :=
  logCore s c ctx 0x42 addr (detail 15 4 0 (reason * 2 ^ 24))

/-- Change a join counter by `n` modulo 2^64; one that cannot be reached stays as it is. -/
def joinAdd (w : Who) (j n : Nat) : M Unit := do
  if joinOk j then
    let _ ← softly (vatomic w j 8 fun v => some ((v + n) % 2 ^ 64))

/-- A query enters the engine. -/
def enqueue (c : Nat) (q : Query) : M Unit := modify fun s => modCore s c fun k => { k with beams := k.beams ++ [q] }

/-- Forget that a record is in use. -/
def arenaDrop (s : State) (c ctx n : Nat) : State :=
  modCore s c fun k => { k with arena := k.arena.filter fun e => !(e.1 == ctx && e.2.1 == n) }

/-- Accept a record whose first bytes have been read (15 R320, 08 R183); its counter is left alone when it cannot be reached. -/
def acceptQuery (w : Who) (ray : Bool) (launch addr v : Nat) (counts : Bool := true) : M Unit := do
  let q : Query := { ray := ray, addr := addr, image := v, ctx := w.ctx, launch := launch, stack := [2 ^ 30] }
  if !ray && bitAt v 42 then
    match arenaOf (recField (← get) w.ctx 191 128) addr with
    | none => enqueue w.core { q with bad := 9 }
    | some (c, n) =>
      let old ← softly (vatomic w (addr + 128) 8 fun h => if h % 4 == 1 then some (h + 1) else none)
      if (old.getD 0) % 4 == 1 then
        let b ← vatomic w addr 256 fun _ => none
        let _ ← vatomic w (addr + 128) 8 fun h => some (h / 4 * 4)
        modify fun s => arenaDrop s c w.ctx n
        let v := b % 2 ^ 1024
        let h := b / 2 ^ 1024
        enqueue w.core { q with
          image := v, bad := recordReason false v (some h), started := true,
          stack := (List.range (fld h 6 2)).map fun k => h / 2 ^ (256 + 32 * k) % 2 ^ 32 }
      else modify (logBeam w.core w.ctx addr 8)
  else
    if counts then joinAdd w (beamOf ray v).join 1
    enqueue w.core { q with bad := recordReason ray v none }

/-- The checks of a record address (15 R319). -/
def beamCheck (align : Nat) (a : BitVec 6) : Check := firstBad fun s l =>
  let va := getX (iLane s l) (rA s a)
  if 2 ^ 57 ≤ va.toNat then some (0x06, va) else if va.toNat % align ≠ 0 then some (0x05, va) else none

/-- Bytes of a record as it is first read. -/
def recordBytes (ray : Bool) : Nat := if ray then 64 else 128

/-- The queries that a core's engine has accepted or will accept, and that have not finished (15 R319). -/
def queriesHeld (s : State) (c : Nat) : Nat :=
  (coreOf s c).beams.length + (coreOf s c).warps.foldl (fun n w =>
    w.2.lanes.foldl (fun n l => n + (l.2.front.filter (·.kind == .query)).length) n) 0

/-- Read the records of some threads of a word, then accept each in lane order, or say at whose access it stops. -/
def queryLanes (w : Who) (ray : Bool) (launch : Nat) (qs : List (Nat × Access)) (s : State) : Except (Nat × Stop) State := do
  let (vs, s) ← qs.foldlM (fun (acc : List Nat × State) q =>
    match vreadN w q.2.va.toNat (recordBytes ray) acc.2 with
    | .ok v s => .ok (acc.1 ++ [v], s)
    | .error e _ => .error (q.1, e)) ([], s)
  (qs.zip vs).foldlM (fun s q =>
    match acceptQuery w ray launch q.1.2.va.toNat q.2 (!q.1.2.armed) s with
    | .ok _ s => .ok s
    | .error e _ => .error (q.1.1, e)) s

/-- The entries of a word whose queries wait to be accepted, by lane. -/
def wordQueries (w : Warp) (e : Access) : List (Nat × Access) :=
  (List.range 32).filterMap fun l => ((laneOf w l).front.find? fun f => f.kind == .query && sameWord e f).map fun f => (l, f)

/-- The queries of a word wait on the access of one of its threads. -/
def holdQueries (c slot l : Nat) (x : Nat) (r : Waiter) (va : Word) (s : State) : State :=
  let (n, s) := postPage s x r
  modWarp s c slot fun w => modLane w l fun k => { k with
    front := k.front.map fun e => if e.kind == .query then { e with wait := some (x, n), x1 := va } else e }

/-- Submit one query per thread: every record is read before any counter changes.  A missing page holds the queries and the
threads' later accesses, not the threads (15 R320, R321). -/
def submit (ray : Bool) (a : BitVec 6) (ls : List Nat) (s : State) : State :=
  let i := s.issue
  let qs := ls.map fun l => (l, entryOf s { kind := .query, va := getX (iLane s l) (rA s a), red := ray })
  if 64 < queriesHeld s i.core + ls.length then stallIssue s
  else match queryLanes (iWho s 4) ray (iWarp s).launch qs s with
    | .ok s => s
    | .error (l, .page x r va) => holdQueries i.core i.slot l x r va (qs.foldl (fun s q => pushEntry s q.1 q.2) s)
    | .error (_, .fail cause va) => lateFault cause va ls s

/-- Queries that waited are accepted: a step of the lowest thread of their word (15 R321). -/
def queryStep (c slot l i : Nat) (s : State) : Option State :=
  match entryAt s c slot l i with
  | none => none
  | some e =>
    let w := warpOf s c slot
    let qs := wordQueries w e
    if e.kind != .query || (qs.map (·.1)).head? != some l || qs.any (·.2.wait.isSome) then none
    else match queryLanes { whoOf s c slot with agent := 4 } e.red w.launch qs s with
      | .ok s => some (modWarp s c slot fun w => qs.foldl (fun w q => modLane w q.1 fun k =>
          { k with front := k.front.filter fun f => !(f.kind == .query && sameWord e f) }) w)
      | .error (k, .page x r va) => some (holdQueries c slot k x r va s)
      | .error (_, .fail cause va) => some (accessFault s c slot l i cause va)

/-- LOAD_PERFORM (05 R94), the token of a VOPEN that waited (15 R317), and the acceptance of queries (R321). -/
def execLoadPerform (core slot lane idx : Nat) (s : State) : Host.Outcome State Fault Refusal :=
  .next (orSame (fun s => (loadStep core slot lane idx s).orElse fun _ =>
    (vopenStep core slot lane idx s).orElse fun _ => queryStep core slot lane idx s) s)

/-- BEAMQ (15 R319). -/
def execBeamq (c : BitVec 1) (g : BitVec 3) (a : BitVec 6) (s : State) : Host.Outcome State Fault Refusal :=
  .next (issueE (.beamq c g a) g (beamCheck 128 a) (submit false a) s)

/-- RAYQ (15 R319). -/
def execRayq (c : BitVec 1) (g : BitVec 3) (a : BitVec 6) (s : State) : Host.Outcome State Fault Refusal :=
  .next (issueE (.rayq c g a) g (beamCheck 64 a) (submit true a) s)

/-! ### The engine's accesses (15 R321) -/

/-- The query at work: the first of its engine's. -/
def headQuery (s : State) (c : Nat) : Query := (coreOf s c).beams.headD { ray := false, addr := 0, image := 0 }
/-- Change it. -/
def modQuery (c : Nat) (f : Query → Query) (s : State) : State := modCore s c fun k => { k with beams := k.beams.modify 0 f }

/-- An access of the query at work: none when it has failed for good; a page request notes its address. -/
def beamTry {α : Type} (c va : Nat) (m : M α) : M (Option α) := fun s =>
  if (headQuery s c).failed.contains va then .ok none s
  else match m s with
  | .ok a s => .ok (some a) s
  | .error (.page x r a) s => .error (.page x r a) (modQuery c (fun q => { q with stuck := va }) s)
  | .error (.fail _ _) s => .ok none s

/-- Run a part of the query at work: all of it or, at a page request, none of it. -/
def runBeam (c : Nat) (m : M Unit) (s : State) : State :=
  match m s with
  | .ok _ s => s
  | .error (.page x r _) s' =>
    let va := (headQuery s' c).stuck
    let (n, s) := postPage s x r
    modQuery c (fun q => { q with stuck := va, wait := some (x, n) }) s
  | .error (.fail _ _) s => s

/-- A slot's bits: BADREC, SCENEERR, BACK, MASKED, ANY, HIT (08 R184). -/
def slotBad : Nat := 2 ^ 101
def slotScene : Nat := 2 ^ 100
def slotBack : Nat := 2 ^ 99
def slotMasked : Nat := 2 ^ 98
def slotAny : Nat := 2 ^ 97
def slotHit : Nat := 2 ^ 96

/-- Is a hit better than the fields of a slot (08 R185)? -/
def hitBetter (h : Hit) (t prim u bv : Nat) : Bool :=
  ltNum (n32 h.t) (n32 t) || (eqNum (n32 h.t) (n32 t)
    && (h.prim < prim || (h.prim == prim && h.bv * 65536 + h.u < bv * 65536 + u)))

/-- A merge's new slot (08 R185). -/
def mergeSlot (anyHit : Bool) (h : Option Hit) (flags old : Nat) : Nat :=
  let v := match h with
    | none => old
    | some h =>
      if !bitAt old 96 || (!anyHit && hitBetter h (fld old 31 0) (fld old 63 32) (fld old 79 64) (fld old 95 80)) then
        old / 2 ^ 100 * 2 ^ 100 + (if h.back then slotBack else 0) + (if bitAt old 98 then slotMasked else 0)
          + (if anyHit || bitAt old 97 then slotAny else 0) + slotHit + h.bv * 2 ^ 80 + h.u * 2 ^ 64 + h.prim * 2 ^ 32 + h.t
      else old
  v ||| flags

/-- An atomic on a ray's slot; one refused by translation is dropped and logged (15 R321, 24 R419). -/
def slotAtomic (w : Who) (b : Beam) (rid : Nat) (f : Nat → Nat) : M Unit := do
  let va := b.res + 16 * rid
  match ← beamTry w.core va (vatomic w va 16 fun v => some (f v)) with
  | some _ => return
  | none => modify fun s => logCore s w.core w.ctx 0x4A va (detail 15 4 2 (rid % 2 ^ 32))

/-- The rays of a window in ascending ray id: number in the window, column, row. -/
def Beam.rays (b : Beam) : List (Nat × Nat × Nat) :=
  (List.range (2 ^ (b.slogw + b.slogh))).map fun n => (n, b.x0 + n % 2 ^ b.slogw, b.y0 + n / 2 ^ b.slogw)
/-- A ray's id. -/
def Beam.id (b : Beam) (i j : Nat) : Nat := b.rayid + j * 2 ^ b.logw + i
/-- Is a ray masked? -/
def Beam.masked (b : Beam) (i j : Nat) : Bool := (b.kind == 1 || b.kind == 2) && rayMasked b.logw b.logh i j
/-- The rays that are traced. -/
def Beam.traced (b : Beam) : List (Nat × Nat × Nat) := b.rays.filter fun r => !b.masked r.2.1 r.2.2
/-- A ray's direction. -/
def Beam.dirOf (b : Beam) (i j : Nat) : Vec3 := if b.single then b.dir else rayDir b.corners b.logw b.logh i j

/-- Initialise the slots of a beam with RESUME 0 (08 R184). -/
def initSlots (w : Who) (b : Beam) : M Unit := do
  for (_, i, j) in b.rays do
    slotAtomic w b (b.id i j) fun _ => 0xFFFFFFFF7F800000 + (if b.masked i j then slotMasked else 0)

/-- Merge every traced ray that has a hit or an error flag (08 R186). -/
def mergeHits (w : Who) (b : Beam) (q : Query) : M Unit := do
  for (n, i, j) in b.traced do
    let h := (q.best.find? (·.1 == n)).map (·.2)
    if h.isSome || q.err then slotAtomic w b (b.id i j) (mergeSlot b.anyHit h (if q.err then slotScene else 0))

/-- The query at work leaves the engine. -/
def dropQuery (c : Nat) : M Unit := modify fun s => modCore s c fun k => { k with beams := k.beams.drop 1 }

/-- A malformed record: BADREC where the slots are known, the counter, the log (08 R190). -/
def recordBad (w : Who) (b : Beam) (q : Query) : M Unit := do
  if b.res % 16 == 0 && b.res < 2 ^ 57 && b.windowOk then
    for (_, i, j) in b.rays do slotAtomic w b (b.id i j) (mergeSlot false none slotBad)
  if joinOk b.join then
    let _ ← beamTry w.core b.join (vatomic w b.join 8 fun v => some ((v + 2 ^ 64 - 1) % 2 ^ 64))
  modify (logBeam w.core w.ctx q.addr q.bad)
  dropQuery w.core

/-- Finish (08 R186). -/
def finish (w : Who) (b : Beam) (q : Query) : M Unit := do
  mergeHits w b q
  if joinOk b.join then
    let _ ← beamTry w.core b.join (vatomic w b.join 8 fun v => some ((v + 2 ^ 64 - 1) % 2 ^ 64))
  dropQuery w.core

/-! ### Splits (08 R179-R182, R189) -/

/-- The lowest records of the core's arena whose STATE is 0, at most `n` of them. -/
def freeRecords (w : Who) (base : Nat) : Nat → Nat → Nat → M (List Nat)
  | 0, _, _ => return []
  | _, _, 0 => return []
  | fuel + 1, i, n + 1 => do
    let a := base + 256 * i
    match ← beamTry w.core (a + 128) (vatomic w (a + 128) 8 fun _ => none) with
    | some h => if h % 4 == 0 then return i :: (← freeRecords w base fuel (i + 1) n) else freeRecords w base fuel (i + 1) (n + 1)
    | none => freeRecords w base fuel (i + 1) (n + 1)

/-- A record's image as a child carries it: its window, DEPTH, RESUME 1 and, for a cone, KIND 2 with its corners. -/
def childImage (b : Beam) (v x y sw sh depth : Nat) : Nat :=
  let v := putBits (putBits (putBits (putBits v 31 24 y) 23 16 x) 15 12 sh) 11 8 sw
  let v := putBits (putBits v 47 43 depth) 42 42 1
  if b.kind == 1 then
    let cs := (b.corners.list.flatMap fun p => [p.x, p.y, p.z]).map fun k => (f32.round 0 false 0 k).1
    putBits (putBits v 33 32 2) 607 224 ((cs.zipIdx.map fun e => e.1 * 2 ^ (32 * e.2)).foldl (· + ·) 0)
  else v

/-- A split record (08 R180), as written with STATE busy. -/
def splitRecord (core : Nat) (image quad index : Nat) (stack : List Nat) : Nat :=
  image + (1 + 4 * stack.length + quad * 2 ^ 7 + index * 2 ^ 9 + core * 2 ^ 19) * 2 ^ 1024
    + ((stack.zipIdx.map fun e => e.1 * 2 ^ (1280 + 32 * e.2)).foldl (· + ·) 0)

/-- The children's windows: columns, rows, and the logs of their size. -/
def childWindows (b : Beam) : List (Nat × Nat) × Nat × Nat :=
  let w2 := 2 ^ b.slogw / 2
  let h2 := 2 ^ b.slogh / 2
  if 1 ≤ b.slogw && 1 ≤ b.slogh then
    ([(b.x0, b.y0), (b.x0 + w2, b.y0), (b.x0, b.y0 + h2), (b.x0 + w2, b.y0 + h2)], b.slogw - 1, b.slogh - 1)
  else if 1 ≤ b.slogw then ([(b.x0, b.y0), (b.x0 + w2, b.y0)], b.slogw - 1, 0)
  else ([(b.x0, b.y0), (b.x0, b.y0 + h2)], 0, b.slogh - 1)

/-- Give a query over to frames, one per image: room and records first, then the merges, the counter, the records and the
frames.  False, with nothing done, when the deck or the arena has no room. -/
def handOver (w : Who) (b : Beam) (q : Query) (stack : List Nat) (images : List Nat) : M Bool := do
  let s ← get
  let c := images.length
  let base := recField s w.ctx 191 128 + 262144 * w.core
  if !deckRoom s w.ctx w.core c then return false
  let recs ← freeRecords w base 1024 0 c
  if recs.length < c then return false
  if 256 < deckCount (coreOf s w.core) + c then
    if (← beamTry w.core base (spill w)).isNone then return false
  mergeHits w b q
  if joinOk b.join && 1 < c then
    let _ ← beamTry w.core b.join (vatomic w b.join 8 fun v => some ((v + (c - 1)) % 2 ^ 64))
  let kids := (images.zip recs).zipIdx
  for ((v, n), quad) in kids do
    let a := base + 256 * n
    let _ ← beamTry w.core a (vatomic w a 256 fun _ => some (splitRecord w.core v quad n stack))
  let v := q.image
  let frame (a quad : Nat) : Frame :=
    frameOf (fld v 815 768 + fld v 51 50 * 2 ^ 58 + fld v 49 48 * 2 ^ 60 + 2 ^ 63) 0 [a, quad + 4 * (c - 1)] q.launch
  modify (pushFrames w.core (kids.reverse.map fun e => frame (base + 256 * e.1.2) e.2))
  modify fun s => modCore s w.core fun k => { k with arena := k.arena ++ recs.map fun n => (w.ctx, n, q.launch) }
  dropQuery w.core
  return true

/-- Split a splittable beam (08 R179). -/
def split (w : Who) (b : Beam) (q : Query) (stack : List Nat) : M Bool := do
  if b.single || b.slogw + b.slogh < 1 || b.slogw + b.slogh ≤ b.minlog || b.logw + b.logh ≤ b.depth || 24 < stack.length
  then return false
  else
    let (ws, sw, sh) := childWindows b
    handOver w b q stack (ws.map fun p => childImage b q.image p.1 p.2 sw sh (b.depth + 1))

/-- Stop a beam at a stack pop while its core drains (08 R189). -/
def drainBeam (w : Who) (b : Beam) (q : Query) : M Bool := do
  if b.single || 24 < q.stack.length then return false
  else handOver w b q q.stack [childImage b q.image b.x0 b.y0 b.slogw b.slogh b.depth]

/-! ### Traversal (08 R171-R178) -/

/-- What a beam's classifications see now. -/
def viewOf (b : Beam) (q : Query) : View :=
  let ts := b.traced.map fun r => match q.best.find? (·.1 == r.1) with
    | some h => n32 h.2.t
    | none => b.tmax
  let x1 := b.x0 + 2 ^ b.slogw - 1
  let y1 := b.y0 + 2 ^ b.slogh - 1
  { single := b.single, origin := b.origin,
    rays := if b.single then [b.dir] else [b.dirOf b.x0 b.y0, b.dirOf x1 b.y0, b.dirOf b.x0 y1, b.dirOf x1 y1],
    delta := if b.single then nZero else delta b.corners,
    tmin := b.tmin, tendlo := ts.foldl nMin (ts.headD b.tmax), tendhi := ts.foldl nMax (ts.headD b.tmax) }

/-- A child pointer as a stack entry (08 R172): nothing, malformed, or an entry. -/
inductive Ptr where
  | empty | bad
  | entry (e : Nat)

/-- Read a child pointer. -/
def ptrOf (root p : Nat) : Ptr :=
  let kind := fld p 63 62
  let n := fld p 61 60
  let a := fld p 56 0
  if fld p 59 57 != 0 then .bad
  else if kind == 0 then .empty
  else
    let size := if kind == 1 then 128 else 64 * (n + 1)
    if kind == 3 || (kind == 1 && (n != 0 || a % 128 != 0)) || a % 64 != 0 || a < root || root + 2 ^ 34 < a + size
    then .bad
    else .entry (kind * 2 ^ 30 + n * 2 ^ 28 + (a - root) / 64)

/-- Test one triangle against the traced rays (08 R176-R178, R185). -/
def triangle (b : Beam) (tri : Nat) (q : Query) : Query :=
  if tri / 2 ^ 322 != 0 then { q with err := true }
  else
    let v0 := vecAt tri 0
    let v1 := vecAt tri 96
    let v2 := vecAt tri 192
    let v := viewOf b q
    let noCull := bitAt tri 320
    let lo := vec3 fun k => nMin (v0.at k) (nMin (v1.at k) (v2.at k))
    let hi := vec3 fun k => nMax (v0.at k) (nMax (v1.at k) (v2.at k))
    if bitAt tri 321 || (classify v lo hi).1 == .none
      || (!noCull && ((b.cullFront && cullNone v v0 v1 v2 true) || (b.cullBack && cullNone v v0 v1 v2 false))) then q
    else b.traced.foldl (fun q r =>
      let old := q.best.find? (·.1 == r.1)
      if b.anyHit && old.isSome then q
      else match rayTri b.origin (b.dirOf r.2.1 r.2.2) v0 v1 v2 b.tmin b.tmax with
        | none => q
        | some (t, u, bv, back) =>
          if !noCull && (if back then b.cullBack else b.cullFront) then q
          else
            let h : Hit := ⟨t, fld tri 319 288, u, bv, back⟩
            let better := match old with
              | none => true
              | some o => hitBetter h o.2.t o.2.prim o.2.u o.2.bv
            if better then { q with best := (r.1, h) :: q.best.filter (·.1 != r.1) } else q) q

/-- Insert a child so that pushes run in descending tn.lo, the higher child index first on a tie. -/
def insertKid (x : Num × Nat × Nat) : List (Num × Nat × Nat) → List (Num × Nat × Nat)
  | [] => [x]
  | y :: t => if ltNum x.1 y.1 || (eqNum x.1 y.1 && x.2.1 < y.2.1) then y :: insertKid x t else x :: y :: t

/-- One stack pop of the query at work. -/
def popStep (w : Who) (b : Beam) (q : Query) : M Unit := do
  match q.stack.getLast? with
  | none => finish w b q
  | some e =>
    let rest := q.stack.dropLast
    let put (q : Query) : M Unit := modify (modQuery w.core fun _ => q)
    let va := b.root + 64 * (e % 2 ^ 28)
    if e / 2 ^ 30 == 2 then
      let n := fld e 29 28 + 1
      match ← beamTry w.core va (vreadN w va (64 * n)) with
      | none => put { q with stack := rest, err := true }
      | some d => put ((List.range n).foldl (fun q k => triangle b (d / 2 ^ (512 * k) % 2 ^ 512) q) { q with stack := rest })
    else
      match ← beamTry w.core va (vreadN w va 128) with
      | none => put { q with stack := rest, err := true }
      | some d =>
        let v := viewOf b q
        let ptrs := (List.range 4).map fun k => (k, ptrOf b.root (d / 2 ^ (768 + 64 * k) % 2 ^ 64))
        let q := if ptrs.any (fun p => match p.2 with | .bad => true | _ => false) then { q with err := true } else q
        let kids := ptrs.filterMap fun p => match p.2 with
          | .entry e =>
            let (cls, tn) := classify v (vecAt d (192 * p.1)) (vecAt d (192 * p.1 + 96))
            if cls == .none then none else some (cls, tn, p.1, e)
          | _ => none
        let q' := { q with stack := rest ++ [e] }
        let done ← if kids.any (·.1 == .mixed) then split w b q' q'.stack else pure false
        if !done then
          let order := kids.foldl (fun l k => insertKid (k.2.1, k.2.2.1, k.2.2.2) l) []
          put (order.foldl (fun (q : Query) k =>
            if 64 ≤ q.stack.length then { q with err := true } else { q with stack := q.stack ++ [k.2.2] })
            { q with stack := rest })

/-- The queries that may act now: of the 16 at work, those that wait on no page request; they start in the order in which they
reached the engine (08 R188). -/
def readyQueries (k : Core) : List Nat :=
  let q (i : Nat) : Query := k.beams.getD i { ray := false, addr := 0, image := 0 }
  (List.range (min 16 k.beams.length)).filter fun i =>
    (q i).wait.isNone && ((q i).started || (List.range i).all fun j => (q j).started || (q j).wait.isSome)

/-- Take up the query at a place: queries that have started stand before those that have not. -/
def takeUp (c i : Nat) (s : State) : State :=
  modCore s c fun k => { k with beams := (k.beams[i]?).toList ++ k.beams.eraseIdx i }

/-- What the query at work does next: a bad record leaves, a new one sets its slots, another pops its stack or, once as its core
begins to drain, is handed over (08 R178, R189). -/
def workQuery (w : Who) (b : Beam) (q : Query) (drains : Bool) : M Unit := do
  if q.bad != 0 then recordBad w b q
  else if !q.started then
    initSlots w b
    modify (modQuery w.core fun q => { q with started := true })
  else if drains && !q.toEnd && !q.stack.isEmpty then
    if !(← drainBeam w b q) then
      let q := { q with toEnd := true }
      modify (modQuery w.core fun _ => q)
      popStep w b q
  else popStep w b q

/-- BEAM_QUERY_START's step: one of the queries at work, a free choice, starts or goes on by one stack pop (08 R178, R188,
log 4). -/
def beamStep (c : Nat) (s : State) : Option State :=
  let ready := readyQueries (coreOf s c)
  if ready.isEmpty then none else
  let (i, s) := if ready.length = 1 then (0, s) else pick s ready.length
  let s := takeUp c (ready.getD i 0) s
  let q := headQuery s c
  some (runBeam c (workQuery ⟨c, q.ctx, 4⟩ (beamOf q.ray q.image) q (coreOf s c).draining) s)

/-- BEAM_QUERY_START (08 R178, R188). -/
def execBeamQueryStart (core : Nat) (s : State) : Host.Outcome State Fault Refusal := .next (orSame (beamStep core) s)

end Sys2Proof.Machine
end

