-- ==== Sys2Proof/Machine/Control.lean ====
section
/-! DEFINITION. Branches, calls, returns, EXIT, NOP, YIELD, masks, votes and the two prefixes: majors 0x0C to 0x0F, 0x3E
and 0x3F (11 R244-R251, 10 R219-R221, 02 R30, R31). -/

namespace Sys2Proof.Machine

/-- The target of a J-format word: its own address plus the offset (10 R218, 11 R244). -/
def jumpTarget (o : BitVec 22) (s : State) : Int := iAddr s + jumpOff s o

/-- A J-format target that breaks R218. -/
def jumpCheck (o : BitVec 22) : Check := fun _ s =>
  let t := jumpTarget o s
  if t < 0 || badTarget (iWho s) t.toNat s then some (0x04, .ofInt 64 t) else none

/-- A register target that breaks R218 or R246 in some lane. -/
def indirectCheck (a : BitVec 6) : Check := firstBad fun s l =>
  let t := getX (iLane s l) (rA s a)
  if badTarget (iWho s) t.toNat s then some (0x04, t) else none

/-- Where a J-format word's target lies, when it lies in the address space. -/
def jumpTo (o : BitVec 22) (s : State) (_ : Nat) : Option Nat :=
  if jumpTarget o s < 0 then none else some (jumpTarget o s).toNat

/-- Where a lane's register target lies. -/
def indirectTo (a : BitVec 6) (s : State) (l : Nat) : Option Nat := some (getX (iLane s l) (rA s a)).toNat

/-- Threads transfer: their PC is settled by this word (10 R217, R218). -/
def jumpLanes (vs : List (Nat × Nat)) (s : State) : State :=
  iMoved (vs.foldl (fun s e => iModLane s e.1 fun x => { x with pc := e.2 }) s) (vs.map (·.1))

/-- BRA (11 R244). -/
def execBra (c : BitVec 1) (g : BitVec 3) (o : BitVec 22) (s : State) : Host.Outcome State Fault Refusal :=
  .next (issueTarget (.bra c g o) g (jumpTo o) (jumpCheck o) noCheck (fun ls s =>
    jumpLanes (ls.map fun l => (l, (jumpTarget o s).toNat)) s) s)

/-- CALL: x31 takes the address past the group (11 R244). -/
def execCall (c : BitVec 1) (g : BitVec 3) (o : BitVec 22) (s : State) : Host.Outcome State Fault Refusal :=
  .next (issueTarget (.call c g o) g (jumpTo o) (jumpCheck o) noCheck (fun ls s =>
    jumpLanes (ls.map fun l => (l, (jumpTarget o s).toNat))
      (putX s 31 1 (ls.map fun l => (l, .ofNat 64 (iNext s))))) s)

/-- Each thread goes to the address in its register. -/
def jumpIndirect (a : BitVec 6) (ls : List Nat) (s : State) : State :=
  jumpLanes (ls.map fun l => (l, (getX (iLane s l) (rA s a)).toNat)) s

/-- BRX (11 R245, R246). -/
def execBrx (c : BitVec 1) (g : BitVec 3) (a : BitVec 6) (s : State) : Host.Outcome State Fault Refusal :=
  .next (issueTarget (.brx c g a) g (indirectTo a) (indirectCheck a) noCheck (jumpIndirect a) s)

/-- RET (11 R245, R246). -/
def execRet (c : BitVec 1) (g : BitVec 3) (a : BitVec 6) (s : State) : Host.Outcome State Fault Refusal :=
  .next (issueTarget (.ret c g a) g (indirectTo a) (indirectCheck a) noCheck (jumpIndirect a) s)

/-- The issuing threads exit. -/
def exitIssue (ls : List Nat) (s : State) : State := iMoved (exitLanes s.issue.core s.issue.slot ls s) ls

/-- EXIT (11 R247, 02 R24, R31). -/
def execExit (c : BitVec 1) (g : BitVec 3) (s : State) : Host.Outcome State Fault Refusal :=
  .next (issueWord (.exit c g) g noCheck noCheck exitIssue s)

/-- NOP: the PC alone advances, with the group (11 R247). -/
def execNop (c : BitVec 1) (g : BitVec 3) (s : State) : Host.Outcome State Fault Refusal :=
  .next (issueWord (.nop c g) g noCheck noCheck (fun _ s => s) s)

/-- YIELD: the scheduler leaves the warp after this issue (11 R247, 02 R33). -/
def execYield (c : BitVec 1) (g : BitVec 3) (s : State) : Host.Outcome State Fault Refusal :=
  .next (issueWord (.yield c g) g noCheck noCheck (fun _ s => { s with issue := { s.issue with yielded := true } }) s)

/-! ### Masks (02 R30, R31, 11 R248, R249) -/

/-- M(w,k) of the issuing warp. -/
def getM (s : State) (k : Nat) : W32 := mget 0 (iWarp s).masks k
/-- A write of M(w,k). -/
def setM (s : State) (k : Nat) (v : W32) : State := iMod s fun w => { w with masks := mput 0 w.masks k v }
/-- Evaluate the release of the issuing warp's mask. -/
def iRelease (k : Nat) (s : State) : State := maskRelease s.issue.core s.issue.slot k s

/-- MJOIN (02 R30). -/
def execMjoin (c : BitVec 1) (g : BitVec 3) (a : BitVec 6) (s : State) : Host.Outcome State Fault Refusal :=
  .next (issueWord (.mjoin c g a) g noCheck noCheck (fun ls s => setM s a.toNat (getM s a.toNat ||| maskOf ls)) s)

/-- MLEAVE (02 R30, R31). -/
def execMleave (c : BitVec 1) (g : BitVec 3) (a : BitVec 6) (s : State) : Host.Outcome State Fault Refusal :=
  .next (issueWord (.mleave c g a) g noCheck noCheck (fun ls s =>
    iRelease a.toNat (setM s a.toNat (getM s a.toNat &&& ~~~maskOf ls))) s)

/-- MWAIT by a thread that is no member (11 R248). -/
def memberCheck (a : BitVec 6) : Check := firstBad fun s l =>
  if (getM s a.toNat).getLsbD l then none else some (0x0B, 0)

/-- MWAIT (02 R30, R36). -/
def execMwait (c : BitVec 1) (g : BitVec 3) (a : BitVec 6) (s : State) : Host.Outcome State Fault Refusal :=
  .next (issueWord (.mwait c g a) g noCheck (memberCheck a) (fun ls s =>
    iRelease a.toNat (parkLanes 5 0 false (ls.map fun l => (l, .ofNat 64 a.toNat)) s)) s)

/-- The value MSET writes: the lowest acting lane's register, live lanes only (11 R249). -/
def msetValue (a : BitVec 6) (ls : List Nat) (s : State) : W32 :=
  (getX (iLane s (ls.headD 0)) (rA s a)).truncate 32 &&& maskOf (liveLanes (iWarp s))

/-- MSET that would drop a waiting lane (11 R249). -/
def msetCheck (d a : BitVec 6) : Check := fun ls s =>
  let v := msetValue a ls s
  if (List.range 32).any fun i =>
    let x := laneOf (iWarp s) i
    x.st == .parked && x.park.kind == 5 && x.park.op == .ofNat 64 d.toNat && !v.getLsbD i
  then some (0x0B, 0) else none

/-- MSET (11 R249). -/
def execMset (c : BitVec 1) (g : BitVec 3) (d a : BitVec 6) (s : State) : Host.Outcome State Fault Refusal :=
  .next (issueWord (.mset c g d a) g noCheck (msetCheck d a) (fun ls s =>
    iRelease d.toNat (setM s d.toNat (msetValue a ls s))) s)

/-- MGET (11 R249). -/
def execMget (c : BitVec 1) (g : BitVec 3) (d a : BitVec 6) (s : State) : Host.Outcome State Fault Refusal :=
  .next (issueX (.mget c g d a) g (rD s d) 4 (fun s _ => (mget 0 (iPre s).masks a.toNat).zeroExtend 64) s)

/-! ### Votes (11 R250) -/

/-- The voters whose predicate holds. -/
def ballot (a : BitVec 3) (ls : List Nat) (s : State) : W32 := maskOf (ls.filter fun l => getP (iLane s l) a.toNat)

/-- VOTE.ballot. -/
def execVoteBallot (c : BitVec 1) (g : BitVec 3) (d : BitVec 6) (a : BitVec 3) (s : State) : Host.Outcome State Fault Refusal :=
  .next (issueWord (.voteBallot c g d a) g noCheck noCheck (fun ls s =>
    putX s (rD s d) 8 (ls.map fun l => (l, (ballot a ls s).zeroExtend 64))) s)

/-- VOTE.all. -/
def execVoteAll (c : BitVec 1) (g d a : BitVec 3) (s : State) : Host.Outcome State Fault Refusal :=
  .next (issueWord (.voteAll c g d a) g noCheck noCheck (fun ls s =>
    putP s d.toNat 8 (ls.map fun l => (l, ballot a ls s == maskOf ls))) s)

/-- VOTE.any. -/
def execVoteAny (c : BitVec 1) (g d a : BitVec 3) (s : State) : Host.Outcome State Fault Refusal :=
  .next (issueWord (.voteAny c g d a) g noCheck noCheck (fun ls s =>
    putP s d.toNat 8 (ls.map fun l => (l, ballot a ls s != 0))) s)

/-- VOTE.uni. -/
def execVoteUni (c : BitVec 1) (g d a : BitVec 3) (s : State) : Host.Outcome State Fault Refusal :=
  .next (issueWord (.voteUni c g d a) g noCheck noCheck (fun ls s =>
    putP s d.toNat 8 (ls.map fun l => (l, ballot a ls s == maskOf ls || ballot a ls s == 0))) s)

/-! ### Prefixes (10 R219-R221); their placement is checked with their group's words -/

/-- EXT: IMM25 stands above the next word's immediate, in one issue with it. -/
def execExtWord (i : BitVec 25) (s : State) : Host.Outcome State Fault Refusal :=
  .next { s with issue := { s.issue with ext := some i, widx := s.issue.widx + 1 } }

/-- The repeat that a bundle issues next: 0, or N less its threads' REPLEFT (10 R221). -/
def repeatIndex (n : BitVec 6) (s : State) : Nat :=
  let left := (iLane s ((lanesOf s.issue.lanes).headD 0)).rep
  if left = 0 then 0 else n.toNat + 1 - left

/-- REP: this repeat's steps are added to the next word's register fields; one repeat issues per slot. -/
def execRepWord (d a b : BitVec 2) (n : BitVec 6) (s : State) : Host.Outcome State Fault Refusal :=
  let i := repeatIndex n s
  .next { s with issue := { s.issue with
    stepD := i * d.toNat, stepA := i * a.toNat, stepB := i * b.toNat, widx := s.issue.widx + 1 } }

end Sys2Proof.Machine
end

