-- ==== Sys2Proof/Machine/Matrix.lean ====
section
/-! DEFINITION. The matrix engine: majors 0x31 to 0x35 and the starts and completions of its commands (09 R191-R198,
14 R297-R305, 06 R127-R134, 25 R434, R435). -/

namespace Sys2Proof.Machine

/-! ### The engine's commands -/

/-- Change the matrix engine of a core. -/
def modMatrix (s : State) (c : Nat) (f : Matrix → Matrix) : State := modCore s c fun k => { k with matrix := f k.matrix }
/-- The commands of a core. -/
def cmdsOf (s : State) (c : Nat) : List MCmd := (coreOf s c).matrix.cmds
/-- Change a command. -/
def modCmd (s : State) (c i : Nat) (f : MCmd → MCmd) : State :=
  modMatrix s c fun m => { m with cmds := m.cmds.modify i f }
/-- A tile. -/
def tileOf (s : State) (c k : Nat) : Tile := mget {} (coreOf s c).matrix.tiles k
/-- Change a tile. -/
def modTile (s : State) (c k : Nat) (f : Tile → Tile) : State :=
  modMatrix s c fun m => { m with tiles := mput {} m.tiles k (f (mget {} m.tiles k)) }
/-- A weight plane. -/
def planeOf (s : State) (c k : Nat) : Plane := mget {} (coreOf s c).matrix.planes k

/-- The tile that a command writes: MSTREAM and MDRAIN. -/
def MCmd.tile (x : MCmd) : Option Nat := if x.kind == 3 || x.kind == 4 then some (fld x.cmd.toNat 9 8) else none
/-- The row count R of a load, M of a stream. -/
def MCmd.count_ (x : MCmd) : Nat := if x.kind == 3 then fld x.cmd.toNat 24 17 else fld x.cmd.toNat 15 8
/-- The epilogue set of an MDRAIN or EPISET. -/
def MCmd.set (x : MCmd) : Nat := if x.kind == 5 then x.x2.toNat % 4 else fld x.cmd.toNat 11 10
/-- Its TID. -/
def MCmd.tid (x : MCmd) : Nat := x.cmd.toNat % 256
/-- First row (or o0) and first element (or o1). -/
def MCmd.row (x : MCmd) : Nat := x.x1.toNat % 2 ^ 32
def MCmd.elem (x : MCmd) : Nat := x.x1.toNat / 2 ^ 32

/-- May another unstarted command be accepted (14 R293)?  A held one counts as unstarted. -/
def matrixRoom (s : State) (c : Nat) : Bool := decide (((cmdsOf s c).filter (·.phase != 1)).length < 8)

/-- A command reaches the engine: MSTREAM and MDRAIN count their tile (14 R295). -/
def acceptCmd (c : Nat) (x : MCmd) (s : State) : State :=
  let s := modMatrix s c fun m => { m with cmds := m.cmds ++ [x] }
  match x.tile with
  | some k => modTile s c k fun t => { t with count := t.count + 1 }
  | none => s

/-- A command leaves the engine: its tile count falls, its leave is given back. -/
def removeCmd (c i : Nat) (s : State) : State :=
  match (cmdsOf s c)[i]? with
  | none => s
  | some x =>
    let s := modMatrix s c fun m => { m with cmds := m.cmds.eraseIdx i }
    let s := match x.tile with
      | some k => modTile s c k fun t => { t with count := t.count - 1 }
      | none => s
    let s := if x.leave = 1 then dropRequest c 8 s else s
    if x.leave = 2 then dropLeave c 8 x.src.ctx x.watts s else s

/-- The address of a command's completion object. -/
def MCmd.obj (x : MCmd) : Option Nat := (cmdObj x.cmd).map (x.src.base + ·)

/-- Discard a command: ERROR in its object, no pulse (14 R294, 24 R427, R432). -/
def discardCmd (c i : Nat) (s : State) : State :=
  match (cmdsOf s c)[i]? with
  | none => s
  | some x => removeCmd c i (match x.obj with
    | some a => objFlag s c a (2 ^ 10)
    | none => s)

/-! ### When a command may start (09 R195, 14 R303) -/

/-- Is the load wide: WLOADSP, or a TID of a wide format (09 R191)? -/
def wideLoad (x : MCmd) (t : Tensor) : Bool := x.kind == 1 || (x.kind == 0 && perCell (pairOf t.format) == 8 && pairOf t.format != 5)

/-- The order conditions against an earlier running command. -/
def orderOk_ (x : MCmd) (wide : Bool) (e : MCmd) : Bool :=
  let load := e.kind == 0 || e.kind == 1
  match x.kind with
  | 0 => if wide then !load && e.kind != 3 else !load && e.kind != 2
  | 1 => !load && e.kind != 3
  | 2 => !load && e.kind != 3
  | 3 => e.kind != 2 && !(load && e.wide) && !(e.kind == 4 && e.tile == x.tile)
  | 4 => e.tile != x.tile && !(e.kind == 5 && e.set == x.set)
  | _ => !(e.kind == 4 && e.set == x.set)

/-- The TID entry of a command, as unit `u` of the core reads it; an entry that cannot be read is unusable. -/
def cmdTensor (c : Nat) (x : MCmd) (s : State) (u : Nat := 8) : Engine Tensor :=
  if x.kind == 2 || x.kind == 5 then .done (tensorOf 0) s
  else match runEngine c u (tidRead ⟨c, x.src.ctx, 3⟩ x.tid false) s with
    | .done v s => .done (tensorOf v) s
    | .wait o => .wait o
    | .failed s => .done (tensorOf 0) s

/-- The charge of a heavy command, 0 for any other (01 R20, 09 R210). -/
def cmdWatts (s : State) (c : Nat) (x : MCmd) (t : Tensor) : Nat :=
  if x.kind ≤ 1 then (if x.count_ = 128 then (if wideLoad x t then 6 else 4) else 0)
  else if x.kind = 3 then
    let m := (coreOf s c).matrix
    if (mget {} m.planes m.active).rows = 128 then (if m.wide then 15 else 12) else 0
  else 0

/-- The command that is next to start, if its order conditions hold: every earlier one runs. -/
def nextCmd (s : State) (c i : Nat) (t : Tensor) : Bool :=
  match (cmdsOf s c)[i]? with
  | none => false
  | some x => x.phase == 0 && !engineStops (coreOf s c) && ((cmdsOf s c).take i).all fun e => e.phase == 1 && orderOk_ x (wideLoad x t) e

/-- Take a command's event, if it waits on one. -/
def cmdEvent (c i : Nat) (x : MCmd) (s : State) : Option State :=
  if bitAt x.cmd.toNat 63 && !x.evTaken then
    (takeEvent c (fld x.cmd.toNat 62 58) s).map fun s => modCmd s c i fun y => { y with evTaken := true }
  else some s

/-! ### What the commands read -/

/-- Does a range that a copy registered overlap a span of the window (04 R74)? -/
def spanHeld (s : State) (c base : Nat) (x : Span) : Bool := x.2 != 0 && rangeHeld s c (base + x.1) x.2

/-- Read a span of a command's window as an engine does: a number, 0 for an empty span. -/
def spanRead (c : Nat) (o : Origin) (x : Span) (s : State) : Nat × State := engReadN s c o.ctx 3 (o.base + x.1) x.2

/-- What one tensor row gives a load or a stream: elements, scales, band scale. -/
structure RowData where
  elems : Nat
  scales : Nat
  /-- number of the first scale's block -/
  first : Nat
  band : Nat
  deriving DecidableEq, Repr

/-- The spans of a row of `n` elements from `k` on. -/
def rowSpans (t : Tensor) (stored : Bool) (r k n : Nat) : List Span :=
  [if stored then t.stored r (k / 2) (n / 2) else t.elems r k n, t.scales r k n, t.bandOf r]

/-- Elements of a row inside the extents, in bits, so that a last nibble is not read as two. -/
def rowBits (t : Tensor) (stored : Bool) (r k n : Nat) : Nat :=
  if t.rows ≤ r then 0 else if stored then 8 * (t.stored r (k / 2) (n / 2)).2
  else elemBits t.format * min n (t.d0 - k)

/-- Read a row. -/
def readRow (c : Nat) (o : Origin) (t : Tensor) (stored : Bool) (r k n : Nat) (s : State) : RowData × State :=
  let sp := rowSpans t stored r k n
  let (e, s) := spanRead c o (sp.getD 0 (0, 0)) s
  let (x, s) := spanRead c o (sp.getD 1 (0, 0)) s
  let (b, s) := spanRead c o (sp.getD 2 (0, 0)) s
  ({ elems := e % 2 ^ rowBits t stored r k n, scales := x, first := k / (if t.format == 6 then 8 else 32),
     band := if (sp.getD 2 (0, 0)).2 = 0 then 0x3F80 else b }, s)

/-- Read some rows in turn. -/
def readRows (c : Nat) (o : Origin) (t : Tensor) (stored : Bool) (k n : Nat) : List Nat → State → List RowData × State
  | [], s => ([], s)
  | r :: rs, s =>
    let (x, s) := readRow c o t stored r k n s
    let (xs, s) := readRows c o t stored k n rs s
    (x :: xs, s)

/-- The scale byte of the block of 8 elements from element `i`, 0 outside the extents. -/
def scaleOf (t : Tensor) (d : RowData) (i : Nat) : Nat :=
  if t.d0 ≤ i then 0 else elemAt d.scales 8 (i / (if t.format == 6 then 8 else 32) - d.first)

/-- Element-plane bytes of some rows. -/
def planeBytes (t : Tensor) (stored : Bool) (k n : Nat) (rs : List Nat) : Nat :=
  rs.foldl (fun b r => b + ((rowSpans t stored r k n).getD 0 (0, 0)).2) 0

/-! ### Loads -/

/-- TID_INVALID of a load, the window apart (14 R298). -/
def loadBad (x : MCmd) (t : Tensor) : Bool :=
  let p := pairOf t.format
  !t.usable || !t.pad || p == 5 || (x.kind == 0 && t.sparse) || (x.kind == 1 && p != 1 && p != 2)
  || (wideLoad x t && x.elem % 8 != 0)

/-- Elements that an array row takes: 8 logical when sparse. -/
def loadK (x : MCmd) (t : Tensor) : Nat := if x.kind == 1 then 8 else perCell (pairOf t.format)

/-- Is the group of cell (r, n) inside the extents, and its array row below R? -/
def cellIn (x : MCmd) (t : Tensor) (r n : Nat) : Bool :=
  decide (r < x.count_) && decide (x.row + n < t.rows) && decide (x.elem + loadK x t * r < t.d0)

/-- The cells' 32 bits and side words of a dense load. -/
def denseCell (x : MCmd) (t : Tensor) (rows : List RowData) (r n : Nat) : Nat × Nat :=
  if cellIn x t r n then
    let d := rows.getD n ⟨0, 0, 0, 0x3F80⟩
    let k := loadK x t
    (elemAt d.elems (elemBits t.format * k) r, if pairOf t.format == 3 then scaleOf t d (x.elem + k * r) else 0)
  else (0, 0)

/-- A sparse cell under its metadata halfword (14 R298): 32 bits, side word, and whether a dropped element is not finite. -/
def sparseCell (t : Tensor) (elems h r : Nat) : Nat × Nat × Bool :=
  if t.sparse then (elemAt elems 32 r, h, false)
  else
    let kept := keptOf h
    let at_ (i : Nat) := elemAt elems 8 (8 * r + i)
    ((List.range 4).foldl (fun n j => n + at_ (kept.getD j 0) * 2 ^ (8 * j)) 0, h,
     (List.range 8).any fun i => !kept.contains i && nonFinite (elemNum t.format (at_ i)))

/-- Is a metadata halfword malformed (14 R299)? -/
def metaBad (h : Nat) : Bool :=
  match keptOf h with
  | [a, b, c, d] => h / 4096 != 0 || !(decide (a < b) && decide (b < c) && decide (c < d))
  | _ => true

/-- Read the metadata of array row `r`: the halfwords of its 256 cells, 0x0688 for a cell without a group (25 R434). -/
def readMeta (c : Nat) (x : MCmd) (t : Tensor) (r : Nat) : Nat → State → List Nat × State
  | 0, s => ([], s)
  | k + 1, s =>
    let n := 255 - k
    let (h, s) := if cellIn x t r n then spanRead c x.src (x.x2.toNat % 2 ^ 20 + 512 * r + 2 * n, 2) s else (0x0688, s)
    let (t', s) := readMeta c x t r k s
    (h :: t', s)

/-- Fill the planes with the cells of array rows below `upto`; the rows above stand (09 R191-R193). -/
def fillPlanes (x : MCmd) (t : Tensor) (bands : List Nat) (cell : Nat → Nat × Nat) (upto : Nat) (m : Matrix) : Matrix :=
  let wide := wideLoad x t
  let hi := upto * 256
  let lo16 : Map (BitVec 16) := mbuild 0 hi fun i => .ofNat 16 (cell i).1
  let head (p : Plane) : Plane :=
    { p with format := t.format, sparse := x.kind == 1, rows := x.count_, tid := x.tid,
             bands := mbuild 0x3F80 256 fun n => .ofNat 16 (bands.getD n 0x3F80) }
  let p0 : Plane := mget {} m.planes 0
  let p1 : Plane := mget {} m.planes 1
  if wide then
    let hi16 : Map (BitVec 16) := mbuild 0 hi fun i => .ofNat 16 ((cell i).1 / 65536)
    let side : Map (BitVec 16) := mbuild 0 hi fun i => .ofNat 16 (cell i).2
    { m with wide := true, side := msplice m.side 0 hi side,
             planes := mput {} (mput {} m.planes 0 (head { p0 with words := msplice p0.words 0 hi lo16 })) 1
               (head { p1 with words := msplice p1.words 0 hi hi16 }) }
  else
    let sh := 1 - m.active
    let p := if sh = 0 then p0 else p1
    let planes := mput {} m.planes sh (head { p with words := msplice p.words 0 hi lo16 })
    { m with wide := false, planes := if m.wide then mput {} planes m.active {} else planes }

/-- Read the rows of metadata below R until a malformed halfword: the halfwords by row, and the bad one's offset. -/
def readMetas (c : Nat) (x : MCmd) (t : Tensor) : Nat → Nat → State → List (List Nat) × Option Nat × State
  | 0, _, s => ([], none, s)
  | n + 1, r, s =>
    let (hs, s) := readMeta c x t r 256 s
    match (List.range 256).find? fun n => metaBad (hs.getD n 0x0688) with
    | some n => ([], some (x.x2.toNat % 2 ^ 20 + 512 * r + 2 * n), s)
    | none =>
      let (t', b, s) := readMetas c x t n (r + 1) s
      (hs :: t', b, s)

/-- How a started command goes on: it runs, or it faults where it stands. -/
inductive Started where
  | runs (bytes flags : Nat) (s : State)
  | faults (cause : Nat) (addr : Word) (s : State)
  /-- a registered range holds its read (04 R74) -/
  | held

/-- WLOAD and WLOADSP at their start (14 R298, R299). -/
def runLoad (c : Nat) (x : MCmd) (t : Tensor) (s : State) : Started :=
  let k := loadK x t
  let n := k * x.count_
  let rs := (List.range 256).map (x.row + ·)
  let spans := rs.flatMap fun r => rowSpans t t.sparse r x.elem n
  let mspan : Span := if x.kind == 1 then (x.x2.toNat % 2 ^ 20, 512 * x.count_) else (0, 0)
  if loadBad x t || !(spans.all (spanIn x.src.size)) then .faults 0x0C 0 s
  else if (mspan :: spans).any (spanHeld s c x.src.base) then .held
  else
    let (rows, s) := readRows c x.src t t.sparse x.elem n rs s
    let bands := rows.map (·.band)
    let bytes := planeBytes t t.sparse x.elem n rs
    if x.kind == 0 then
      .runs bytes 0 (modMatrix s c (fillPlanes x t bands (fun i => denseCell x t rows (i / 256) (i % 256)) 128))
    else
      let (ms, bad, s) := readMetas c x t x.count_ 0 s
      let cell (i : Nat) : Nat × Nat × Bool :=
        if cellIn x t (i / 256) (i % 256) then
          sparseCell t (rows.getD (i % 256) ⟨0, 0, 0, 0x3F80⟩).elems ((ms.getD (i / 256) []).getD (i % 256) 0x0688) (i / 256)
        else (0, 0x0688, false)
      let upto := if bad.isSome then ms.length else 128
      let skip := (List.range (256 * ms.length)).any fun i => (cell i).2.2
      let s := modMatrix s c (fillPlanes x t bands (fun i => ((cell i).1, (cell i).2.1)) upto)
      match bad with
      | some a => .faults 0x0D (.ofNat 64 a) (mergeFlags x.src.ctx (if skip then flSKIPNF else 0) s)
      | none => .runs bytes (if skip then flSKIPNF else 0) s

/-! ### Streams -/

/-- The active plane as the array reads it. -/
def activeWeights (m : Matrix) : Weights :=
  let p : Plane := mget {} m.planes m.active
  let p0 : Plane := mget {} m.planes 0
  let p1 : Plane := mget {} m.planes 1
  { format := p.format, sparse := p.sparse, cell := fun r n =>
      let i := r * 256 + n
      if m.wide then ((mget 0 p0.words i).toNat + (mget 0 p1.words i).toNat * 65536, (mget 0 m.side i).toNat)
      else ((mget 0 p.words i).toNat, 0) }

/-- TID_INVALID of a stream, the window apart (14 R301). -/
def streamBad (x : MCmd) (t : Tensor) (p : Weights) : Bool :=
  let a := pairOf t.format
  !t.usable || !t.pad || t.sparse || a == 5 || (p.format != 0 && pairOf p.format != a)
  || (perCell a == 8 && x.elem % 8 != 0)

/-- Reduction elements of a pass: 128 cells of k. -/
def streamN (p : Weights) (t : Tensor) : Nat := 128 * (if p.sparse then 8 else perCell (pairOf t.format))

/-- The terms of a tile word: itself and the 128 cells; a plane without a loaded format gives +0 (06 R127, R129). -/
def wordTerms (x : MCmd) (t : Tensor) (p : Weights) (d : RowData) (c n : Nat) : List Num × Nat :=
  let cells : List (Num × Nat) := (List.range 128).map fun r =>
    if p.format = 0 then (.fin false 0 0, 0)
    else
      let (w, h) := p.cell r n
      cellNum p t.format (if pairOf t.format == 3 then scaleOf t d (x.elem + 8 * r) else 0) w h d.elems r
  (f32.decode c :: cells.map (·.1), cells.foldl (fun f y => f ||| y.2) 0)

/-- A tile word after a pass, and its flags (06 R129, R130). -/
def streamWord (x : MCmd) (t : Tensor) (p : Weights) (d : RowData) (c n : Nat) : Nat × Nat :=
  if pairInt (pairOf t.format) then
    (passInt c (if p.format = 0 then [] else (List.range 128).map fun r =>
      let (w, h) := p.cell r n; cellInt p t.format w h d.elems r), 0)
  else
    let (vs, f) := wordTerms x t p d c n
    let (v, g) := passWord vs
    (v, f ||| g)

/-- The record fields MAXABS, MAXULP, COL, ROW of a sampled stream (06 R134). -/
def sampleOf (ds : List (Nat × Nat × Option (Num × Nat))) : Nat × Nat × Nat × Nat :=
  let big := ds.foldl (fun (b : Num) e => match e.2.2 with
    | some (v, _) => if ltNum b v then v else b
    | none => b) (.fin false 0 0)
  let ulp (o : Option (Num × Nat)) : Nat := match o with | some (_, u) => min u 0xFFFFFFFF | none => 0xFFFFFFFF
  let worst := ds.foldl (fun (w : Nat × Nat × Nat) e => if w.1 < ulp e.2.2 then (ulp e.2.2, e.1, e.2.1) else w)
    (match ds with | e :: _ => (ulp e.2.2, e.1, e.2.1) | [] => (0, 0, 0))
  (if ds.any (·.2.2.isNone) then f32.dnan else (f32.round 0 false 0 big).1, worst.1, worst.2.2, worst.2.1)

/-- MSTREAM at its start (14 R301): the tile's rows, band records and kind (09 R194, 06 R127-R131). -/
def runStream (c i : Nat) (x : MCmd) (t : Tensor) (s : State) : Started :=
  let m := (coreOf s c).matrix
  let p := activeWeights m
  let n := streamN p t
  let rs := (List.range x.count_).map (x.row + ·)
  let spans := rs.flatMap fun r => rowSpans t false r x.elem n
  if streamBad x t p || !(spans.all (spanIn x.src.size)) then .faults 0x0C 0 s
  else if spans.any (spanHeld s c x.src.base) then .held
  else
    let (rows, s) := readRows c x.src t false x.elem n rs s
    let k := (x.tile).getD 0
    let row0 := fld x.cmd.toNat 16 10
    let old := tileOf s c k
    let word (j : Nat) : Nat × Nat :=
      streamWord x t p (rows.getD (j / 256 - row0) ⟨0, 0, 0, 0x3F80⟩) (mget 0 old.words j).toNat (j % 256)
    let lo := row0 * 256
    let hi := (row0 + x.count_) * 256
    let js := (List.range (hi - lo)).map (lo + ·)
    let flags := js.foldl (fun f j => f ||| (word j).2) 0
    let int := pairInt (pairOf t.format)
    let plane : Plane := mget {} m.planes m.active
    let new : Tile := { old with
      words := msplice old.words lo hi (mbuild 0 hi fun j => if j < lo then 0 else .ofNat 32 (word j).1),
      int := int,
      rowBand := msplice old.rowBand row0 (row0 + x.count_) (mbuild 0x3F80 (row0 + x.count_) fun j =>
        if j < row0 then 0x3F80 else .ofNat 16 (rows.getD (j - row0) ⟨0, 0, 0, 0x3F80⟩).band),
      colBand := plane.bands }
    -- numerical service (06 R134)
    let ctl := ctxOf s x.src.ctx
    let cnt := mget 0 (coreOf s c).samples x.src.ctx
    let sampled := ctl.mode == 0 && !int && cnt % 2 ^ ctl.sampleLog + 1 == 2 ^ ctl.sampleLog
    let smp := if sampled then some (sampleOf (js.map fun j =>
        let (vs, _) := wordTerms x t p (rows.getD (j / 256 - row0) ⟨0, 0, 0, 0x3F80⟩) (mget 0 old.words j).toNat (j % 256)
        (j / 256, j % 256, deviation (word j).1 (reference vs)))) else none
    let s := if ctl.mode == 0 then modCore s c fun q => { q with samples := mput 0 q.samples x.src.ctx (cnt + 1) } else s
    let s := modCmd s c i fun y => { y with sample := smp, count := cnt, wtid := plane.tid }
    .runs (planeBytes t false x.elem n rs) flags (modTile s c k fun _ => new)

/-! ### Drains and epilogue sets -/

/-- A word of an epilogue set of the core. -/
def epiWord (s : State) (c k i : Nat) : Nat := (mget 0 (coreOf s c).matrix.epi (144 * k + i)).toNat

/-- The stages and the output that an MDRAIN asks for. -/
def drainCfg (x : MCmd) (t : Tensor) (int : Bool) : DrainCfg :=
  let v := x.cmd.toNat
  { bias := bitAt v 12, act := bitAt v 13, quant := bitAt v 14, rnd := fld v 18 16, format := t.format, int := int }

/-- TID_INVALID of a drain, the window apart (14 R302, 09 R197). -/
def drainBad (x : MCmd) (t : Tensor) (int : Bool) : Bool :=
  let g := drainCfg x t int
  !t.usable || !t.pad || t.format == 6 || t.format == 7
  || (!g.quant && !(t.format == 1 || (t.format == 10 && int && !g.bias && !g.act)))
  || (t.format == 9 && x.row % 2 != 0)

/-- The output elements of tile row `m` inside the extents: where they lie and how many (09 R197). -/
def drainSpan (x : MCmd) (t : Tensor) (m : Nat) : Span × Nat :=
  if t.d1 ≤ x.elem + m then ((0, 0), 0)
  else (t.elems (x.elem + m) x.row 256, min 256 (t.d0 - x.row))

/-- SR's 32 bits for the word of each row-major index: the state is stepped once per word (06 R121, R122). -/
def drainSeeds : Nat → Word → List Nat
  | 0, _ => []
  | n + 1, w => let w := stepSeed w; w.toNat / 2 ^ 32 :: drainSeeds n w

/-- Write the rows that the drain produced. -/
def drainWrite (c : Nat) (x : MCmd) (t : Tensor) (row : Nat → List Nat) (s : State) : State :=
  (List.range 128).foldl (fun s m =>
    let (sp, n) := drainSpan x t m
    if sp.2 = 0 then s else
    let w := elemBits t.format
    let v := ((row m).take n).foldr (fun y r => y % 2 ^ w + r * 2 ^ w) 0
    engWrite s c (x.src.base + sp.1) (leBytes sp.2 v)) s

/-- MDRAIN at its start (14 R302, 09 R197, R198). -/
def runDrain (c : Nat) (x : MCmd) (t : Tensor) (s : State) : Started :=
  let k := (x.tile).getD 0
  let tile := tileOf s c k
  let g := drainCfg x t tile.int
  let e := epiWord s c x.set
  let spans := (List.range 128).map fun m => (drainSpan x t m).1
  let boff := e 131
  if drainBad x t tile.int || !(spans.all (spanIn x.src.size)) then .faults 0x0C 0 s
  else if g.bias && (boff % 4 != 0 || decide (x.src.size < boff + 1024)) then .faults 0x0E 0 s
  else
    let (bias, s) := if g.bias then spanRead c x.src (boff, 1024) s else (0, s)
    let seeds := if g.quant && g.rnd == 4 then drainSeeds 32768 x.x2 else []
    let word (m n : Nat) : Nat × Nat :=
      drainWord g e (mget 0 tile.words (m * 256 + n)).toNat (mget 0x3F80 tile.colBand n).toNat
        (mget 0x3F80 tile.rowBand m).toNat (elemAt bias 32 n) (seeds.getD (m * 256 + n) 0)
    let rows := (List.range 128).map fun m => (List.range 256).map (word m)
    let flags := rows.foldl (fun f r => r.foldl (fun f y => f ||| y.2) f) 0
    let s := drainWrite c x t (fun m => (rows.getD m []).map (·.1)) s
    let s := if bitAt x.cmd.toNat 15 then modTile s c k fun t => { count := t.count } else s
    .runs (spans.foldl (fun n y => n + y.2) 0) flags s

/-- EPISET at its start (14 R303). -/
def runEpiset (c : Nat) (x : MCmd) (s : State) : Started :=
  let (v, s) := spanRead c x.src (x.x1.toNat % 2 ^ 20, 576) s
  let lo := f32.decode (elemAt v 32 128)
  let hi := f32.decode (elemAt v 32 129)
  if nonFinite lo || nonFinite hi || !ltNum lo hi || v / 2 ^ (8 * 528) != 0 then .faults 0x0E 0 s
  else
    let k := x.set
    let new : Map W32 := mbuild 0 (144 * k + 144) fun i => if i < 144 * k then 0 else .ofNat 32 (elemAt v 32 (i - 144 * k))
    .runs 0 0 (modMatrix s c fun m => { m with epi := msplice m.epi (144 * k) (144 * k + 144) new })

/-! ### Starts and completions -/

/-- Start command `i` of a core if it is of these kinds and may start: leave and event first, then its own work. -/
def startStep (kinds : List Nat) (c i : Nat) (s : State) : Option State :=
  match (cmdsOf s c)[i]? with
  | none => none
  | some x =>
    if !kinds.contains x.kind then none else
    match cmdTensor c x s with
    | .wait o => o
    | .failed _ => none
    | .done t s =>
      let w := cmdWatts s c x t
      if !nextCmd s c i t || (w != 0 && x.leave != 2) then none else
      match cmdEvent c i x s with
      | none => none
      | some s =>
        let run := match x.kind with
          | 2 => Started.runs 0 0 (modMatrix s c fun m => if m.wide then m else { m with active := 1 - m.active })
          | 3 => runStream c i x t s
          | 4 => runDrain c x t s
          | 5 => runEpiset c x s
          | _ => runLoad c x t s
        match run with
        | .held => none
        | .runs b f s => some (modCmd s c i fun y =>
            { y with phase := 1, bytes := b, flags := f, mode := (ctxOf s x.src.ctx).mode, wide := wideLoad x t })
        | .faults cause a s => some (commandFault c x.src cause a (modCmd s c i fun y => { y with phase := 2 }))

/-- WEIGHT_LOAD_START (09 R195). -/
def execWeightLoadStart (core idx : Nat) (s : State) : Host.Outcome State Fault Refusal := .next (orSame (startStep [0, 1] core idx) s)
/-- SWAP_START (09 R193). -/
def execSwapStart (core idx : Nat) (s : State) : Host.Outcome State Fault Refusal := .next (orSame (startStep [2] core idx) s)
/-- STREAM_START (09 R194). -/
def execStreamStart (core idx : Nat) (s : State) : Host.Outcome State Fault Refusal := .next (orSame (startStep [3] core idx) s)
/-- DRAIN_START (09 R197). -/
def execDrainStart (core idx : Nat) (s : State) : Host.Outcome State Fault Refusal := .next (orSame (startStep [4] core idx) s)
/-- EPISET_START (14 R303). -/
def execEpisetStart (core idx : Nat) (s : State) : Host.Outcome State Fault Refusal := .next (orSame (startStep [5] core idx) s)

/-- A telemetry record (06 R134). -/
def telemetryRec (c : Nat) (x : MCmd) (r : Nat × Nat × Nat × Nat) (s : State) : Nat :=
  fabtime s % 2 ^ 64 * 2 ^ 192 + r.1 * 2 ^ 160 + r.2.1 * 2 ^ 128 + r.2.2.1 * 2 ^ 120 + r.2.2.2 * 2 ^ 113
    + (x.tile).getD 0 * 2 ^ 111 + c * 2 ^ 103 + x.wtid * 2 ^ 95 + x.tid * 2 ^ 87 + x.count % 2 ^ 64

/-- NUMDROP counts a record that is not written (06 R135). -/
def dropTelemetry (ctx : Nat) (s : State) : State :=
  modCtx s ctx fun k => { k with numDrop := if k.numDrop.toNat = 0xFFFFFFFF then k.numDrop else k.numDrop + 1 }

/-- Write a telemetry record with release at .package, then let HEAD rise; an absent or full ring drops it (06 R134, R135).
A record whose page request is answered FAIL, or whose write is refused, is dropped too (log 50). -/
def writeTelemetry (c : Nat) (x : MCmd) (r : Nat × Nat × Nat × Nat) (s : State) : Engine Unit :=
  let ctx := x.src.ctx
  let k := ctxOf s ctx
  let ring := k.numRing.toNat
  let cap := 128 * 2 ^ (ring % 16)
  let base := fld ring 56 12 * 4096
  if base = 0 || (k.numHead - k.numTail).toNat = cap then .done () (dropTelemetry ctx s)
  else match runEngine c 13 (vwrite ⟨c, ctx, 3⟩ (base + 32 * (k.numHead.toNat % cap)) (leBytes 32 (telemetryRec c x r s))) s with
    | .done _ s => .done () (modCtx (deliverAll s) ctx fun k => { k with numHead := k.numHead + 1 })
    | .wait o => .wait o
    | .failed s => .done () (dropTelemetry ctx s)

/-- The telemetry record of a command that completes, if it is sampled. -/
def sampleRecord (c : Nat) (x : MCmd) (s : State) : Engine Unit :=
  match x.sample with
  | some r => writeTelemetry c x r s
  | none => .done () s

/-- MATRIX_COMMAND_COMPLETE: the record, flags, the count-down, the pulse, the tile count (14 R295, 06 R134). -/
def completeStep (c i : Nat) (s : State) : Option State :=
  match (cmdsOf s c)[i]? with
  | none => none
  | some x =>
    if x.phase != 1 || !objReady s c x.obj then none else
    match sampleRecord c x s with
    | .wait o => o
    | .failed _ => none
    | .done _ s =>
      let s := commandFlags c x.src.ctx x.mode x.flags x.obj s
      let s := match x.obj with
        | some a => countDown s c a x.bytes
        | none => s
      let s := if bitAt x.cmd.toNat 57 then pulse c (fld x.cmd.toNat 56 52) s else s
      some (removeCmd c i s)

/-- MATRIX_COMMAND_COMPLETE (14 R295). -/
def execMatrixCommandComplete (core idx : Nat) (s : State) : Host.Outcome State Fault Refusal := .next (orSame (completeStep core idx) s)

/-! ### The command words -/

/-- A command word is accepted: fewer than eight commands are unstarted, or the bundle stalls (14 R293). -/
def issueCmd (i : Instr) (g : BitVec 3) (own : Check) (mk : Lane → State → MCmd) (s : State) : State :=
  issueE i g own (fun ls s =>
    if matrixRoom s s.issue.core then
      acceptCmd s.issue.core { mk (iLane s (leader ls)) s with src := originOf ls s } s
    else stallIssue s) s

/-- CMD of a load: R is 1 to 128, [31:16] zero (14 R298). -/
def loadCmdOk (v : Nat) : Bool := 1 ≤ fld v 15 8 && fld v 15 8 ≤ 128 && v / 65536 == 0

/-- WLOAD (14 R297, R298). -/
def execWload (c : BitVec 1) (g : BitVec 3) (a : BitVec 6) (s : State) : Host.Outcome State Fault Refusal :=
  .next (issueCmd (.wload c g a) g (cmdCheck a loadCmdOk) (fun x s =>
    { kind := 0, cmd := getX x (rA s a), x1 := getX x (rA s a + 1) }) s)

/-- WLOADSP's checks: its command word, then its metadata range (14 R293, R298). -/
def wloadspCheck (a : BitVec 6) : Check := fun ls s =>
  let x := iLane s (leader ls)
  let v := getX x (rA s a)
  let o := (getX x (rA s a + 2)).toNat % 2 ^ 20
  if cmdBad v loadCmdOk then some (0x0E, 0)
  else if o % 64 ≠ 0 then some (0x05, .ofNat 64 o)
  else match cmdCheck a loadCmdOk ls s with
    | some e => some e
    | none => rangeCheck o 64 (512 * fld v.toNat 15 8) s

/-- WLOADSP (14 R297-R299). -/
def execWloadsp (c : BitVec 1) (g : BitVec 3) (a : BitVec 6) (s : State) : Host.Outcome State Fault Refusal :=
  .next (issueCmd (.wloadsp c g a) g (wloadspCheck a) (fun x s =>
    { kind := 1, cmd := getX x (rA s a), x1 := getX x (rA s a + 1), x2 := getX x (rA s a + 2) }) s)

/-- WSWAP (14 R300). -/
def execWswap (c : BitVec 1) (g : BitVec 3) (s : State) : Host.Outcome State Fault Refusal :=
  .next (issueCmd (.wswap c g) g noCheck (fun _ _ => { kind := 2 }) s)

/-- CMD of a stream (14 R301). -/
def streamCmdOk (v : Nat) : Bool :=
  1 ≤ fld v 24 17 && fld v 24 17 ≤ 128 && fld v 16 10 + fld v 24 17 ≤ 128 && fld v 31 25 == 0

/-- MSTREAM (14 R301). -/
def execMstream (c : BitVec 1) (g : BitVec 3) (a : BitVec 6) (s : State) : Host.Outcome State Fault Refusal :=
  .next (issueCmd (.mstream c g a) g (cmdCheck a streamCmdOk) (fun x s =>
    { kind := 3, cmd := getX x (rA s a), x1 := getX x (rA s a + 1) }) s)

/-- CMD of a drain (14 R302). -/
def drainCmdOk (v : Nat) : Bool := fld v 18 16 ≤ 4 && fld v 31 19 == 0

/-- MDRAIN: it copies the leader's SEED, as an earlier PUTS of its group left it (14 R302, 06 R122, 10 R217). -/
def execMdrain (c : BitVec 1) (g : BitVec 3) (a : BitVec 6) (s : State) : Host.Outcome State Fault Refusal :=
  .next (issueCmd (.mdrain c g a) g (cmdCheck a drainCmdOk) (fun x s =>
    { kind := 4, cmd := getX x (rA s a), x1 := getX x (rA s a + 1),
      x2 := (laneOf (iWarp s) (leader (actLanes s g))).seed }) s)

/-- EPISET's set range (14 R302). -/
def episetCheck (a : BitVec 6) : Check := fun ls s =>
  rangeCheck ((getX (iLane s (leader ls)) (rA s a)).toNat % 2 ^ 20) 64 576 s

/-- EPISET (14 R302, R303). -/
def execEpiset (c : BitVec 1) (g : BitVec 3) (k : BitVec 2) (a : BitVec 6) (s : State) : Host.Outcome State Fault Refusal :=
  .next (issueCmd (.episet c g k a) g (episetCheck a) (fun x s =>
    { kind := 5, x1 := getX x (rA s a), x2 := .ofNat 64 k.toNat }) s)

/-! ### Accumulator words (14 R304) -/

/-- An accumulator word stalls while its tile's count is not zero (09 R196), then acts at once. -/
def issueAcc (i : Instr) (g : BitVec 3) (t : BitVec 2) (eff : List Nat → State → State) (s : State) : State :=
  issueE i g noCheck (fun ls s => if (tileOf s s.issue.core t.toNat).count = 0 then eff ls s else stallIssue s) s

/-- ACCZ. -/
def execAccz (c : BitVec 1) (g : BitVec 3) (t : BitVec 2) (s : State) : Host.Outcome State Fault Refusal :=
  .next (issueAcc (.accz c g t) g t (fun _ s => modTile s s.issue.core t.toNat fun x => { count := x.count }) s)

/-- The word index of a thread's coordinates: row m, column 2p. -/
def accIndex (v : Word) : Nat := v.toNat % 128 * 256 + fld v.toNat 14 8 * 2

/-- ACCRD: two raw words, 8 clk after it acts. -/
def execAccrd (c : BitVec 1) (g : BitVec 3) (d a : BitVec 6) (t : BitVec 2) (s : State) : Host.Outcome State Fault Refusal :=
  .next (issueAcc (.accrd c g d a t) g t (fun ls s =>
    putX s (rD s d) 8 (ls.map fun l =>
      let i := accIndex (getX (iLane s l) (rA s a))
      let w := (tileOf s s.issue.core t.toNat).words
      (l, .ofNat 64 ((mget 0 w i).toNat + (mget 0 w (i + 1)).toNat * 2 ^ 32)))) s)

/-- ACCWR: lanes in ascending order; the records of the row and the two columns become 1.0. -/
def execAccwr (c : BitVec 1) (g : BitVec 3) (d a : BitVec 6) (t : BitVec 2) (s : State) : Host.Outcome State Fault Refusal :=
  .next (issueAcc (.accwr c g d a t) g t (fun ls s => ls.foldl (fun s l =>
    let i := accIndex (getX (iLane s l) (rA s a))
    let v := getX (iLane s l) (rD s d)
    modTile s s.issue.core t.toNat fun x =>
      { x with words := mput 0 (mput 0 x.words i (v.truncate 32)) (i + 1) ((v >>> 32).truncate 32),
               rowBand := mput 0x3F80 x.rowBand (i / 256) 0x3F80,
               colBand := mput 0x3F80 (mput 0x3F80 x.colBand (i % 256) 0x3F80) (i % 256 + 1) 0x3F80 }) s) s)

/-! ### SPCMP (14 R305) -/

/-- The formats of SPCMP's code. -/
def spFormat (f : BitVec 3) : Nat := match f.toNat with | 0 => 8 | 1 => 4 | _ => 5

/-- Does value `i` rank above value `j`: a greater key, or an equal one and a lower index? -/
def ranksAbove (format : Nat) (v : Word) (i j : Nat) : Bool :=
  let mag (k : Nat) : Num := match elemNum format (sub_ v 8 k) with
    | .nan => .nan | .inf _ => .inf false | .fin _ m e => .fin false m e
  let a := mag i
  let b := mag j
  if a == .nan && b == .nan then decide (i < j)
  else if b == .nan then true
  else if a == .nan then false
  else ltNum b a || (eqNum a b && decide (i < j))

/-- The four highest-ranked indices, ascending. -/
def spKept (format : Nat) (v : Word) : List Nat :=
  (List.range 8).filter fun i => decide (((List.range 8).filter fun j => j != i && ranksAbove format v j i).length < 4)

/-- SPCMP of one register: the result, and whether a dropped element is not finite. -/
def spcmp (format : Nat) (v : Word) : Word × Bool :=
  let k := spKept format v
  (.ofNat 64 ((List.range 4).foldl (fun n j =>
      n + sub_ v 8 (k.getD j 0) * 2 ^ (8 * j) + k.getD j 0 * 2 ^ (32 + 3 * j)) 0),
   (List.range 8).any fun i => !k.contains i && nonFinite (elemNum format (sub_ v 8 i)))

/-- SPCMP: 8 clk after issue (14 R305, 06 R137). -/
def execSpcmp (c : BitVec 1) (g : BitVec 3) (d a : BitVec 6) (f : BitVec 3) (s : State) : Host.Outcome State Fault Refusal :=
  .next (issueE (.spcmp c g d a f) g noCheck (fun ls s =>
    let rs := ls.map fun l => (l, spcmp (spFormat f) (getX (iLane s l) (rA s a)))
    iFlags (if rs.any (·.2.2) then flSKIPNF else 0) (putX s (rD s d) 8 (rs.map fun r => (r.1, r.2.1)))) s)

end Sys2Proof.Machine
end

