-- ==== Sys2Proof/Machine/Copy.lean ====
section
/-! DEFINITION. The copy queues: KICK and QSTAT, and the steps of chain entries (09 R199-R207, 14 R306, 24 R425, R426). -/

namespace Sys2Proof.Machine

/-! ### Entries (09 R200, R201) -/

abbrev Entry := Nat

def eOp (e : Entry) : Nat := e % 256
def eLast (e : Entry) : Bool := bitAt e 8
def eSrc (e : Entry) : Nat := fld e 120 64
def eDst (e : Entry) : Nat := fld e 184 128
def eSrcPad (e : Entry) : Bool := bitAt e 121
def eDstPad (e : Entry) : Bool := bitAt e 185
def eLen (e : Entry) : Nat := fld e 223 192
def eRows (e : Entry) : Nat := fld e 53 38
def eRowLen (e : Entry) : Nat := if fld e 207 192 = 0 then 65536 else fld e 207 192
def eEsize (e : Entry) : Nat := fld e 50 38
def eIdx (e : Entry) : Nat := fld e 243 224
def eTarget (e : Entry) : Nat := fld e 57 38
def eMcmd (e : Entry) : Nat := fld e 255 224
/-- Is an entry a data entry of R202? -/
def eData (e : Entry) : Bool := (1 ≤ eOp e && eOp e ≤ 9) || eOp e == 13
/-- The window offset of the completion object an entry counts on. -/
def eObj (e : Entry) : Option Nat := if bitAt e 9 then some (fld e 37 22 * 16) else none
/-- The RREDUCE element's bytes (09 R201). -/
def ropSize (r : Nat) : Nat := match r with | 1 => 8 | 5 => 2 | _ => 4

/-- The fields that an OP uses beyond bits [37:0], as bit ranges (09 R201). -/
def eFields (op : Nat) : List (Nat × Nat) :=
  match op with
  | 1 => [(121, 64), (185, 128), (223, 192)]
  | 2 => [(54, 38), (121, 64), (185, 128), (255, 192)]
  | 3 => [(50, 38), (121, 64), (185, 128), (243, 192)]
  | 4 => [(50, 38), (121, 64), (185, 128), (243, 192)]
  | 5 => [(50, 38), (120, 64), (185, 128), (243, 192)]
  | 6 => [(62, 38), (121, 64), (185, 128), (251, 192)]
  | 7 => [(45, 38), (121, 64), (185, 128), (255, 192)]
  | 8 => [(45, 38), (121, 64), (184, 128), (223, 192)]
  | 9 => [(50, 38), (121, 64), (184, 128), (223, 192)]
  | 10 => [(57, 38), (95, 64), (159, 128), (255, 192)]
  | 11 => [(61, 38), (121, 64), (130, 128), (255, 192)]
  | 12 => [(45, 38)]
  | 13 => [(121, 64), (185, 128), (223, 192), (250, 224)]
  | _ => [(41, 38), (185, 128), (255, 192)]

/-- A number with a bit range cleared. -/
def clearBits (e : Nat) (r : Nat × Nat) : Nat := e - fld e r.1 r.2 * 2 ^ r.2

/-- Reserved OP, TEST, ROP, SCOPE or KIND (24 R419 reason 1). -/
def eReserved (e : Entry) : Bool :=
  eOp e == 0 || 15 ≤ eOp e || (eOp e == 11 && (6 ≤ fld e 60 58 || 5 ≤ fld e 130 128))
  || (eOp e == 9 && 6 ≤ fld e 49 46) || (eOp e == 14 && 5 ≤ fld e 40 38) || (eOp e == 13 && 2 ≤ eMcmd e % 4)

/-- A field that must be zero, or that lies outside its range (reason 2). -/
def eUnused (e : Entry) : Bool :=
  ((if eData e then 37 else 21, 0) :: eFields (eOp e)).foldl clearBits e != 0
  || (eData e && eSrcPad e && 2 ^ 20 ≤ eSrc e) || ((eData e || eOp e == 14) && eDstPad e && 2 ^ 20 ≤ eDst e)
  || (eOp e == 11 && eSrcPad e && 2 ^ 20 ≤ eSrc e)
  || ((eOp e == 7 || eOp e == 13) && !eDstPad e)
  || ((eOp e == 3 || eOp e == 4) && (eEsize e == 0 || 4096 < eEsize e))
  || (eOp e == 5 && (eEsize e == 0 || 256 < eEsize e || eEsize e % 4 != 0))
  || (eOp e == 6 && 10 < fld e 61 54)
  || (eOp e == 13 && (fld (eMcmd e) 18 11 == 0 || 128 < fld (eMcmd e) 18 11
      || (eMcmd e % 4 == 1 && fld (eMcmd e) 10 4 != 0)
      || (eMcmd e % 4 == 0 && 128 < fld (eMcmd e) 10 4 + fld (eMcmd e) 18 11)))

/-- An address stepped by a signed amount, modulo 2^57. -/
def stepAddr (a : Nat) (d : Int) : Nat := truncI (a + d) 57

/-- The source and destination steps of a STRIDED or MASKROW entry's rows. -/
def eSStride (e : Entry) : Int := signed 24 (fld e 231 208) * (if eOp e == 2 && bitAt e 54 then 64 else 1)
def eDStride (e : Entry) : Int := signed 24 (fld e 255 232) * (if bitAt e 54 then 64 else 1)

/-- The bytes an entry moves (01 R20, 09 R210): of a MASKROW its selected rows (R201).  The spec does not say which length of
an INSTAR counts: the model takes its output (log 51). -/
def eMoves (e : Entry) (mask : Nat) : Nat :=
  match eOp e with
  | 2 => eRows e * eRowLen e
  | 6 => ((List.range (eRows e)).filter (bitAt mask ·)).length * eRowLen e
  | 3 => eLen e * eEsize e
  | 4 => eLen e * eEsize e
  | 5 => eLen e * eEsize e
  | 7 => fld e 255 224
  | 1 => eLen e | 8 => eLen e | 9 => eLen e | 13 => eLen e
  | _ => 0

/-! ### Queues -/

/-- The head whose chain runs. -/
def curHead (k : CopyQ) : Head := k.cur.getD ⟨0, 0, {}⟩

/-- Read bytes for an entry: the scratchpad window or global memory (05 R103, R106). -/
def copyRead (c : Nat) (o : Origin) (pad : Bool) (a n : Nat) (agent : Nat := 2) : M (List Byte) :=
  if pad then fun s => let (b, s) := engRead s c o.ctx agent (o.base + a) n; .ok b s
  else vread ⟨c, o.ctx, agent⟩ a n

/-- Write bytes for an entry. -/
def copyWrite (c : Nat) (o : Origin) (pad : Bool) (a : Nat) (bs : List Byte) : M Unit :=
  if pad then fun s => .ok () (engWrite s c (o.base + a) bs)
  else vwrite ⟨c, o.ctx, 2⟩ a bs

/-- An engine's number in the window. -/
def padNum (c : Nat) (o : Origin) (a n : Nat) (s : State) : Nat × State := engReadN s c o.ctx 2 (o.base + a) n

/-- An index list of `n` elements at `a`, each untorn (09 R201, 05 R106). -/
def readIdx (c : Nat) (o : Origin) (a : Nat) : Nat → State → List Nat × State
  | 0, s => ([], s)
  | n + 1, s =>
    let (b, s) := engUnit s c o.ctx 2 (o.base + a) 4
    let (t, s) := readIdx c o (a + 4) n s
    (ofBytes b :: t, s)

/-- Does a range of the window lie inside it? -/
def inWin (o : Origin) (a n : Nat) : Bool := n == 0 || decide (a + n ≤ o.size)

/-- The window ranges that an entry reads and writes, beyond the completion object (09 R204, 04 R74). -/
def eRanges (e : Entry) (idx : List Nat) : List Span :=
  let src (a n : Nat) : List Span := if eSrcPad e then [(a, n)] else []
  let dst (a n : Nat) : List Span := if eDstPad e then [(a, n)] else []
  let rows (f : Nat → List Span) : List Span := (List.range (eRows e)).flatMap f
  match eOp e with
  | 2 => rows fun i => src (stepAddr (eSrc e) (i * eSStride e)) (eRowLen e) ++ dst (stepAddr (eDst e) (i * eDStride e)) (eRowLen e)
  | 6 => (fld e 251 232, (eRows e + 7) / 8) :: dst (eDst e) (eRows e * eRowLen e) ++
      rows fun i => src (stepAddr (eSrc e) (i * eSStride e)) (eRowLen e)
  | 4 => (eIdx e, 4 * eLen e) :: src (eSrc e) (eLen e * eEsize e) ++ idx.flatMap fun k => dst (eDst e + k * eEsize e) (eEsize e)
  | 3 => (eIdx e, 4 * eLen e) :: dst (eDst e) (eLen e * eEsize e) ++ idx.flatMap fun k => src (eSrc e + k * eEsize e) (eEsize e)
  | 5 => (eIdx e, 4 * eLen e) :: dst (eDst e) (eLen e * eEsize e)
  | 7 => src (eSrc e) (eLen e) ++ dst (eDst e) (fld e 255 224)
  | 1 => src (eSrc e) (eLen e) ++ dst (eDst e) (eLen e)
  | 13 => src (eSrc e) (eLen e) ++ dst (eDst e) (eLen e)
  | 8 => src (eSrc e) (eLen e)
  | 9 => src (eSrc e) (eLen e)
  | 11 => src (eSrc e) 8
  | 14 => dst (eDst e) 8
  | _ => []

/-- A misaligned element or word (reason 4). -/
def eMisaligned (e : Entry) : Bool :=
  ((3 ≤ eOp e && eOp e ≤ 5) && eIdx e % 4 != 0) || (eOp e == 11 && eSrc e % 8 != 0) || (eOp e == 14 && eDst e % 8 != 0)
  || (eOp e == 9 && (eSrc e % ropSize (fld e 49 46) != 0 || eDst e % ropSize (fld e 49 46) != 0)) || ((eOp e == 10 || eOp e == 11) && eTarget e % 32 != 0)

/-- May an entry of the launch name a fabric package (09 R204, 03 R52)? -/
def pkgOk (s : State) (o : Origin) (pkg : Nat) : Bool :=
  let la := launchOf s o.ctx o.launch
  fabricBound la && decide (pkg < la.extents.getLastD 0)

/-- Why an entry at offset `off` is malformed, the reasons in ascending number; that of Instar apart.  `badTid`: a FOLLOW whose
operand TID is not usable. -/
def malformed (s : State) (h : Head) (off : Nat) (e : Entry) (idx : List Nat) (badTid : Bool) : Option Nat :=
  let o := h.src
  if eReserved e then some 1
  else if eUnused e then some 2
  else if !((eRanges e idx).all fun r => inWin o r.1 r.2) || !((eObj e).all fun a => inWin o a 16) then some 3
  else if eMisaligned e then some 4
  else if eOp e == 9 && eLen e % ropSize (fld e 49 46) != 0 then some 5
  else if bitAt e 9 && (10 ≤ eOp e && eOp e ≤ 12 || eOp e == 14) then some 6
  else if eOp e == 13 && !bitAt h.tiles (fld (eMcmd e) 3 2) then some 7
  else if badTid then some 8
  else if eOp e == 10 && off < eTarget e + 32 then some 9
  else if (!eLast e && o.size < off + 64) || ((eOp e == 10 || eOp e == 11) && o.size < eTarget e + 32) then some 10
  else if (eOp e == 8 || eOp e == 9) && !pkgOk s o (fld e 45 38) then some 13
  else none

/-- Take an entry's ranges off the range scoreboard (04 R74). -/
def dropRanges (c q : Nat) (s : State) : State := modCore s c fun k => { k with ranges := k.ranges.filter (·.2.2 != q) }

/-- The least range that holds some ranges, if they are not all empty. -/
def hull (rs : List Span) : List Span :=
  match rs.filter (·.2 != 0) with
  | [] => []
  | r :: t =>
    let lo := t.foldl (fun m x => min m x.1) r.1
    let hi := t.foldl (fun m x => max m (x.1 + x.2)) (r.1 + r.2)
    [(lo, hi - lo)]

/-- What an entry registers: one range each for its source, its destination and its index list or mask (log 6); the last is
read whole as the entry starts. -/
def hulls (e : Entry) (rs : List Span) : List Span × List Span :=
  let own : List Span := if 3 ≤ eOp e && eOp e ≤ 6 then rs.take 1 else []
  let t := rs.drop own.length
  let split : List Span × List Span := match eOp e with
    | 2 => if eSrcPad e && eDstPad e then
        ((t.zipIdx.filter (·.2 % 2 == 0)).map (·.1), (t.zipIdx.filter (·.2 % 2 == 1)).map (·.1)) else (t, [])
    | _ => (t.take 1, t.drop 1)
  (hull own, hull split.1 ++ hull split.2)

/-- The ranges of an entry that reads or writes the window. -/
def entryRanges (e : Entry) (idx : List Nat) : List Span × List Span :=
  if eData e || eOp e == 11 || eOp e == 14 then hulls e (eRanges e idx) else ([], [])

/-- Widen a range to multiples of 64 bytes (04 R74). -/
def widen (o : Origin) (q : Nat) (r : Span) : Nat × Nat × Nat :=
  ((o.base + r.1) / 64 * 64, (o.base + r.1 + r.2 + 63) / 64 * 64, q)

/-- Stop a queue at its current entry: ERR, ERROR in the object, a log record (09 R204, 24 R419, R425, R426). -/
def stopQueue (c q reason : Nat) (e : Entry) (s : State) : State :=
  let k := copyQOf s c q
  let o := (curHead k).src
  let s := modCopyQ (dropRanges c q s) c q fun k =>
    { k with err := true, started := false, waitEv := false, waitPwr := false, waitCond := false, failed := false,
             prog0 := if reason = 12 then k.prog0 else 0, evTaken := k.evTaken && (reason == 8 || reason == 11 || reason == 12) }
  let s := match eObj e with
    | some a => if inWin o a 16 then objFlag s c (o.base + a) (2 ^ 10) else s
    | none => s
  logCore s c o.ctx 0x41 k.off (detail 0 2 3 (q * 2 ^ 29 + reason * 2 ^ 24 + eOp e * 2 ^ 16))

/-! ### Running a data entry -/

/-- What a run has done: its progress, the destination bytes it landed, the flags it raised. -/
structure Tally where
  prog : Nat := 0
  bytes : Nat := 0
  flags : Nat := 0
  deriving DecidableEq, Repr

/-- How far a run came. -/
inductive Ran where
  | all (t : Tally) (s : State)
  | wait (t : Tally) (o : Option State) (s : State)
  | failed (t : Tally) (s : State)

/-- Run the units of an entry in turn; a unit, its first item and how many it holds, answers its flags. -/
def runUnits (c q : Nat) (size : Nat × Nat → Nat) (unit : Nat × Nat → M Nat) : List (Nat × Nat) → Tally → State → Ran
  | [], t, s => .all t s
  | x :: xs, t, s =>
    match runEngine c q (unit x) s with
    | .done g s => runUnits c q size unit xs ⟨t.prog + x.2, t.bytes + size x, t.flags ||| g⟩ s
    | .wait o => .wait t o s
    | .failed s => .failed t s

/-- The pieces of a copy: they end at the 4,096-byte boundaries of its destination (09 R212). -/
def copyPieces (len dst : Nat) : Nat → Nat → List (Nat × Nat)
  | 0, _ => []
  | fuel + 1, p =>
    if len ≤ p then [] else
    let n := min (len - p) (4096 - (dst + p) % 4096)
    (p, n) :: copyPieces len dst fuel (p + n)

/-- The units of an entry: pieces of a copy, rows, elements, packets of at most 512 bytes; first item and count of each. -/
def eUnits (e : Entry) : List (Nat × Nat) :=
  let each (n : Nat) : List (Nat × Nat) := (List.range n).map fun i => (i, 1)
  let packets (n k : Nat) : List (Nat × Nat) := (List.range ((n + k - 1) / k)).map fun i => (i * k, min k (n - i * k))
  match eOp e with
  | 2 => each (eRows e)
  | 3 => each (eLen e)
  | 4 => each (eLen e)
  | 5 => each (eLen e)
  | 6 => each (eRows e)
  | 8 => packets (eLen e) 512
  | 9 => packets (eLen e / ropSize (fld e 49 46)) (512 / ropSize (fld e 49 46))
  | _ => copyPieces (eLen e) (eDst e) (eLen e / 4096 + 2) 0

/-- A list in the order that a number names: each order of it has a number. -/
def drawn {α : Type} : Nat → Nat → List α → List α
  | 0, _, l => l
  | n + 1, r, l =>
    if l.length ≤ 1 then l else
    match l[r % l.length]? with
    | some x => x :: drawn n (r / l.length) (l.eraseIdx (r % l.length))
    | none => l

/-- The order of an entry's units: free (05 R106), but remote writes are sent in rising order (R107, log 9). -/
def unitOrder (e : Entry) (seed : Nat) : List (Nat × Nat) :=
  if eOp e = 8 || eOp e = 9 then eUnits e else drawn (eUnits e).length (Config.choose seed) (eUnits e)

/-- The units that are left once `p` items are done. -/
def leftUnits : Nat → List (Nat × Nat) → List (Nat × Nat)
  | _, [] => []
  | p, x :: t => if x.2 ≤ p then leftUnits (p - x.2) t else x :: t

/-- The destination bytes of a unit (09 R207). -/
def unitBytes (e : Entry) (mask : Nat) (x : Nat × Nat) : Nat :=
  match eOp e with
  | 2 => eRowLen e
  | 3 => eEsize e
  | 4 => eEsize e
  | 5 => eEsize e
  | 6 => if bitAt e 62 && !bitAt mask x.1 then 0 else eRowLen e
  | 9 => x.2 * ropSize (fld e 49 46)
  | _ => x.2

/-- Does a row hold a NaN or an infinity of a format (09 R201, 06 R137)? -/
def rowNonFinite (format : Nat) (bs : List Byte) : Bool :=
  let w := elemBits format
  format != 0 && format ≤ 5 && (List.range (bs.length * 8 / w)).any fun j => nonFinite (elemNum format (elemAt (ofBytes bs) w j))

/-- One unit of COPY, STRIDED, GATHER, SCATTER, NMGATHER, MASKROW or FOLLOW (09 R201): its flags. -/
def copyUnit (c : Nat) (o : Origin) (e : Entry) (idx : List Nat) (mask : Nat) (x : Nat × Nat) : M Nat := do
  let p := x.1
  let mv (a b n : Nat) (agent : Nat := 2) : M Unit := do
    copyWrite c o (eDstPad e) b (← copyRead c o (eSrcPad e) a n agent)
  match eOp e with
  | 2 =>
    mv (stepAddr (eSrc e) (p * eSStride e)) (stepAddr (eDst e) (p * eDStride e)) (eRowLen e)
    return 0
  | 3 =>
    mv (eSrc e + idx.getD p 0 * eEsize e) (eDst e + p * eEsize e) (eEsize e)
    return 0
  | 4 =>
    mv (eSrc e + p * eEsize e) (eDst e + idx.getD p 0 * eEsize e) (eEsize e)
    return 0
  | 5 =>
    mv (eSrc e + idx.getD p 0 * eEsize e) (eDst e + p * eEsize e) (eEsize e) 8
    return 0
  | 6 =>
    let a := stepAddr (eSrc e) (p * eSStride e)
    let n := eRowLen e
    let pack := bitAt e 62
    if bitAt mask p then
      let rank := ((List.range p).filter (bitAt mask ·)).length
      mv a (eDst e + (if pack then rank else p) * n) n
      return 0
    else
      let bs ← if fld e 61 54 = 0 then pure [] else copyRead c o (eSrcPad e) a n
      if !pack then copyWrite c o (eDstPad e) (eDst e + p * n) (List.replicate n 0)
      return (if rowNonFinite (fld e 61 54) bs then flSKIPNF else 0)
  | _ =>
    mv (eSrc e + p) (eDst e + p) x.2
    return 0

/-! ### FOLLOW's command (09 R201) -/

/-- The matrix command of a FOLLOW: an MSTREAM or a load from coordinate 0 of its TID. -/
def followCmd (h : Head) (e : Entry) : MCmd :=
  let m := eMcmd e
  let cnt := match eObj e with
    | some a => 2 ^ 48 + a / 16 * 2 ^ 32
    | none => 0
  if m % 4 = 0 then
    { kind := 3, src := h.src,
      cmd := .ofNat 64 (cnt + fld m 26 19 + fld m 3 2 * 2 ^ 8 + fld m 10 4 * 2 ^ 10 + fld m 18 11 * 2 ^ 17) }
  else { kind := 0, src := h.src, cmd := .ofNat 64 (cnt + fld m 26 19 + fld m 18 11 * 2 ^ 8) }

/-- Is a FOLLOW's operand TID unusable, or its window range outside (09 R204)? -/
def followBad (s : State) (c : Nat) (x : MCmd) (t : Tensor) : Bool :=
  let n := if x.kind = 3 then streamN (activeWeights (coreOf s c).matrix) t else loadK x t * x.count_
  !t.usable || !t.pad ||
    !(((List.range (if x.kind = 3 then x.count_ else 256)).flatMap fun r => rowSpans t t.sparse r 0 n).all (spanIn x.src.size))

/-- Does an entry name a TID that a FOLLOW cannot use?  Its entry is read when the FOLLOW could start. -/
def followCheck (c q : Nat) (h : Head) (e : Entry) (s : State) : Engine Bool :=
  if eOp e != 13 || eReserved e || eUnused e then .done false s
  else match cmdTensor c (followCmd h e) s q with
    | .done t s => .done (followBad s c (followCmd h e) t) s
    | .wait o => .wait o
    | .failed s => .done true s

/-! ### The gate every entry passes -/

/-- What stands before an entry's own work; `go` gives the queue as the entry has started. -/
inductive Gate where
  | stay (o : Option State)
  | go (h : Head) (k : CopyQ) (e : Entry) (s : State)

/-- The entry of a queue as it stands: the one taken when it was read, or read now (05 R103). -/
def entryNow (c q : Nat) (s : State) : Entry × State :=
  let k := copyQOf s c q
  if k.started || k.waitEv || k.waitPwr || k.waitCond then (k.entry.toNat, s)
  else padNum c (curHead k).src k.off 32 s

/-- The index list and the mask of an entry that could start. -/
def entryLists (c : Nat) (o : Origin) (e : Entry) (s : State) : List Nat × Nat × State :=
  if eReserved e then ([], 0, s)
  else if 3 ≤ eOp e && eOp e ≤ 5 && inWin o (eIdx e) (4 * eLen e) then
    let (l, s) := readIdx c o (eIdx e) (eLen e) s
    (l, 0, s)
  else if eOp e == 6 && inWin o (fld e 251 232) ((eRows e + 7) / 8) then
    let (m, s) := padNum c o (fld e 251 232) ((eRows e + 7) / 8) s
    ([], m, s)
  else ([], 0, s)

/-- How many sinks could take from a line in this clk before queue `q` may: the matrix engine's next command, then the lower
queues (09 R209). -/
def sinksAhead (c q n : Nat) (s : State) : Nat :=
  let matrix := match (cmdsOf s c).findIdx? fun x => x.phase == 0 with
    | none => false
    | some i => match (cmdsOf s c)[i]? with
      | none => false
      | some x => bitAt x.cmd.toNat 63 && !x.evTaken && fld x.cmd.toNat 62 58 == n && match cmdTensor c x s with
        | .done t _ => nextCmd s c i t
        | _ => false
  ((List.range q).filter fun j =>
    let k := copyQOf s c j
    k.waitEv && !k.err && fld k.entry.toNat 21 17 == n).length + if matrix then 1 else 0

/-- Take an entry's event, if it waits on one and no sink before it takes the count. -/
def entryEvent (c q : Nat) (k : CopyQ) (e : Entry) (s : State) : Option State :=
  if !bitAt e 11 || k.evTaken then some s
  else if mget 0 (coreOf s c).events (fld e 21 17) ≤ sinksAhead c q (fld e 21 17) s then none
  else takeEvent c (fld e 21 17) s

/-- An entry starts, or waits for its event, its leave or room for its ranges (09 R208, R210, 04 R74). -/
def startEntryAt (c q : Nat) (h : Head) (e : Entry) (idx : List Nat) (mask : Nat) (s : State) : Gate :=
  let k := copyQOf s c q
  match entryEvent c q k e s with
  | none => .stay (if k.waitEv then none else some (modCopyQ s c q fun k => { k with entry := .ofNat 256 e, waitEv := true }))
  | some s =>
    let s := modCopyQ s c q fun k => { k with entry := .ofNat 256 e, evTaken := k.evTaken || bitAt e 11, waitEv := false }
    if 65536 < eMoves e mask && k.leave != 2 then
      .stay (if k.waitPwr then none else some (modCopyQ s c q fun k => { k with waitPwr := true }))
    else
      let (own, rs) := entryRanges e idx
      let others := (coreOf s c).ranges.filter (·.2.2 != q)
      if 64 < others.length + own.length + rs.length then .stay none
      else
        let s := modCopyQ (modCore s c fun y => { y with ranges := others ++ rs.map (widen h.src q) }) c q fun k =>
          { k with started := true, waitPwr := false, idx := idx, mask := mask, seed := s.choice,
                   mode := (ctxOf s h.src.ctx).mode }
        .go h (copyQOf s c q) e { s with choice := s.choice + 1 }

/-- The gate: the queue has an entry of this OP that has started or may start (a reserved OP is taken up as a COPY, to be
found malformed); a malformed one stops the queue (09 R200-R204). -/
def gate (op c q : Nat) (s : State) : Gate :=
  let k := copyQOf s c q
  if k.cur.isNone || k.err || k.landed || k.failed || engineStops (coreOf s c) then .stay none else
  let h := curHead k
  let (e, s) := entryNow c q s
  if eOp e != op && !(op == 1 && (eOp e == 0 || 15 ≤ eOp e)) then .stay none
  else if k.started then .go h k e s
  else
    let (idx, mask, s) := entryLists c h.src e s
    match followCheck c q h e s with
    | .wait o => .stay o
    | .failed _ => .stay none
    | .done bad s =>
      match malformed s h k.off e idx bad with
      | some r => .stay (some (stopQueue c q r e s))
      | none => startEntryAt c q h e idx mask s

/-- The entry's own work is done: it completes, and the queue goes on at `next`. -/
def landed (c q bytes flags next : Nat) (s : State) : State :=
  modCopyQ (dropRanges c q s) c q fun k =>
    { k with landed := true, bytes := k.bytes + bytes, flags := k.flags ||| flags, next := next, waitCond := false }

/-- Note progress at a stop: what is awaited is kept; what has landed counts, once a release at the object's scope may be
made (09 R207, 05 R100). -/
def progress (c q : Nat) (t : Tally) (h : Head) (e : Entry) (s : State) : State :=
  let k := copyQOf s c q
  let obj := (eObj e).map (h.src.base + ·)
  let now := objReady s c obj
  let s := modCopyQ s c q fun k =>
    { k with prog0 := t.prog, flags := k.flags ||| t.flags, bytes := if now then 0 else k.bytes + t.bytes }
  match obj with
  | some a => if now && k.bytes + t.bytes != 0 then countDown s c a (k.bytes + t.bytes) else s
  | none => s

/-- Run the units that a data entry has left, and then what follows when all have landed. -/
def runData (c q : Nat) (h : Head) (k : CopyQ) (e : Entry) (unit : Nat × Nat → M Nat)
    (fin : Tally → State → Option State) (s : State) : Option State :=
  match runUnits c q (unitBytes e k.mask) unit (leftUnits k.prog0 (unitOrder e k.seed)) { prog := k.prog0 } s with
  | .all t s => fin t s
  | .wait t o s' => if t.prog = k.prog0 then o else some (progress c q t h e (o.getD s'))
  | .failed t s => some (modCopyQ (progress c q t h e s) c q fun k => { k with failed := true })

/-- The step of a data entry that copies. -/
def copyStep (op c q : Nat) (s : State) : Option State :=
  match gate op c q s with
  | .stay o => o
  | .go h k e s => runData c q h k e (copyUnit c h.src e k.idx k.mask) (fun t s => some (landed c q t.bytes t.flags (k.off + 32) s)) s

/-- CHAIN_COPY (09 R201). -/
def execChainCopy (core q : Nat) (s : State) : Host.Outcome State Fault Refusal := .next (orSame (copyStep 1 core q) s)
/-- CHAIN_STRIDED (09 R201). -/
def execChainStrided (core q : Nat) (s : State) : Host.Outcome State Fault Refusal := .next (orSame (copyStep 2 core q) s)
/-- CHAIN_GATHER (09 R201). -/
def execChainGather (core q : Nat) (s : State) : Host.Outcome State Fault Refusal := .next (orSame (copyStep 3 core q) s)
/-- CHAIN_SCATTER (09 R201). -/
def execChainScatter (core q : Nat) (s : State) : Host.Outcome State Fault Refusal := .next (orSame (copyStep 4 core q) s)
/-- CHAIN_NMGATHER (09 R201). -/
def execChainNmgather (core q : Nat) (s : State) : Host.Outcome State Fault Refusal := .next (orSame (copyStep 5 core q) s)
/-- CHAIN_MASKROW (09 R201). -/
def execChainMaskrow (core q : Nat) (s : State) : Host.Outcome State Fault Refusal := .next (orSame (copyStep 6 core q) s)

/-! ### Instar (09 R203) -/

/-- The canonical code's first code and first symbol of each length, shortest first: (length, first code, codes, first
symbol). -/
def codeTable : List Nat → Nat → Nat → Nat → List (Nat × Nat × Nat × Nat)
  | [], _, _, _ => []
  | n :: t, l, code, sym => (l, code, n, sym) :: codeTable t (l + 1) ((code + n) * 2) (sym + n)

/-- Is the Kraft sum above 1? -/
def kraftOver (ns : List Nat) : Bool :=
  decide (65536 < ((List.range 16).foldl (fun t i => t + ns.getD i 0 * 2 ^ (15 - i)) 0))

/-- Decode one symbol from bits: the symbol's index and the bits left; none when no code matches or bits run out. -/
def nextSymbol : List (Nat × Nat × Nat × Nat) → Nat → List Bool → Option (Nat × List Bool)
  | [], _, _ => none
  | _ :: _, _, [] => none
  | (_, first, n, sym) :: t, v, b :: bs =>
    let v := 2 * v + if b then 1 else 0
    if decide (first ≤ v) && decide (v < first + n) then some (sym + v - first, bs) else nextSymbol t v bs

/-- Decode `n` symbols. -/
def instarDecode (tab : List (Nat × Nat × Nat × Nat)) (syms : List Byte) : Nat → List Bool → Option (List Byte)
  | 0, _ => some []
  | n + 1, bits =>
    match nextSymbol tab 0 bits with
    | none => none
    | some (i, rest) => (instarDecode tab syms n rest).map (syms.getD i 0 :: ·)

/-- The bits of bytes, bit 7 first. -/
def bitsOf (bs : List Byte) : List Bool := bs.flatMap fun b => (List.range 8).map fun i => b.getLsbD (7 - i)

/-- The output of an Instar entry; none when it is malformed. -/
def instarOut (c : Nat) (o : Origin) (e : Entry) : M (Option (List Byte)) := do
  let w : Who := ⟨c, o.ctx, 2⟩
  let t := tensorOf (← tidRead w (fld e 45 38) false)
  if !t.usable || !t.enc then return none
  let head ← vread w t.code 32
  let ns := (List.range 16).map (elemAt (ofBytes head) 16)
  if kraftOver ns then return none
  let syms ← vread w (t.code + 32) (ns.foldl (· + ·) 0)
  let bs ← copyRead c o (eSrcPad e) (eSrc e) (eLen e)
  return instarDecode (codeTable ns 1 0 0) syms (fld e 255 224) (bitsOf bs)

/-- CHAIN_INSTAR's step. -/
def instarStep (c q : Nat) (s : State) : Option State :=
  match gate 7 c q s with
  | .stay o => o
  | .go h k e s =>
    match runEngine c q (instarOut c h.src e) s with
    | .wait o => o
    | .failed s => some (modCopyQ s c q fun k => { k with failed := true })
    | .done none s => some (stopQueue c q 11 e s)
    | .done (some bs) s => some (landed c q bs.length 0 (k.off + 32) (engWrite s c (h.src.base + eDst e) bs))

/-- CHAIN_INSTAR (09 R203). -/
def execChainInstar (core q : Nat) (s : State) : Host.Outcome State Fault Refusal := .next (orSame (instarStep core q) s)

/-! ### Remote writes and reduces (09 R201, 05 R107) -/

/-- The window number now: FABTIME over WINLEN half microseconds (21 R378). -/
def windowNow (s : State) : Nat := fabtime s / (500 * s.mgmt.winLen.toNat)

/-- The ports of a sector. -/
def sectorPorts (x : Nat) : List Nat := (List.range 6).map (6 * x + ·)

/-- The lowest-numbered port of a sector that is up; with none, the one where remote writes wait, else the lowest (21 R365,
23 R416). -/
def sendPort (s : State) (x : Nat) : Nat :=
  let waits (p : Nat) : Bool := (mget {} s.ports p).outbox.any (·.1 == 1)
  (((sectorPorts x).find? fun p => (mget {} s.ports p).up).orElse fun _ => (sectorPorts x).find? waits).getD (6 * x)

/-- Put a packet on a port's list: VC, identity, header fields and data (21 R362, R363). -/
def postPacket (port vc ident header : Nat) (data : List Byte) (s : State) : State :=
  let d := (data.length + 31) / 32
  let v := header + d * 2 ^ 243 + vc * 2 ^ 241 + ofBytes data * 2 ^ 256
  let p : Port := mget {} s.ports port
  { s with ports := mput {} s.ports port { p with outbox := p.outbox ++ [(vc, d + 1, ident, v)] } }

/-- Send a remote write (rop 0) or reduce (ROP + 1): it is on its way until it is known applied (05 R93, log 9). -/
def sendRemote (c q : Nat) (o : Origin) (pkg va : Nat) (bs : List Byte) (rop : Nat) (det : Bool) (s : State) : State :=
  let id := s.remoteIdent + 1
  let port := sendPort s (secOf c)
  let r : Remote := {
    core := c, q := q, pkg := pkg, ctx := o.ctx, va := va, bytes := bs, window := windowNow s, rop := rop, det := det,
    sector := secOf c, src := port, ident := id }
  let header := (if rop = 0 then 0x10 else 0x11) * 2 ^ 248 + recField s o.ctx 447 440 * 2 ^ 232 + pkg * 2 ^ 224
    + recField s o.ctx 575 560 * 2 ^ 208 + va % 2 ^ 57 * 2 ^ 128 + windowNow s % 2 ^ 32 * 2 ^ 96 + (c * 8 + q) * 2 ^ 80
    + bs.length * 2 ^ 64 + (rop - 1) * 2 ^ 60 + (if det then 2 ^ 59 else 0)
  postPacket port 1 id header bs { s with sent := s.sent ++ [r], remoteIdent := id }

/-- One packet of an RWRITE or RREDUCE: at most 512 bytes. -/
def remoteUnit (c q : Nat) (o : Origin) (e : Entry) (x : Nat × Nat) : M Nat := do
  let z := if eOp e = 9 then ropSize (fld e 49 46) else 1
  let bs ← copyRead c o (eSrcPad e) (eSrc e + x.1 * z) (x.2 * z)
  modify (sendRemote c q o (fld e 45 38) ((eDst e + x.1 * z) % 2 ^ 57) bs (if eOp e = 9 then fld e 49 46 + 1 else 0)
    (eOp e == 9 && bitAt e 50))
  return 0

/-- The step of an RWRITE or RREDUCE entry. -/
def remoteStep (op c q : Nat) (s : State) : Option State :=
  match gate op c q s with
  | .stay o => o
  | .go h k e s => runData c q h k e (remoteUnit c q h.src e) (fun t s => some (landed c q t.bytes t.flags (k.off + 32) s)) s

/-- RWRITE (09 R201). -/
def execRwrite (core q : Nat) (s : State) : Host.Outcome State Fault Refusal := .next (orSame (remoteStep 8 core q) s)
/-- RREDUCE (09 R201). -/
def execRreduce (core q : Nat) (s : State) : Host.Outcome State Fault Refusal := .next (orSame (remoteStep 9 core q) s)

/-! ### LOOP, COND, QFENCE, FOLLOW, SIGNAL -/

/-- Step the SRC and DST fields of the data entries from offset `t` on (09 R202). -/
def stepBody (c : Nat) (o : Origin) (ds dd : Int) : Nat → Nat → State → State
  | 0, _, s => s
  | n + 1, t, s =>
    let (e, s) := padNum c o t 32 s
    let s := if eData e then
        let w1 := stepAddr (eSrc e) ds + fld e 127 121 * 2 ^ 57
        let w2 := stepAddr (eDst e) dd + fld e 191 185 * 2 ^ 57
        engWrite (engWrite s c (o.base + t + 8) (leBytes 8 w1)) c (o.base + t + 16) (leBytes 8 w2)
      else s
    stepBody c o ds dd n (t + 32) s

/-- CHAIN_LOOP's step: REMAIN and the stepped fields are written back into the chain (09 R202). -/
def loopStep (c q : Nat) (s : State) : Option State :=
  match gate 10 c q s with
  | .stay o => o
  | .go h k e s =>
    let o := h.src
    let n := (k.off - eTarget e) / 32
    let ds := signed 32 (fld e 95 64)
    let dd := signed 32 (fld e 159 128)
    let cnt : Int := eLen e
    let rem := fld e 255 224
    some (if 0 < rem then
        landed c q 0 0 (eTarget e) (stepBody c o ds dd n (eTarget e) (engWrite s c (o.base + k.off + 28) (leBytes 4 (rem - 1))))
      else
        landed c q 0 0 (k.off + 32) (stepBody c o (-(cnt * ds)) (-(cnt * dd)) n (eTarget e)
          (engWrite s c (o.base + k.off + 28) (leBytes 4 (eLen e)))))

/-- CHAIN_LOOP (09 R202). -/
def execChainLoop (core q : Nat) (s : State) : Host.Outcome State Fault Refusal := .next (orSame (loopStep core q) s)

/-- Test(v) of a COND (09 R202). -/
def condTest (t v x : Nat) : Bool :=
  match t with
  | 0 => v == x
  | 1 => v != x
  | 2 => decide (v < x)
  | 3 => decide (x ≤ v)
  | 4 => (v &&& x) == x
  | _ => (v &&& x) != 0

/-- One read of a COND's word and what it decides. -/
def condRead (c q : Nat) (h : Head) (k : CopyQ) (e : Entry) (s : State) : Option State :=
  match runEngine c q (copyRead c h.src (eSrcPad e) (eSrc e) 8) s with
  | .wait o => o
  | .failed s => some (modCopyQ s c q fun k => { k with failed := true })
  | .done bs s =>
    if condTest (fld e 60 58) (ofBytes bs) (fld e 255 192) then some (landed c q 0 0 (k.off + 32) s)
    else if bitAt e 61 then some (modCopyQ (dropRanges c q s) c q fun k => { k with waitCond := true, polled := s.clk })
    else some (landed c q 0 0 (eTarget e) s)

/-- CHAIN_COND's step: the first read. -/
def condStep (c q : Nat) (s : State) : Option State :=
  if (copyQOf s c q).waitCond then none else
  match gate 11 c q s with
  | .stay o => o
  | .go h k e s => condRead c q h k e s

/-- CHAIN_COND (09 R202). -/
def execChainCond (core q : Nat) (s : State) : Host.Outcome State Fault Refusal := .next (orSame (condStep core q) s)

/-- COND_POLL's step: 64 clk after the last read (09 R202). -/
def pollStep (c q : Nat) (s : State) : Option State :=
  let k := copyQOf s c q
  if !k.waitCond || k.err || k.landed || k.failed || engineStops (coreOf s c) || s.clk < k.polled + 64 then none
  else condRead c q (curHead k) k k.entry.toNat s

/-- COND_POLL (09 R202). -/
def execCondPoll (core q : Nat) (s : State) : Host.Outcome State Fault Refusal := .next (orSame (pollStep core q) s)

/-- CHAIN_QFENCE's step: the chains that the named queues hold now must end (05 R104). -/
def qfenceStep (c q : Nat) (s : State) : Option State :=
  let k0 := copyQOf s c q
  match gate 12 c q s with
  | .stay o => o
  | .go _ k e s =>
    let named := (List.range 8).filter fun j => j != q && bitAt e (38 + j)
    let goal : Map Nat := if k0.started then k.fence else named.filterMap fun j =>
      let n := (copyQOf s c j).kicks
      if n = 0 then none else some (j, n)
    if goal.all fun g => decide (g.2 ≤ (copyQOf s c g.1).ends) then
      some (landed c q 0 0 (k.off + 32) (modCopyQ s c q fun k => { k with fence := [] }))
    else if k0.started then none
    else some (modCopyQ s c q fun k => { k with fence := goal })

/-- CHAIN_QFENCE (05 R104). -/
def execChainQfence (core q : Nat) (s : State) : Host.Outcome State Fault Refusal := .next (orSame (qfenceStep core q) s)

/-- CHAIN_FOLLOW's step: the copy, then the command reaches the engine once it has room (05 R105). -/
def followStep (c q : Nat) (s : State) : Option State :=
  let k0 := copyQOf s c q
  match gate 13 c q s with
  | .stay o => o
  | .go h k e s =>
    runData c q h k e (copyUnit c h.src e [] 0) (fun t s =>
      if matrixRoom s c then some (landed c q t.bytes t.flags (k.off + 32) (acceptCmd c (followCmd h e) s))
      else if k.prog0 = eLen e && k0.started then none
      else some (progress c q t h e (dropRanges c q s))) s

/-- CHAIN_FOLLOW (05 R105). -/
def execChainFollow (core q : Nat) (s : State) : Host.Outcome State Fault Refusal := .next (orSame (followStep core q) s)

/-- What a SIGNAL does to its word; ADD is an atomic, in scratchpad order where the word lies in the window (05 R102). -/
def signalAct (c : Nat) (o : Origin) (e : Entry) : M Unit := do
  let v := fld e 255 192
  if bitAt e 41 then
    if eDstPad e then
      modify fun s =>
        let (old, s) := padRead s c o.ctx 2 (o.base + eDst e) 8 2
        engWrite s c (o.base + eDst e) (leBytes 8 (ofBytes old + v))
    else
      let _ ← vatomic ⟨c, o.ctx, 2⟩ (eDst e) 8 fun old => some ((old + v) % 2 ^ 64)
  else copyWrite c o (eDstPad e) (eDst e) (leBytes 8 v)

/-- CHAIN_SIGNAL's step: a release at its scope; at .fabric it waits for the core's remote writes (05 R94, R100, log 9). -/
def signalStep (c q : Nat) (s : State) : Option State :=
  match gate 14 c q s with
  | .stay o => o
  | .go h k e s =>
    if fld e 40 38 = 4 && remoteOut s c then none
    else match runEngine c q (signalAct c h.src e) s with
      | .wait o => o
      | .failed s => some (modCopyQ s c q fun k => { k with failed := true })
      | .done _ s => some (landed c q 0 0 (k.off + 32) s)

/-- CHAIN_SIGNAL (09 R201). -/
def execChainSignal (core q : Nat) (s : State) : Host.Outcome State Fault Refusal := .next (orSame (signalStep core q) s)

/-! ### Completion, failure, chains -/

/-- Uncount the tiles of a chain that ends (14 R295). -/
def dropTiles (c tiles : Nat) (s : State) : State :=
  ((List.range 4).filter (bitAt tiles ·)).foldl (fun s k => modTile s c k fun t => { t with count := t.count - 1 }) s

/-- The queue with its next pending head. -/
def nextHead (k : CopyQ) : CopyQ :=
  match k.heads with
  | [] => { k with cur := none }
  | h :: t => { k with heads := t, cur := some h, off := h.off }

/-- CHAIN_ENTRY_COMPLETE: flags, the count-down, the pulse, then the next entry or the chain's end (05 R104, 09 R202). -/
def entryDone (c q : Nat) (s : State) : Option State :=
  let k := copyQOf s c q
  let e := k.entry.toNat
  let h := curHead k
  let obj := (eObj e).map (h.src.base + ·)
  if !k.landed || !objReady s c obj then none else
  let s := commandFlags c h.src.ctx k.mode k.flags obj s
  let s := match obj with
    | some a => countDown s c a k.bytes
    | none => s
  let s := if bitAt e 10 then pulse c (fld e 16 12) s else s
  let s := if k.leave = 2 then dropLeave c q h.src.ctx 3 s else s
  let s := modCopyQ s c q fun k =>
    { k with landed := false, started := false, bytes := 0, flags := 0, evTaken := false, leave := 0, prog0 := 0,
             prog1 := 0, off := k.next, entry := 0, idx := [], mask := 0, seed := 0, mode := 0 }
  some (if k.next = k.off + 32 && eLast e then
      dropTiles c h.tiles (modCopyQ s c q fun k => nextHead { k with ends := k.ends + 1 })
    else s)

/-- CHAIN_ENTRY_COMPLETE (05 R104). -/
def execChainEntryComplete (core q : Nat) (s : State) : Host.Outcome State Fault Refusal := .next (orSame (entryDone core q) s)

/-- CHAIN_ACCESS_FAILED: the entry stops at its failed access (24 R426). -/
def failStep (c q : Nat) (s : State) : Option State :=
  let k := copyQOf s c q
  if k.failed then some (stopQueue c q 12 k.entry.toNat s) else none

/-- CHAIN_ACCESS_FAILED (24 R426). -/
def execChainAccessFailed (core q : Nat) (s : State) : Host.Outcome State Fault Refusal := .next (orSame (failStep core q) s)

/-! ### KICK and QSTAT (14 R306) -/

/-- KICK's head range. -/
def kickCheck (a : BitVec 6) : Check := fun ls s =>
  rangeCheck ((getX (iLane s (leader ls)) (rA s a)).toNat % 2 ^ 20) 32 32 s

/-- KICK: it lists a head and counts its tiles, or resumes a stopped queue at its entry; a full list stalls (09 R199,
24 R425). -/
def execKick (c : BitVec 1) (g n : BitVec 3) (a : BitVec 6) (t : BitVec 4) (s : State) : Host.Outcome State Fault Refusal :=
  .next (issueE (.kick c g n a t) g (kickCheck a) (fun ls s =>
    let k := s.issue.core
    let q := copyQOf s k n.toNat
    let off := (getX (iLane s (leader ls)) (rA s a)).toNat % 2 ^ 20
    if q.err && q.off == off then modCopyQ s k n.toNat fun q => { q with err := false, failed := false }
    else if 16 ≤ q.heads.length then stallIssue s
    else
      let h : Head := ⟨off, t.toNat, originOf ls s⟩
      let s := ((List.range 4).filter (bitAt t.toNat ·)).foldl (fun s j =>
        modTile s k j fun x => { x with count := x.count + 1 }) s
      modCopyQ s k n.toNat fun q =>
        let q := { q with kicks := q.kicks + 1 }
        if q.cur.isNone then { q with cur := some h, off := off } else { q with heads := q.heads ++ [h] }) s)

/-- The status word of R205. -/
def queueStatus (k : CopyQ) : Nat :=
  let b (x : Bool) (i : Nat) : Nat := if x then 2 ^ i else 0
  b k.err 63 + b k.cur.isSome 62 + b k.waitEv 61 + b k.waitPwr 60 + b k.waitCond 59 + k.heads.length * 2 ^ 54 + k.off % 2 ^ 20

/-- QSTAT: the status as it stands at issue, 8 clk later (14 R306). -/
def execQstat (c : BitVec 1) (g : BitVec 3) (d : BitVec 6) (n : BitVec 3) (s : State) : Host.Outcome State Fault Refusal :=
  .next (issueE (.qstat c g d n) g noCheck (fun ls s =>
    putX s (rD s d) 8 (ls.map fun l => (l, .ofNat 64 (queueStatus (copyQOf s s.issue.core n.toNat))))) s)

/-! ### Power leave (01 R21, 24 R432) -/

/-- The charge that a unit's next command asks for and has not asked yet; unit 8 is the matrix engine. -/
def leaveAsk (c u : Nat) (s : State) : Option (Nat × Nat × State) :=
  if u = 8 then
    match (cmdsOf s c).findIdx? fun x => x.phase == 0 with
    | none => none
    | some i =>
      match (cmdsOf s c)[i]? with
      | none => none
      | some x =>
        match cmdTensor c x s with
        | .done t s =>
          let w := cmdWatts s c x t
          if w == 0 || x.leave != 0 || !nextCmd s c i t then none
          else (cmdEvent c i x s).map fun s => (i, w, s)
        | _ => none
  else
    let k := copyQOf s c u
    if k.waitPwr && k.leave == 0 && !k.err then some (0, 3, s) else none

/-- Refuse a request: the command is discarded, or the queue stops; logged (24 R432). -/
def refuseLeave (c u i w : Nat) (s : State) : State :=
  if u = 8 then
    let ctx := match (cmdsOf s c)[i]? with | some x => x.src.ctx | none => 0
    logRefused c 8 ctx w (discardCmd c i s)
  else
    let ctx := (curHead (copyQOf s c u)).src.ctx
    logRefused c u ctx w (modCopyQ s c u fun k => { k with err := true, waitPwr := false, started := false, leave := 0 })

/-- The request of a unit's next command; matrix commands are numbered by the scheduler of their warp (01 R21). -/
def leaveOf (c u i w : Nat) (again : Bool) (s : State) : LeaveReq :=
  let o := if u = 8 then (match (cmdsOf s c)[i]? with | some x => x.src | none => {}) else (curHead (copyQOf s c u)).src
  { core := c, unit_ := u, watts := w, since := s.clk, ctx := o.ctx, again := again, rank := if u = 8 then o.slot / 16 else u }

/-- LEAVE_REQUEST's step. -/
def requestStep (c u : Nat) (s : State) : Option State :=
  match leaveAsk c u s with
  | none => none
  | some (i, w, s) =>
    if pglim s (secOf c) < 380 + w then some (refuseLeave c u i w s)
    else
      let s := addRequest (leaveOf c u i w false s) s
      some (if u = 8 then modCmd s c i fun x => { x with leave := 1, watts := w }
        else modCopyQ s c u fun k => { k with leave := 1 })

/-- LEAVE_REQUEST (01 R21). -/
def execLeaveRequest (core unit_ : Nat) (s : State) : Host.Outcome State Fault Refusal := .next (orSame (requestStep core unit_) s)

/-- LEAVE_GRANT's step: the oldest request, when its charge fits. -/
def grantStep (x : Nat) (s : State) : Option State :=
  match (sectorOf s x).requests with
  | [] => none
  | r :: rest =>
    if pglim s x < committed s x + r.watts then none
    else
      let s := if waitedLong s r then setThrottled s x else s
      let s := modSector s x fun k => { k with requests := rest, held := k.held ++ [r] }
      some (if r.unit_ = 8 then
          match (cmdsOf s r.core).findIdx? fun y => y.leave == 1 with
          | some i => modCmd s r.core i fun y => { y with leave := 2 }
          | none => s
        else modCopyQ s r.core r.unit_ fun k => { k with leave := 2 })

/-- LEAVE_GRANT (01 R21). -/
def execLeaveGrant (sector : Nat) (s : State) : Host.Outcome State Fault Refusal := .next (orSame (grantStep sector) s)

/-- Refuse every waiting request that can no longer fit (24 R432). -/
def refuseAll (x : Nat) (s : State) : State :=
  ((sectorOf s x).requests.filter fun r => pglim s x < 380 + r.watts).foldl (fun s r =>
    let i := ((cmdsOf s r.core).findIdx? fun y => y.leave == 1).getD 0
    let s := dropRequest r.core r.unit_ s
    refuseLeave r.core r.unit_ i r.watts s) s

/-- PGLIM_WRITE's step: the four limits never sum to more than 3,800 W (01 R22). -/
def setLimit (p : Power) (x v : Nat) : Power :=
  let others := p.lim0 + p.lim1 + p.lim2 + p.lim3 - (match x with | 0 => p.lim0 | 1 => p.lim1 | 2 => p.lim2 | _ => p.lim3)
  let n := min v (Config.packageWatts - others)
  let p := if n < v then { p with clamped := p.clamped ||| (1#4 <<< x) } else p
  match x with
  | 0 => { p with lim0 := n } | 1 => { p with lim1 := n } | 2 => { p with lim2 := n } | _ => { p with lim3 := n }

/-- PGLIM_WRITE (01 R22, 24 R432). -/
def execPglimWrite (sector : Nat) (v : Word) (s : State) : Host.Outcome State Fault Refusal :=
  .next (whenReady s fun s =>
    if sector < 4 then refuseAll sector { s with power := setLimit s.power sector (v.toNat % 65536) } else s)

/-- THROTTLED: a request has waited longer than 200 ns (01 R22, log 49). -/
def throttleStep (x : Nat) (s : State) : Option State :=
  if x < 4 && !s.power.throttled.getLsbD x && (sectorOf s x).requests.any (waitedLong s) then some (setThrottled s x) else none

/-- THROTTLED (01 R22). -/
def execThrottled (sector : Nat) (s : State) : Host.Outcome State Fault Refusal := .next (orSame (throttleStep sector) s)

end Sys2Proof.Machine
end

