-- ==== Sys2Proof/Machine/Launch.lean ====
section
/-! DEFINITION. Launch queues: publication, entries, the checks of a LAUNCH, placement and the end of a grid (03 R44-R57,
07 R153-R164, 15 R325, 21 R375, 23 R412). -/

namespace Sys2Proof.Machine

/-! ### The ring (03 R44) -/

/-- SIZELOG and the base of a ring. -/
def ringLog (k : LQueue) : Nat := k.base.toNat % 32
def ringBase (k : LQueue) : Nat := fld k.base.toNat 56 12 * 4096
/-- Has the host configured the queue? -/
def ringOk (k : LQueue) : Bool := 12 ≤ ringLog k && ringLog k ≤ 24 && ringBase k % 2 ^ ringLog k == 0

/-- The words of a ring from an offset on. -/
def ringRead (w : Who) (k : LQueue) (off n : Nat) : M (List Nat) :=
  (List.range n).mapM fun i => vreadN w (ringBase k + (off + 8 * i) % 2 ^ ringLog k) 8

/-! ### Publication (03 R45, 15 R325) -/

/-- LQPUB: each thread's packet is on its way to the arbiter, in lane order; the word is a release at .package. -/
def execLqpub (c : BitVec 1) (g : BitVec 3) (a b : BitVec 6) (s : State) : Host.Outcome State Fault Refusal :=
  .next (issueE (.lqpub c g a b) g (firstBad fun s l =>
      let o := getX (iLane s l) (rB s b)
      if o.toNat % 8 ≠ 0 then some (0x05, o) else none) (fun ls s =>
    let w := iWarp s
    ls.foldl (fun s l =>
      let q := (getX (iLane s l) (rA s a)).toNat % 64
      let o := (getX (iLane s l) (rB s b)).toNat
      modQueue s w.ctx q fun k => { k with arriving := k.arriving ++ [(o, w.launch)] }) s) s)

/-- The tail passes the published bytes that touch it. -/
def absorbPubs : Nat → LQueue → LQueue
  | 0, k => k
  | n + 1, k =>
    match k.pubs.find? fun p => p.1 ≤ k.tail && k.tail < p.2.1 with
    | some p => absorbPubs n { k with tail := p.2.1 }
    | none => k

/-- Publish everything below an offset (03 R45). -/
def publishTo (v : Nat) (k : LQueue) : LQueue := absorbPubs k.pubs.length { k with tail := max k.tail v }

/-- A publication that publishes nothing is logged (15 R325, log 11). -/
def logPublish (ctx off : Nat) (s : State) : State := logCore s (sectorUnit (ctxSector s ctx)) ctx 0x43 off 0

/-- PUBLICATION_ARRIVAL's step: the oldest publication of a queue reaches the arbiter, which reads its header once. -/
def arriveStep (ctx q : Nat) (s : State) : Option State :=
  let k := queueOf s ctx q
  match k.arriving with
  | [] => none
  | (off, tag) :: rest =>
    if !(ctxOf s ctx).in_ then none else
    let drop (s : State) : State := modQueue s ctx q fun k => { k with arriving := rest }
    let refuse (s : State) : State := logPublish ctx off (drop s)
    if !ringOk k || off < k.tail || k.reserve.toNat ≤ off || k.pubs.any (fun p => p.1 ≤ off && off < p.2.1) then some (refuse s)
    else
      match runHeld k.pubWait k.pubFailed (fun w s => modQueue s ctx q fun k => { k with pubWait := w, pubFailed := false })
        (ringRead (ctxWho s ctx 15) k off 1) (deliverAll s) with
      | .wait o => o
      | .failed s => some (refuse s)
      | .done ws s =>
        let len := fld (ws.headD 0) 23 16
        let fin := off + 8 * len
        if len < 1 || 33 < len || k.reserve.toNat < fin || k.pubs.any (fun p => p.1 < fin && off < p.2.1) then some (refuse s)
        else some (modQueue (drop s) ctx q fun k =>
          let pubs := k.pubs ++ [(off, fin, len, tag + 1)]
          absorbPubs pubs.length { k with pubs := pubs })

/-- PUBLICATION_ARRIVAL (03 R45). -/
def execPublicationArrival (ctx q : Nat) (s : State) : Host.Outcome State Fault Refusal := .next (orSame (arriveStep ctx q) s)

/-! ### The queue's registers (21 R375, 23 R412) -/

/-- Do register writes of a context's queues go to their shadows? -/
def shadowed (s : State) (ctx : Nat) : Bool := !(ctxOf s ctx).in_ || (ctxOf s ctx).saving != 0

/-- A write of LQTAIL. -/
def tailWrite (ctx q : Nat) (v : Word) (s : State) : State :=
  modQueue s ctx q fun k =>
    if shadowed s ctx then { k with shadowTail := some (max v.toNat (k.shadowTail.getD 0)) } else publishTo v.toNat k

/-- LQTAIL_WRITE. -/
def execLqtailWrite (ctx q : Nat) (v : Word) (s : State) : Host.Outcome State Fault Refusal := .next (whenReady s (tailWrite ctx q v))

/-- Clearing ERR: the entry counts as ended and the queue goes on with the next; a sync point that had begun continues
(21 R375, 24 R423). -/
def clearErr (ctx q : Nat) (s : State) : State :=
  let k := queueOf s ctx q
  if !k.err then s
  else if k.errlen = 0 then queueAdvance ctx q (modQueue s ctx q fun k => { k with err := false })
  else queueAdvance ctx q (modQueue s ctx q fun k =>
    let fin := k.erroff + k.errlen
    { k with err := false, errlen := 0, next := fin, pubs := k.pubs.filter fun p => fin < p.2.1,
             entries := k.entries ++ [{ off := k.erroff, fin := fin, kind := 0, ended := true }] })

/-- A reset: ignored while an entry runs. -/
def resetQueue (ctx q : Nat) (s : State) : State :=
  let k := queueOf s ctx q
  if k.entries.any (!·.ended) then s
  else modCtx (modQueue s ctx q fun k =>
    { k with reserve := 0, tail := 0, prog := 0, next := 0, pubs := [], entries := [], inherited := [], errlen := 0,
             wait := none, failed := false }) ctx fun x =>
    { x with launches := x.launches.map fun e => if e.2.q == q then (e.1, { e.2 with batched := true }) else e }

/-- A write of EN. -/
def enableQueue (ctx q : Nat) (en : Bool) (s : State) : State := modQueue s ctx q fun k => { k with en := en }

/-- A write of LQCTL as a whole: RESET before ERR and EN. -/
def ctlApply (ctx q : Nat) (v : Word) (s : State) : State :=
  let s := if v.getLsbD 61 then resetQueue ctx q s else s
  let s := if v.getLsbD 62 then clearErr ctx q s else s
  enableQueue ctx q (v.getLsbD 63) s

/-- A write of LQCTL, or its shadow. -/
def ctlWrite (ctx q : Nat) (v : Word) (s : State) : State :=
  if shadowed s ctx then modQueue s ctx q fun k => { k with shadowCtl := k.shadowCtl ++ [v] } else ctlApply ctx q v s

/-- LQCTL's value with only some bits of a write: EN as it stands, and the bit `n`. -/
def ctlBit (s : State) (ctx q n : Nat) : Word :=
  (if (queueOf s ctx q).en then 1#64 <<< 63 else 0) ||| 1#64 <<< n

/-- LQCTL_ERR_CLEAR. -/
def execLqctlErrClear (ctx q : Nat) (s : State) : Host.Outcome State Fault Refusal := .next (whenReady s (ctlWrite ctx q (ctlBit s ctx q 62)))
/-- LQCTL_RESET. -/
def execLqctlReset (ctx q : Nat) (s : State) : Host.Outcome State Fault Refusal := .next (whenReady s (ctlWrite ctx q (ctlBit s ctx q 61)))
/-- LQCTL_ENABLE. -/
def execLqctlEnable (ctx q : Nat) (en : Bool) (s : State) : Host.Outcome State Fault Refusal :=
  .next (whenReady s (ctlWrite ctx q (if en then 1#64 <<< 63 else 0)))

/-- At switch-in the shadows act: the tail first, then the LQCTL writes in order (23 R412). -/
def applyShadow (ctx q : Nat) (s : State) : State :=
  let k := queueOf s ctx q
  let s := modQueue s ctx q fun k =>
    match k.shadowTail with
    | some v => publishTo v { k with shadowTail := none, shadowCtl := [] }
    | none => { k with shadowCtl := [] }
  k.shadowCtl.foldl (fun s v => ctlApply ctx q v s) s

/-! ### What a LAUNCH must satisfy (03 R48-R55) -/

/-- PADSIZE, named barriers, SYSTEM and SYNCAFTER. -/
def padSizeOf (la : Launch) : Nat := fld (launchField la 10) 20 0
def barsOf (la : Launch) : Nat := fld (launchField la 10) 31 21
def flagSystem (la : Launch) : Bool := bitAt (launchField la 0) 2
def flagSyncAfter (la : Launch) : Bool := bitAt (launchField la 0) 1
def flagAfterPrev (la : Launch) : Bool := bitAt (launchField la 0) 0
/-- Work-groups of a role per team. -/
def roleCount (la : Launch) (r : Nat) : Nat := launchField la 9 / 2 ^ (16 * r) % 2 ^ 16
/-- Is the level above the work-groups a team level? -/
def hasTeam (la : Launch) : Bool := coreLevel la + 2 < levelCount la
/-- Work-groups of a team. -/
def teamSize (la : Launch) : Nat := if hasTeam la then packetExtent la (coreLevel la) else 1
/-- The role of a work-group by its place in its team (03 R55). -/
def roleOf (la : Launch) (n : Nat) : Nat :=
  let i := n % packetExtent la (coreLevel la)
  if nRoles la = 0 then 0
  else if i < roleCount la 0 then 0
  else if i < roleCount la 0 + roleCount la 1 then 1 else 2

/-- Registers present. -/
def roleOk (la : Launch) (r : Nat) : Bool := 32 ≤ roleRegs la r && roleRegs la r ≤ 1024
/-- The roles present. -/
def rolesPresent (la : Launch) : List Nat := List.range (max 1 (nRoles la))

/-- The narrowest scope that a domain allows (03 R52). -/
def minScope (d : Nat) : Nat := if d ≤ 2 then 0 else d - 2

/-- The levels' rules (03 R52). -/
def levelsOk (la : Launch) (fabdom fabcount : Nat) : Bool :=
  let n := levelCount la
  let lv := launchField la 1
  let is := List.range n
  1 ≤ n && n ≤ 8 && fld lv 63 52 == 0
  && ((List.range 8).all fun i => i < n || (levelDomain la i == 0 && levelScope la i == 0))
  && (is.all fun i => levelDomain la i != 7 && levelScope la i ≤ 4 && minScope (levelDomain la i) ≤ levelScope la i
    && packetExtent la i != 0 && (i == 0 || levelDomain la (i - 1) ≤ levelDomain la i))
  && levelDomain la 0 == 0 && packetExtent la 0 ≤ 32
  && (is.filter fun i => levelDomain la i == 2).length == 1
  && groupThreads la ≤ 2048
  && (if levelDomain la (n - 1) == 6 then packetExtent la (n - 1) == fabcount else packetExtent la (n - 1) == 1)
  && (fabdom != 0 || !fabricBound la)

/-- A work-group's needs on a core. -/
structure Need where
  warps : Nat
  regs : Nat
  pad : Nat
  bars : Nat

/-- The needs of a work-group of a role. -/
def needOf (la : Launch) (r : Nat) : Need := ⟨groupWarps la, roleRegs la r, padSizeOf la, barsOf la⟩

/-- Does a work-group fit what a core has left: warp slots, registers, scratchpad, barriers? -/
def fitsLeft (n : Need) (left : Nat × Nat × Nat × Nat) : Bool :=
  n.warps ≤ left.1 && n.warps * n.regs ≤ left.2.1 && padRound n.pad ≤ left.2.2.1 && n.bars ≤ left.2.2.2

/-- Put a work-group on the core with the most free slots. -/
def putLeft (n : Need) (cores : List (Nat × Nat × Nat × Nat)) : Option (List (Nat × Nat × Nat × Nat)) :=
  let best := cores.zipIdx.foldl (fun (b : Option (Nat × Nat)) e =>
    if fitsLeft n e.1 && (match b with | some x => x.1 < e.1.1 | none => true) then some (e.1.1, e.2) else b) none
  best.map fun b => cores.modify b.2 fun l => (l.1 - n.warps, l.2.1 - n.warps * n.regs, l.2.2.1 - padRound n.pad, l.2.2.2 - n.bars)

/-- Does a team fit on empty cores? -/
def teamFits (cores : Nat) (needs : List Need) : Bool :=
  (needs.foldl (fun c n => c.bind (putLeft n)) (some (List.replicate cores (64, 4096, 1048576, 1024)))).isSome

/-- Cores of a domain (03 R53). -/
def domainCores (s : State) (ctx d : Nat) : Nat :=
  if d ≤ 3 then 4 else if d = 4 then 48
  else 48 * ((List.range 4).filter fun x => (partAt s (ctx / 64)).sectors.getLsbD x).length

/-- The packet's own fields (03 R48-R55); `la` holds them as inherited. -/
def packetOk (s : State) (ctx : Nat) (la : Launch) : Bool :=
  let f (i : Nat) := launchField la i
  let w := coreLevel la
  f 0 < 8 && (!flagSyncAfter la || flagSystem la)
  && levelsOk la (recField s ctx 575 560) (recField s ctx 648 640)
  && ((List.range 3).all fun r => fld (f (6 + r)) 63 59 == 0) && fld (f 9) 63 50 == 0 && fld (f 10) 63 32 == 0
  && !bitAt (f 11) 57 && fld (f 16) 63 21 == 0
  && ((rolesPresent la).all (roleOk la))
  && padSizeOf la ≤ 1048576 && padSizeOf la % 64 == 0
  && 1 ≤ barsOf la && barsOf la ≤ 1024
  && (stockLog la == 0 || (8 ≤ stockLog la && stockLog la ≤ 20)) && fld (f 11) 56 0 % 64 == 0
  && taskPad la ≤ 1048576 && taskPad la % 64 == 0
  && (nRoles la == 0 || (hasTeam la
    && packetExtent la w == ((List.range (nRoles la)).map (roleCount la)).foldl (· + ·) 0))
  && ((rolesPresent la).all fun r => fitsLeft (needOf la r) (64, 4096, 1048576, 1024))
  && (let n := domainCores s ctx (levelDomain la (w + 1))
    !hasTeam la || (teamSize la ≤ 64 * n && teamFits n ((List.range (teamSize la)).map fun i => needOf la (roleOf la i))))
  && (f 13 == 0 || (w + 2 == levelCount la && packetExtent la (w + 1) == 1))

/-- Read the records that a LAUNCH names and complete it, or find it malformed (03 R48, 07 R153, R162, R164). -/
def launchRecords (w : Who) (q : Nat) (la : Launch) : M (Option Launch) := do
  let f (i : Nat) := launchField la i
  let mut la := la
  if flagSystem la then
    let v ← vreadN w (f 15) 264
    match ← worldGet w (v % 256) with
    | none => return none
    | some x =>
      if fld v 63 8 != 0 || !x.owner || x.sysq != q then return none
      la := { la with system := true, world := x.num, rset := fld v 1087 64, wset := fld v 2111 1088 }
  if f 13 != 0 then
    let v ← vreadN w (f 13) 736
    if queryBad v then return none
    if (← worldGet w (qWorld v)).isNone then return none
    la := { la with query := v, world := if la.system then la.world else qWorld v }
  if f 14 != 0 then
    let n := (← vreadN w (f 14) 8) % 64
    if 32 < n then return none
    let ws ← (List.range n).mapM fun i => vreadN w (f 14 + 8 * (i + 1)) 8
    for b in ws do
      let reg := fld b 15 10
      if fld b 63 18 != 0 || reg < 2 || (rolesPresent la).any (roleRegs la · ≤ reg) then return none
      if bitAt b 17 then
        if !la.system || !bitAt la.wset (b % 1024) then return none
        match ← worldGet w la.world with
        | none => return none
        | some x =>
          let d ← compDesc w x (b % 1024)
          if !(compValid d && bitAt d 30) then return none
    la := { la with binds := ws }
  return some la

/-! ### Starting entries (03 R46-R49, R57) -/

/-- Stop a queue at its next entry, of `len` bytes. -/
def stopEntry (ctx q len : Nat) (s : State) : State :=
  modQueue (queueError ctx q (queueOf s ctx q).next s) ctx q fun k => { k with errlen := len }

/-- The publication that begins at the queue's next entry: LEN and parent. -/
def pubAt (k : LQueue) : Option (Nat × Nat × Nat × Nat) := k.pubs.find? (·.1 == k.next)

/-- Is a header's own form right (03 R47, R48)? -/
def headerOk (k : LQueue) (h : Nat) : Bool :=
  let kind := fld h 31 24
  let len := fld h 23 16
  let fm := fld h 63 32
  h % 65536 == 0 && kind ≤ 3 && 1 ≤ len && len ≤ 33
  && (match kind with
    | 1 => fm / 2 ^ 17 == 0 && len == 1 + ((List.range 17).filter (bitAt fm)).length
    | 2 => fm == 0 && len == 2
    | 3 => fm == 0 && len == 1
    | _ => fm == 0)
  && (match pubAt k with | some p => p.2.2.1 == len | none => true)

/-- The header of a queue's next entry, where it can be read. -/
def headerNow (w : Who) (k : LQueue) (s : State) : Option Nat := (quiet s (ringRead w k k.next 1)).map fun hs => hs.headD 0

/-- The bytes that clearing ERR passes over. -/
def skipLen (k : LQueue) (h : Option Nat) : Nat :=
  match pubAt k, h with
  | some p, _ => p.2.1 - p.1
  | none, some h => if 1 ≤ fld h 23 16 && fld h 23 16 ≤ 33 then 8 * fld h 23 16 else 8
  | none, none => 8

/-- The arbiter goes past an entry that has started; its publication is kept until its bytes are free. -/
def passEntry (ctx q fin : Nat) (e : List QEntry) (s : State) : State :=
  modQueue s ctx q fun k => { k with next := fin, pubs := k.pubs.filter fun p => k.prog < p.2.1, entries := k.entries ++ e }

/-- Start the next entry of a queue, if it has this KIND: `body` gets the entry's words and its end.  A malformed header is
the launch arm's. -/
def startEntry (kind ctx q : Nat) (body : LQueue → List Nat → Nat → State → Option State) (s : State) : Option State :=
  let k := queueOf s ctx q
  if !queueOpen s ctx q || k.wait.isSome || !ringOk k || k.tail ≤ k.next
    || k.entries.any (fun e => !e.ended && (e.kind == 2 || e.kind == 4)) then none
  else
    let w := ctxWho s ctx 15
    match runQueue ctx q (ringRead w k k.next 1) (deliverAll s) with
    | .wait o => if kind = 1 then o else none
    | .failed s => if kind = 1 then some (stopEntry ctx q (skipLen k (headerNow w k s)) s) else none
    | .done hs s =>
      let h := hs.headD 0
      let fin := k.next + 8 * fld h 23 16
      if !headerOk k h then
        if kind = fld h 31 24 || (kind = 1 && 3 < fld h 31 24) then some (stopEntry ctx q (skipLen k (some h)) s) else none
      else if fld h 31 24 ≠ kind || k.tail < fin then none
      else match runQueue ctx q (ringRead w k k.next (fld h 23 16)) s with
        | .wait o => o
        | .failed s => some (stopEntry ctx q (skipLen k (some h)) s)
        | .done ws s => body k ws fin s

/-- QUEUE_NOP's step. -/
def nopStep (ctx q : Nat) (s : State) : Option State :=
  startEntry 0 ctx q (fun k _ fin s =>
    some (queueAdvance ctx q (passEntry ctx q fin [{ off := k.next, fin := fin, kind := 0, ended := true }] s))) s

/-- QUEUE_NOP (03 R47). -/
def execQueueNop (ctx q : Nat) (s : State) : Host.Outcome State Fault Refusal := .next (orSame (nopStep ctx q) s)

/-- QUEUE_FENCE's step: it ends, and later entries may start, once every earlier entry has ended. -/
def queueFenceStep (ctx q : Nat) (s : State) : Option State :=
  startEntry 3 ctx q (fun k _ fin s =>
    if k.entries.any (!·.ended) then none
    else some (queueAdvance ctx q (passEntry ctx q fin [{ off := k.next, fin := fin, kind := 3, ended := true }] s))) s

/-- QUEUE_FENCE (03 R47). -/
def execQueueFence (ctx q : Nat) (s : State) : Host.Outcome State Fault Refusal := .next (orSame (queueFenceStep ctx q) s)

/-- QUEUE_WSYNC's step: judged when every earlier entry has ended, which is when it starts (07 R155). -/
def wsyncStep (ctx q : Nat) (s : State) : Option State :=
  startEntry 2 ctx q (fun k ws fin s =>
    if k.entries.any (!·.ended) then none else
    let v := ws.getD 1 0
    match runQueue ctx q (worldGet (ctxWho s ctx 6) (v % 256)) s with
    | .wait o => o
    | .failed s => some (stopEntry ctx q 16 s)
    | .done none s => some (stopEntry ctx q 16 s)
    | .done (some x) s =>
      if v / 2 ^ 9 != 0 || !x.owner || 2 ^ 48 - 2 ≤ x.version then some (stopEntry ctx q 16 s)
      else some (passEntry ctx q fin [{ off := k.next, fin := fin, kind := 2, world := v % 256, nocompact := bitAt v 8 }] s)) s

/-- QUEUE_WSYNC (07 R155). -/
def execQueueWsync (ctx q : Nat) (s : State) : Host.Outcome State Fault Refusal := .next (orSame (wsyncStep ctx q) s)

/-- The fields of a LAUNCH with absent ones inherited (03 R49). -/
def inheritFields (old : List Word) (ws : List Nat) : List Word :=
  let fm := fld (ws.headD 0) 63 32
  (List.range 17).map fun i =>
    if bitAt fm i then .ofNat 64 (ws.getD (1 + ((List.range i).filter (bitAt fm)).length) 0) else old.getD i 0

/-- Work-groups of a launch in this package, once its extents are known. -/
def groupTotal (la : Launch) : Nat :=
  let n := levelCount la
  let top := if levelDomain la (n - 1) == 6 then n - 1 else n
  ((la.extents.take top).drop (coreLevel la)).foldl (· * ·) 1

/-- The number of the next launch of a context. -/
def launchTag (all : Map Launch) : Nat := all.foldl (fun m e => max m e.1) 0 + 1
/-- Has a launch that has not ended the same 8-bit tag as a number?  A launch starts once none has (03 R58, R68, log 55). -/
def tagTaken (all : Map Launch) (n : Nat) : Bool := all.any fun e => !e.2.done && e.1 % 256 == n % 256

/-- QUEUE_LAUNCH's step: AFTERPREV, the parent of a child, then the judgement of the entry. -/
def launchStep (ctx q : Nat) (s : State) : Option State :=
  startEntry 1 ctx q (fun k ws fin s =>
    let parent := match pubAt k with | some p => p.2.2.2 | none => 0
    let la : Launch := { ctx := ctx, q := q, off := k.next, fields := inheritFields k.inherited ws, parent := parent }
    let prevEnded := match k.entries.getLast? with | some e => e.ended | none => true
    if (flagAfterPrev la && !prevEnded) || (parent != 0 && !(launchOf s ctx (parent - 1)).done) then none
    else
      let len := fin - k.next
      if !packetOk s ctx la then some (stopEntry ctx q len s)
      else match runQueue ctx q (launchRecords (ctxWho s ctx 15) q la) s with
        | .wait o => o
        | .failed s => some (stopEntry ctx q len s)
        | .done none s => some (stopEntry ctx q len s)
        | .done (some la) s =>
          let all := (ctxOf s ctx).launches
          let tag := launchTag all
          if tagTaken all tag then none else
          let seq := (all.filter fun e => e.2.system && !e.2.batched && e.2.world == la.world && e.2.q == q).length
          let la := { la with sysseq := seq, before := k.inherited, extents := (List.range (levelCount la)).map (packetExtent la) }
          let la := { la with total := groupTotal la }
          let sync : List QEntry := if flagSyncAfter la then [{ off := k.next, fin := fin, kind := 4, world := la.world }] else []
          let s := passEntry ctx q fin ({ off := k.next, fin := fin, kind := 1, launch := tag } :: sync) s
          let s := modQueue s ctx q fun k => { k with inherited := la.fields }
          some (modLaunch s ctx tag fun _ => la)) s

/-- QUEUE_LAUNCH (03 R49). -/
def execQueueLaunch (ctx q : Nat) (s : State) : Host.Outcome State Fault Refusal := .next (orSame (launchStep ctx q) s)

/-! ### Binding (07 R160-R164) -/

/-- The systems of a launch's batch before it. -/
def earlierSystems (s : State) (la : Launch) : List Launch :=
  (ctxOf s la.ctx).launches.filterMap fun e =>
    if e.2.system && !e.2.batched && e.2.world == la.world && e.2.q == la.q && e.2.sysseq < la.sysseq then some e.2 else none

/-- Does an earlier system that conflicts still run (07 R154)? -/
def conflicts (s : State) (la : Launch) : Bool :=
  (earlierSystems s la).any fun o =>
    !o.done && (o.wset &&& (la.rset ||| la.wset) != 0 || la.wset &&& (o.rset ||| o.wset) != 0)

/-- Copy the front column of a type to its back column, for every row visible at `v` (07 R161). -/
def seedCopy (w : Who) (x : World) (v c : Nat) : M Unit := do
  for a in List.range x.archCount do
    let sig ← sigRead w x a
    if bitAt sig c then
      let (cols, _) ← columns w x (sig % 2 ^ (c + 1))
      match cols.getLast? with
      | none => pure ()
      | some col =>
        for (_, p) in ← chunksOf w x a do
          let vs ← versRead w p
          for r in (List.range 1024).filter fun r => visible vs r v do
            vwrite w (p + col.at (v + 1) + col.size * r) (← vread w (p + col.at v + col.size * r) col.size)

/-- What becomes of a launch that would bind: it waits while an older view is open on a paired type that it writes, its world
or its query's is not valid, or it is bound. -/
inductive Bound where
  | later | invalid
  | bound (la : Launch)

/-- The paired types that a system writes (07 R161). -/
def pairedTypes (w : Who) (x : World) (la : Launch) : M (List Nat) :=
  if la.system then (typesOf la.wset).filterM fun c => do
    let d ← compDesc w x c
    return compValid d && bitAt d 30
  else pure []

/-- Copy the types with SEEDCOPY of which a batch's first writer is about to run, and let the copies reach every sector. -/
def seedTypes (w : Who) (x : World) (la : Launch) (paired : List Nat) : M Unit := do
  let before := (earlierSystems (← get) la).foldl (fun m o => m ||| o.wset) 0
  for c in paired do
    if !bitAt before c && bitAt (← compDesc w x c) 29 then seedCopy w x x.version c
  modify deliverAll

/-- The rows of a launch's query at its view, and the extent of its work-group level that they give (07 R163). -/
def bindRows (w : Who) (x : World) (la : Launch) : M Launch := do
  let tok := qToken la.query
  let rows ← matchRows w x la.query (if tok != 0 then tok % 2 ^ 48 else if x.num == la.world then la.view else x.version)
  let t := groupThreads la
  let la := { la with rows := rows, extents := la.extents.set (coreLevel la) (max 1 ((rows.length + t - 1) / t)) }
  return { la with total := groupTotal la }

/-- Bind a launch before its first work-group: its view, the copies of its batch's first writer, its rows. -/
def bindLaunch (w : Who) (la : Launch) : M Bound := do
  let mut la := la
  if la.world != 0 then
    match ← worldGet w la.world with
    | none => return .invalid
    | some x =>
      let paired ← pairedTypes w x la
      if !paired.isEmpty then
        match ← oldestView w x with
        | some o => if o < x.version then return .later
        | none => pure ()
      if !paired.isEmpty then seedTypes w x la paired
      let tok := qToken la.query
      la := { la with bound := true, view := if tok != 0 then tok % 2 ^ 48 else x.version, viewsPa := ← viewsPa w x }
  if la.query != 0 then
    match ← worldGet w (qWorld la.query) with
    | none => return .invalid
    | some x => la ← bindRows w x la
  return .bound la

/-- What a binding puts in a thread's register (07 R164). -/
def bindValue (w : Who) (la : Launch) (b : Nat) (row : Option (Nat × Nat × Nat)) : M Nat := do
  match row, ← worldGet w (qWorld la.query) with
  | some (a, k, r), some x =>
    let c := b % 1024
    let sig ← sigRead w x a
    if !bitAt sig c then return 0
    let p ← vreadN w (clistAddr x a k) 8
    let (cols, _) ← columns w x (sig % 2 ^ (c + 1))
    match cols.getLast? with
    | none => return 0
    | some col => return p + col.at (la.view + if bitAt b 17 then 1 else 0) + (if bitAt b 16 then 0 else col.size * r)
  | _, _ => return 0

/-- A grid thread as it starts (03 R56, 07 R163). -/
def gridLane (w : Who) (la : Launch) (entry ordinal : Nat) : M Lane := do
  let row := la.rows[ordinal]?
  let x : Lane := { pc := entry, st := .ready }
  let x := setX x 1 (.ofNat 64 (launchField la 12))
  let mut x := match row with
    | some (a, k, r) => { x with qrow := r, qchunk := k, qarch := a }
    | none => x
  for b in la.binds do
    x := setX x (fld b 15 10) (.ofNat 64 (← bindValue w la b row))
  return x

/-! ### Placement (03 R53, R54, 21 R371-R373) -/

/-- Read a context's record: an intermediate address, translated by stage 2 (21 R370). -/
def readRecord (ctx : Nat) : M Nat := do
  let s ← get
  let w := ctxWho s ctx 15
  let pa ← ipaRead w ((partAt s (ctx / 64)).ctxtab + 128 * (ctx % 64)) 0
  return ofBytes (← readPhys w pa 128)

/-- A cluster's bit in HOME or LEND, of a core. -/
def clusterBit (c : Nat) : Nat := c / 48 * 12 + c % 48 / 4

/-- Is a context record sound (21 R372)?  `r` is the record, `secs` the partition's sectors. -/
def recordSound (r : Nat) (secs : BitVec 4) : Bool :=
  let home := fld r 495 448
  let lend := fld r 559 512
  let fabdom := fld r 575 560
  let fabcount := fld r 648 640
  let fabidx := fld r 447 440
  let outside := (List.range 48).any fun b => (bitAt home b || bitAt lend b) && !secs.getLsbD (b / 12)
  r / 2 ^ 649 == 0 && fld r 511 496 == 0 && fld r 413 385 == 0 && fld r 439 424 != 0
  && 10 ≤ fld r 423 414 && fld r 423 414 ≤ 1000 && home != 0 && !outside && home &&& lend == 0
  && fld r 63 52 == 0 && fld r 11 0 == 0 && fld r 127 64 % 4096 == 0
  && (if fabdom == 0 then fabcount == 0 && fabidx == 0 else 1 ≤ fabcount && fabcount ≤ 256 && fabidx < fabcount)

/-- Take a record as read: a malformed one acts as one with VALID = 0, and a context that runs keeps what it has (21 R372). -/
def takeRecord (ctx r : Nat) (s : State) : State :=
  let bad := bitAt r 384 && !recordSound r (partAt s (ctx / 64)).sectors
  modCtx s ctx fun x => { x with badrec := bad, record := if bad && x.in_ then x.record else r }

/-- Does a queue hold an entry that has not ended (21 R371)?  A shadow that will publish counts. -/
def queueHolds (k : LQueue) : Bool := decide (k.prog < max k.tail (k.shadowTail.getD 0)) || k.entries.any (!·.ended)

/-- Is a context runnable (21 R371, R372)? -/
def runnable (s : State) (ctx : Nat) : Bool :=
  let c := ctxOf s ctx
  (partAt s (ctx / 64)).en && bitAt c.record 384 && !c.badrec && !c.stopped && !c.ckpt.busy
  && (c.queues.any (fun e => queueHolds e.2) || !c.saved.isEmpty)

/-- Does another runnable context own the cluster of a core? -/
def ownedElsewhere (s : State) (ctx c : Nat) : Bool :=
  s.ctxs.any fun e => e.1 != ctx && e.1 / 64 == ctx / 64 && runnable s e.1 && bitAt (fld e.2.record 495 448) (clusterBit c)

/-- Is a core's sector one that its partition keeps (21 R368)? -/
def sectorStays (s : State) (ctx c : Nat) : Bool :=
  let p := partAt s (ctx / 64)
  p.sectors.getLsbD (secOf c) && (!p.busy || p.target.getLsbD (secOf c))

/-- May a context's work be placed on a core: a HOME core that it holds, or one that it may borrow? -/
def eligible (s : State) (ctx c : Nat) : Bool :=
  let k := coreOf s c
  !k.off && !k.draining && sectorStays s ctx c
  && ((bitAt (recField s ctx 495 448) (clusterBit c) && k.holder == ctx + 1)
    || (bitAt (recField s ctx 559 512) (clusterBit c) && !(ctxOf s ctx).badrec && (k.holder == 0 || k.holder == ctx + 1) && !ownedElsewhere s ctx c))

/-- The cores that a team is tried on, one unit of its domain at a time. -/
def placeUnits (s : State) (la : Launch) : List (List Nat) :=
  let cores := (List.range 192).filter (eligible s la.ctx)
  let d := levelDomain la (coreLevel la + 1)
  if !hasTeam la then [cores]
  else if d ≤ 3 then (List.range 48).map fun u => cores.filter fun c => c / 4 == u
  else if d = 4 then (List.range 4).map fun u => cores.filter fun c => c / 48 == u
  else [cores]

/-- Does a work-group fit on a core now? -/
def fitsNow (k : Core) (n : Need) : Bool :=
  n.warps ≤ (freeSlots k).length && regsUsed k + n.warps * n.regs ≤ 4096 && (padPlace k n.pad).isSome && barsUsed k + n.bars ≤ 1024

/-- The eligible core with the most free warp slots. -/
def bestCore (s : State) (cores : List Nat) (n : Need) : Option Nat :=
  (cores.foldl (fun (b : Option (Nat × Nat)) c =>
    let k := coreOf s c
    if fitsNow k n && (match b with | some x => x.1 < (freeSlots k).length | none => true)
    then some ((freeSlots k).length, c) else b) none).map (·.2)

/-- Put the warps of a work-group on a core (03 R54, R56). -/
def installGroup (la : Launch) (tag c index role : Nat) (lanes : List Lane) (s : State) : State :=
  let k := coreOf s c
  let key := ((List.range 64).find? fun i => !(k.groups.any (·.1 == i))).getD 0
  let base := (padPlace k (padSizeOf la)).getD 0
  let warps := (List.range (groupWarps la)).foldl (fun (e : Core × List Nat) j =>
    let slot := (pickSlot e.1).getD 0
    let ls := (lanes.drop (32 * j)).take 32
    let w : Warp := {
      st := .loading, kind := .grid, ctx := la.ctx, launch := tag, group := key, windex := j, serial := e.1.serial + 1,
      lanes := (ls.zipIdx.foldl (fun (m : Map Lane) x => mput {} m x.2 x.1) []), order := List.range 32,
      regsN := roleRegs la role, padBase := base, padSize := padSizeOf la, age := s.clk }
    ({ e.1 with serial := e.1.serial + 1, warps := mput {} e.1.warps slot w }, e.2 ++ [slot])) (k, [])
  let g : Group := {
    ctx := la.ctx, launch := tag, index := index, slots := warps.2, threads := groupThreads la, padBase := base,
    padSize := padSizeOf la, nbars := barsOf la }
  setCore s c { warps.1 with groups := mput {} warps.1.groups key g, holder := la.ctx + 1, cache := [] }

/-- Place the work-groups from `n` on, together, within some cores. -/
def placeTeam (w : Who) (la : Launch) (tag base : Nat) (cores : List Nat) : Nat → Nat → M Bool
  | 0, _ => return true
  | m + 1, n => do
    let role := roleOf la n
    match bestCore (← get) cores (needOf la role) with
    | none => return false
    | some c =>
      let t := groupThreads la
      let lanes ← (List.range t).mapM fun i =>
        gridLane w la (fld (launchField la (6 + role)) 47 0) (n % la.extents.getD (coreLevel la) 1 * t + i)
      modify (installGroup la tag c (base + n) role lanes)
      placeTeam w la tag base cores m (n + 1)

/-- Put a unit among others by its best core for a team's first work-group: the most free slots, then the lowest number. -/
def insertUnit (x : (Nat × Nat) × List Nat) : List ((Nat × Nat) × List Nat) → List ((Nat × Nat) × List Nat)
  | [] => [x]
  | y :: t => if y.1.1 < x.1.1 || (y.1.1 == x.1.1 && x.1.2 < y.1.2) then x :: y :: t else y :: insertUnit x t

/-- The units in the order in which a team is tried on them: its first work-group goes to the eligible core with the most free
warp slots, the lower number on a tie (03 R54). -/
def unitOrderFor (s : State) (n : Need) (units : List (List Nat)) : List (List Nat) :=
  ((units.filterMap fun u => (bestCore s u n).map fun c => (((freeSlots (coreOf s c)).length, c), u)).foldr insertUnit []).map (·.2)

/-- The first unit in which the team fits. -/
def placeIn (w : Who) (la : Launch) (tag base size : Nat) : List (List Nat) → M Bool
  | [] => return false
  | u :: t => do
    let s ← get
    if ← placeTeam w la tag base u size la.placed then return true
    set s
    placeIn w la tag base size t

/-- Has every earlier launch of the queue placed its first work-group (03 R57)? -/
def earlierPlaced (s : State) (ctx tag : Nat) (la : Launch) : Bool :=
  (ctxOf s ctx).launches.all fun e => e.2.q != la.q || tag ≤ e.1 || e.2.done || 0 < e.2.placed

/-- A launch whose world is not valid when it would bind is malformed (07 R162, 03 R48): its queue stops at its entry, and what
followed it has placed nothing and stands unstarted again (R57). -/
def unstart (ctx tag : Nat) (s : State) : State :=
  let la := launchOf s ctx tag
  let k := queueOf s ctx la.q
  let fin := match k.entries.find? fun e => e.off == la.off with | some e => e.fin | none => la.off + 8
  let s := modCtx s ctx fun x => { x with launches := x.launches.filter fun e => e.2.q != la.q || e.1 < tag }
  let s := modQueue s ctx la.q fun k => { k with
    next := la.off, entries := k.entries.filter fun e => e.off < la.off, inherited := la.before }
  stopEntry ctx la.q (fin - la.off) s

/-- WORKGROUP_PLACEMENT's step: the next team, or work-group, of a launch. -/
def placeStep (ctx tag : Nat) (s : State) : Option State :=
  let la := launchOf s ctx tag
  let c := ctxOf s ctx
  if !c.in_ || c.stopped || c.saving != 0 || la.fields.isEmpty || la.done || !earlierPlaced s ctx tag la then none
  else if 0 < la.placed && la.total ≤ la.placed then none
  else if la.placed = 0 && conflicts s la then none
  else
    let w := ctxWho s ctx 6
    let act : M Bound := do
      -- work that may go to a borrowed cluster has the record read first (21 R372)
      if (List.range 192).any fun c => eligible s ctx c && bitAt (recField s ctx 559 512) (clusterBit c) then
        let r ← readRecord ctx
        modify (takeRecord ctx r)
      match ← if la.placed = 0 then bindLaunch w la else pure (.bound la) with
      | .later => return .later
      | .invalid => return .invalid
      | .bound la =>
        let s ← get
        let size := min (teamSize la) (la.total - la.placed)
        let base := if fabricBound la then recField s ctx 447 440 * la.total else 0
        if ← placeIn w la tag base size (unitOrderFor s (needOf la (roleOf la la.placed)) (placeUnits s la)) then
          modify fun s => modLaunch s ctx tag fun _ => { la with placed := la.placed + size }
          return .bound la
        else return .later
    match runHeld la.wait la.failed (fun w s => modLaunch s ctx tag fun x => { x with wait := w, failed := false }) act (deliverAll s) with
    | .wait o => o
    | .failed s' => if la.failed then some s' else none
    | .done .later _ => none
    | .done .invalid _ => some (unstart ctx tag s)
    | .done (.bound _) s => some s

/-- WORKGROUP_PLACEMENT (03 R54, 07 R160, R161). -/
def execWorkgroupPlacement (ctx launch : Nat) (s : State) : Host.Outcome State Fault Refusal :=
  .next (orSame (placeStep ctx launch) s)

/-! ### The end of a grid (03 R56) -/

/-- Does a core's stock of a launch, its own or one that has moved to it, hold frames? -/
def stocked (k : Core) (tag : Nat) : Bool := k.stocks.any fun e => stockTag e.1 == tag && e.2.used != 0

/-- Does a frame of a launch remain in a deck, a stock, an in-transit slot or a message, or a task of it run? -/
def tasksRemain (s : State) (ctx tag : Nat) : Bool :=
  (s.cores.any fun e =>
    (e.2.warps.any fun w => w.2.st != .free && w.2.ctx == ctx && w.2.launch == tag && w.2.kind != .handler)
    || (e.2.holder == ctx + 1 && (e.2.deck.any (·.tag == tag) || stocked e.2 tag
      || e.2.transit.any fun t => match t.2 with | some x => x.frame.tag == tag | none => false)))
  || (ctxOf s ctx).saved.any (fun x => x.warp.launch == tag)
  || (ctxOf s ctx).savedCores.any fun e =>
    e.2.deck.any (·.tag == tag) || stocked e.2 tag
      || e.2.transit.any fun t => match t.2 with | some x => x.frame.tag == tag | none => false

/-- An arena record whose frame a launch of a context tagged, with its core. -/
def arenaLeft (s : State) (ctx tag : Nat) : Option (Nat × Nat × Nat × Nat) :=
  s.cores.findSome? fun e => (e.2.arena.find? fun a => a.1 == ctx && a.2.2 == tag).map fun a => (e.1, a)

/-- Free one arena record (08 R181); one whose page is refused or answered FAIL keeps its STATE and is forgotten (log 57). -/
def arenaFree (ctx c : Nat) (a : Nat × Nat × Nat) (s : State) : Option State :=
  let va := recField s ctx 191 128 + 262144 * c + 256 * a.2.1 + 128
  let forget (s : State) : State := modCore s c fun k => { k with arena := k.arena.filter (· != a) }
  match runEngine c 10 (vatomic ⟨c, ctx, 4⟩ va 8 fun h => some (h / 4 * 4)) s with
  | .done _ s => some (forget s)
  | .failed s => some (forget s)
  | .wait o => o

/-- GRID_END's step: the arena records of its launch are freed one by one, then it ends, a release at .package of all the
grid's accesses. -/
def gridEndStep (ctx tag : Nat) (s : State) : Option State :=
  let la := launchOf s ctx tag
  if la.fields.isEmpty || la.done || la.placed = 0 || la.placed < la.total || la.ended < la.placed || tasksRemain s ctx tag
    || !(ctxOf s ctx).in_ then none
  else match arenaLeft s ctx tag with
  | some (c, a) => arenaFree ctx c a s
  | none =>
    let s := modLaunch (deliverAll s) ctx tag fun x => { x with done := true }
    some (queueAdvance ctx la.q (modQueue s ctx la.q fun k =>
      { k with entries := k.entries.map fun e => if e.kind == 1 && e.launch == tag then { e with ended := true } else e }))

/-- GRID_END (03 R56). -/
def execGridEnd (ctx launch : Nat) (s : State) : Host.Outcome State Fault Refusal := .next (orSame (gridEndStep ctx launch) s)

end Sys2Proof.Machine
end

