-- ==== Sys2Proof/Machine/Faults.lean ====
section
/-! DEFINITION. TRAP, BKPT and RESUME, handler warps, the watchdog, soft errors and the health of a sector (15 R326, R327,
22 R388-R402, 23 R409). -/

namespace Sys2Proof.Machine

/-! ### TRAP and BKPT -/

/-- TRAP: SOFTWARE_TRAP for the threads whose guard is true (15 R326). -/
def execTrap (c : BitVec 1) (g : BitVec 3) (i : BitVec 12) (s : State) : Host.Outcome State Fault Refusal :=
  .next (issueWord (.trap c g i) g noCheck (fun _ _ => some (0x12, i.zeroExtend 64)) (fun _ s => s) s)

/-- BKPT: BREAKPOINT for the threads whose guard is true (15 R326). -/
def execBkpt (c : BitVec 1) (g : BitVec 3) (i : BitVec 12) (s : State) : Host.Outcome State Fault Refusal :=
  .next (issueWord (.bkpt c g i) g noCheck (fun _ _ => some (0x13, i.zeroExtend 64)) (fun _ s => s) s)

/-! ### The restart of a group (22 R395, 15 R327) -/

/-- Discard the held commands of a group's bundles (14 R294, 24 R427). -/
def discardHeld (c g : Nat) : Nat → State → State
  | 0, s => s
  | n + 1, s =>
    match (cmdsOf s c).findIdx? fun x => x.phase == 2 && x.src.group == g with
    | some i => discardHeld c g n (discardCmd c i s)
    | none => s

/-- The held command that a record stands for. -/
def heldCmd (s : State) (c : Nat) (r : FaultRec) : Option Nat :=
  (cmdsOf s c).findIdx? fun x => x.phase == 2 && x.src.slot == r.slot && x.src.pc == r.pc

/-- A parked thread stops waiting, at the group where it stands. -/
def unparkLane (x : Lane) : Lane :=
  if x.st == .parked then
    { x with st := .ready, park := {}, front := x.front.filter fun e => e.kind != .waitv && e.kind != .join }
  else x

/-- What a lane becomes under .replay (`skip` false) or .skip: it goes back to the faulting group, or past it (22 R389, R395). -/
def resumeLane (r : FaultRec) (skip : Bool) (x : Lane) : Lane :=
  let x := { x with stopped := false }
  if x.st == .exited || r.byCommand then x
  else if r.watchdog then
    if skip && x.st == .parked then
      wakeLane { x with front := x.front.filter fun e => e.kind != .waitv && e.kind != .join }
    else x
  else
    let x := unparkLane x
    if !skip then { x with pc := r.pc, rep := r.rep }
    else if r.reps != 0 then
      let left := if r.rep = 0 then r.reps - 1 else r.rep - 1
      if left = 0 then { x with pc := r.pc + 8, rep := 0 } else { x with pc := r.pc, rep := left }
    else { x with pc := r.pc + 4 * r.words }

/-- A halted warp goes on where it stopped (02 R37). -/
def unhaltWarp (w : Warp) : Warp :=
  let w := { w with halting := false, skidLeft := 0, skid := 0 }
  if w.st == .halted then
    let live := liveLanes w
    { w with st := if live.isEmpty then .exiting else if live.all fun l => (laneOf w l).st == .parked then .parked else .ready }
  else w

/-- Free the records and the halt table of a group (22 R392). -/
def freeRecs (c g : Nat) (s : State) : State :=
  let nums := (groupOf s c g).recs.filterMap (·.num)
  modGroup (modCtx s (groupOf s c g).ctx fun k => { k with recUsed := k.recUsed.filter (!nums.contains ·) }) c g fun x =>
    { x with recs := [], halted := false, haltTab := 0, tabDue := false, tab := none, handlers := [], waitSince := none,
             parkedSince := none }

/-- Act for one record at the restart: its fragment replays or skips by its own mode. -/
def resumeRec (c : Nat) (r : FaultRec) (s : State) : State :=
  let skip := r.state == 2
  let s := if r.byCommand then
      match heldCmd s c r with
      | some i => if skip then discardCmd c i s else modCmd s c i fun x => { x with phase := 0 }
      | none => s
    else s
  modWarp s c r.slot fun w => (lanesOf r.lanes).foldl (fun w l => modLane w l (resumeLane r skip)) w

/-- Is a warp of a group being saved or loaded, so that the group restarts or ends once it is restored (15 R327, 22 R402)? -/
def groupAway (s : State) (c : Nat) (k : Group) : Bool :=
  k.slots.any fun sl => [WarpSt.free, .loading, .draining, .saving].contains (warpOf s c sl).st

/-- Its records have been given STATE 3: a work-group ends (22 R395). -/
def endGroup (c g : Nat) (s : State) : State :=
  let s := (groupOf s c g).slots.foldl (fun s sl => modWarp s c sl endWarp) s
  freeRecs c g (discardHeld c g (cmdsOf s c).length s)

/-- Restart a group when none of its records stands at 0 or 4; the restart is an acquire at .package.  A group whose records
stand at 3 ends. -/
def restartGroup (c g : Nat) (s : State) : State :=
  let k := groupOf s c g
  if k.recs.isEmpty || groupAway s c k then s
  else if k.recs.any (·.state == 3) then endGroup c g s
  else if k.recs.any fun r => r.state == 0 || r.state == 4 then s
  else
    let s := k.recs.foldl (fun s r => resumeRec c r s) (deliverAll s)
    let s := k.slots.foldl (fun s sl => modWarp s c sl unhaltWarp) s
    let s := freeRecs c g s
    k.slots.foldl (fun s sl => settleAt c sl s) s

/-! ### RESUME (15 R327) -/

/-- The group and the place of an open record that lies at an address. -/
def findRec (s : State) (c a : Nat) : Option (Nat × Nat) :=
  (coreOf s c).groups.findSome? fun e =>
    (e.2.recs.findIdx? fun r => r.addr == a && r.state == 0).map fun i => (e.1, i)

/-- Write the STATE of the record at an address whose group is saved; whether it is in memory. -/
def writeState (ctx a st : Nat) (s : State) : Bool × State :=
  match vwrite (ctxWho s ctx 0) a [.ofNat 8 st] s with
  | .ok _ s => (true, s)
  | .error _ _ => (false, s)

/-- Give records of saved groups a STATE; one that cannot be written in memory now is written once its group is restored. -/
def setSaved (ctx : Nat) (f : Group → FaultRec → Option Nat) (s : State) : State :=
  let due := ((ctxOf s ctx).saved.flatMap fun e => e.group.recs.filterMap fun r =>
    if r.addr == 0 then none else (f e.group r).map fun st => (r.addr, st)).eraseDups
  let (done, s) := due.foldl (fun (acc : List Nat × State) d =>
    let (ok, s) := writeState ctx d.1 d.2 acc.2
    (if ok then d.1 :: acc.1 else acc.1, s)) ([], s)
  modCtx s ctx fun x => { x with saved := x.saved.map fun e => { e with group := { e.group with
    recs := e.group.recs.map fun r => match f e.group r with
      | some st => { r with state := st, given := r.given && st != 0, written := done.contains r.addr }
      | none => r } } }

/-- RESUME of a record of a group that has been saved with its context (15 R327, 22 R402): it restarts or ends once restored. -/
def resumeSaved (ctx a mode : Nat) (s : State) : State :=
  setSaved ctx (fun g r =>
    if r.addr == a && r.state == 0 then some mode
    else if mode == 3 && g.recs.any (fun o => o.addr == a && o.state == 0) then some 3 else none) s

/-- One thread's RESUME. -/
def resumeOne (mode l : Nat) (xa : Word) (s : State) : State :=
  let c := s.issue.core
  let x := laneOf (iWarp s) l
  if x.trapRec = 0 || x.trapRec ≠ xa then logCore s c (iWarp s).ctx 0x44 xa.toNat 0
  else
    let ctx := (iWarp s).ctx
    let s := iModLane s l fun k => { k with trapRec := 0 }
    match findRec s c xa.toNat with
    | none => resumeSaved ctx xa.toNat mode s
    | some (g, i) =>
      let all := if mode = 3 then List.range (groupOf s c g).recs.length else [i]
      restartGroup c g (all.foldl (fun s i => setRecState s c g i mode) s)

/-- RESUME in one of its modes. -/
def resume (mode : Nat) (a : BitVec 6) (ls : List Nat) (s : State) : State :=
  ls.foldl (fun s l => resumeOne mode l (getX (iLane s l) (rA s a)) s) (deliverAll s)

/-- RESUME.replay (15 R327). -/
def execResumeReplay (c : BitVec 1) (g : BitVec 3) (a : BitVec 6) (s : State) : Host.Outcome State Fault Refusal :=
  .next (issueE (.resumeReplay c g a) g noCheck (resume 1 a) s)
/-- RESUME.skip (15 R327). -/
def execResumeSkip (c : BitVec 1) (g : BitVec 3) (a : BitVec 6) (s : State) : Host.Outcome State Fault Refusal :=
  .next (issueE (.resumeSkip c g a) g noCheck (resume 2 a) s)
/-- RESUME.end (15 R327). -/
def execResumeEnd (c : BitVec 1) (g : BitVec 3) (a : BitVec 6) (s : State) : Host.Outcome State Fault Refusal :=
  .next (issueE (.resumeEnd c g a) g noCheck (resume 3 a) s)

/-! ### Handlers (22 R393, R394, R396) -/

/-- The cause class (22 R393). -/
def causeClass (c : Nat) : Nat :=
  if [0x01, 0x02, 0x03, 0x04, 0x09].contains c then 0
  else if [0x05, 0x06, 0x07, 0x08, 0x11].contains c then 1
  else if [0x0A, 0x0B, 0x14].contains c then 2
  else if [0x0C, 0x0D, 0x0E].contains c then 3
  else if [0x0F, 0x10].contains c then 4
  else if [0x12, 0x13].contains c then 5
  else 6

/-- Is a trap table usable? -/
def trapTabOk (t : Nat) : Bool :=
  ((List.range 7).all fun i => fld (t / 2 ^ (64 * i) % 2 ^ 64) 62 48 == 0)
  && fld t 511 474 == 0 && 32 ≤ fld t 473 464 && fld t 473 464 ≤ 1024

/-- The entry PC for a cause, if its class has a VALID entry. -/
def trapEntry (t cause : Nat) : Option Nat :=
  let e := t / 2 ^ (64 * causeClass cause) % 2 ^ 64
  if trapTabOk t && bitAt e 63 then some (e % 2 ^ 48) else none

/-- WDLIMIT in milliseconds, 0 for off. -/
def watchLimit (t : Nat) : Nat := if trapTabOk t then fld t 463 448 else 0

/-- TRAPTAB of a context. -/
def trapBase (s : State) (ctx : Nat) : Nat := recField s ctx 383 320
/-- Read a trap table; one that cannot be read has no valid entry. -/
def trapTab (w : Who) (base : Nat) : M Nat := vreadN w base 64

/-- Have the warps of a halted group all stopped, with their stores drained? -/
def groupHalted (s : State) (c : Nat) (g : Group) : Bool :=
  g.slots.all fun sl =>
    let w := warpOf s c sl
    (w.st == .halted || w.st == .exiting || w.st == .free)
    && w.lanes.all fun x => x.2.front.all fun e => e.kind != .store

/-- An entry of the halt table (22 R392). -/
def haltEntry (s : State) (c g slot : Nat) : Nat :=
  let w := warpOf s c slot
  let live := w.st == .halted
  let faulted := (groupOf s c g).recs.any fun r => r.slot == slot && r.state == 0
  if live then 2 ^ 63 + (if faulted then 2 ^ 62 else 0) + w.skid * 2 ^ 56 + slot * 2 ^ 48 + w.retired % 2 ^ 48 else 0

/-- Write a group's halt table; a task warp has none. -/
def writeTable (w : Who) (g : Nat) : M Unit := do
  let s ← get
  let k := groupOf s w.core g
  if k.haltTab != 0 then
    let bs := (List.range 64).flatMap fun j => match k.slots.find? fun sl => (warpOf s w.core sl).windex == j with
      | some sl => leBytes 8 (haltEntry s w.core g sl)
      | none => List.replicate 8 0
    vwrite w (saveImage s k.ctx w.core + 0xF40000 + 512 * (k.haltTab - 1)) bs

/-- Note that a group's halt table (1) or its trap table (2) waits on a page request: its first record holds the wait. -/
def holdRec (c g what x n : Nat) (s : State) : State :=
  modGroup s c g fun k => { k with recs := k.recs.modify 0 fun r => { r with wait := some (x, n), held := what } }

/-- A halt table could not be written: the open records go to the host with ADDR 0 (22 R392). -/
def tableLost (c g : Nat) (s : State) : State :=
  let k := groupOf s c g
  (List.range k.recs.length).foldl (fun s i =>
    let r := k.recs.getD i {}
    if r.state == 0 then logCore (setRecState s c g i 4) c k.ctx r.cause 0 0 else s)
    (modGroup s c g fun k => { k with tabDue := false })

/-- A handler thread as it starts (22 R394). -/
def handlerLane (entry group : Nat) (r : FaultRec) : Lane :=
  let x : Lane := { pc := entry, st := .ready, trapRec := .ofNat 64 r.addr }
  setX (setX (setX x 1 (.ofNat 64 r.addr)) 2 (.ofNat 64 r.cause)) 3 (.ofNat 64 group)

/-- Start one handler warp for up to 32 records. -/
def startHandler (c g hregs : Nat) (ls : List Lane) (s : State) : State :=
  let k := coreOf s c
  let h := mget {} k.groups g
  let slot := (pickSlot k).getD 0
  let w : Warp := {
    st := .loading, kind := .handler, ctx := h.ctx, launch := h.launch, group := 64 + slot, serial := k.serial + 1,
    lanes := (ls.zipIdx.foldl (fun (m : Map Lane) e => mput {} m e.2 e.1) []), order := List.range 32, regsN := hregs,
    padBase := h.padBase, padSize := h.padSize, age := s.clk }
  let x : Group := { ctx := h.ctx, launch := h.launch, slots := [slot], threads := ls.length, handles := g }
  modCore s c fun k => { k with
    serial := k.serial + 1, warps := mput {} k.warps slot w,
    groups := mput {} (mput {} k.groups (64 + slot) x) g { mget {} k.groups g with handlers := h.handlers ++ [slot] } }

/-- Cut a list into runs of 32. -/
def runs32 {α : Type} : Nat → List α → List (List α)
  | 0, _ => []
  | n + 1, l => if l.isEmpty then [] else l.take 32 :: runs32 n (l.drop 32)

/-- The open records of a group that no handler has: their places. -/
def openRecs (k : Group) : List Nat := (List.range k.recs.length).filter fun i =>
  let r := k.recs.getD i {}
  r.state == 0 && !r.given

/-- Start handlers for the open records of a group that have an entry, and send the others to the host (22 R394, R396). -/
def startHandlers (c g t : Nat) (s : State) : Option State :=
  let k := groupOf s c g
  let (take, drop) := (openRecs k).partition fun i => (trapEntry t (k.recs.getD i {}).cause).isSome
  let s := drop.foldl (fun s i => toHost s c g i) s
  if take.isEmpty then some s
  else
    let hregs := fld t 473 464
    let packs := runs32 take.length take
    let core := coreOf s c
    if (freeSlots core).length < packs.length || 4096 < regsUsed core + packs.length * hregs then
      if k.waitSince.isSome then (if drop.isEmpty then none else some s)
      else some (modGroup s c g fun k => { k with waitSince := some s.clk })
    else
      let s := packs.foldl (fun s p => startHandler c g hregs (p.map fun i =>
        let r := k.recs.getD i {}
        handlerLane ((trapEntry t r.cause).getD 0) (if g < 64 then k.index else 0xFFFFFFFF) r) s) (deliverAll s)
      some (modGroup s c g fun k => { k with
        waitSince := none, tab := none,
        recs := k.recs.zipIdx.map fun e => if take.contains e.2 then { e.1 with given := true } else e.1 })

/-- HANDLER_DISPATCH's step: the records and the halt table are written first, then the trap table is read and handlers start. -/
def dispatchHandlers (c g : Nat) (s : State) : Option State :=
  let k := groupOf s c g
  let w : Who := ⟨c, k.ctx, 0⟩
  if !k.halted || !groupHalted s c k || !(ctxOf s k.ctx).in_ || k.recs.any (·.wait.isSome) then none
  else match (List.range k.recs.length).find? fun i => !(k.recs.getD i {}).written with
  | some i => some (writeRecord s c g i)
  | none =>
    if k.tabDue then
      match writeTable w g s with
      | .error (.page x r _) s => let (n, s) := postPage s x r; some (holdRec c g 1 x n s)
      | .error (.fail _ _) s => some (tableLost c g s)
      | .ok _ s => some (modGroup s c g fun k => { k with tabDue := false })
    else if (openRecs k).isEmpty then none
    else match trapTab w (k.tab.getD (trapBase s k.ctx)) s with
    | .error (.page x r _) s => let (n, s) := postPage s x r; some (holdRec c g 2 x n s)
    | .error (.fail _ _) s => some ((openRecs k).foldl (fun s i => toHost s c g i) s)
    | .ok t s => startHandlers c g t s

/-- HANDLER_DISPATCH (22 R394). -/
def execHandlerDispatch (core group : Nat) (s : State) : Host.Outcome State Fault Refusal :=
  .next (orSame (dispatchHandlers core group) s)

/-- HANDLER_RESOURCE_TIMEOUT's step: 10 µs, 14,000 clk, without room. -/
def handlerTimeout (c g : Nat) (s : State) : Option State :=
  let k := groupOf s c g
  match k.waitSince with
  | some t => if s.clk < t + 14000 then none else
      some (modGroup ((openRecs k).foldl (fun s i => toHost s c g i) s) c g fun k => { k with waitSince := none })
  | none => none

/-- HANDLER_RESOURCE_TIMEOUT (22 R394). -/
def execHandlerResourceTimeout (core group : Nat) (s : State) : Host.Outcome State Fault Refusal :=
  .next (orSame (handlerTimeout core group) s)

/-- CTXCTL RETRAP: records at STATE 4 return to 0 and handlers are dispatched for them with the TRAPTAB that stands now, in the
groups on cores and, once restored, in those that are saved (22 R396). -/
def retrap (ctx : Nat) (s : State) : State :=
  let tab := some (trapBase s ctx)
  let back (r : FaultRec) : Bool := r.state == 4 && r.addr != 0
  let s := modCtx s ctx fun x => { x with saved := x.saved.map fun e =>
    if (e.group.recs.any back) then { e with group := { e.group with tab := tab } } else e }
  let s := setSaved ctx (fun _ r => if back r then some 0 else none) s
  s.cores.foldl (fun s e => e.2.groups.foldl (fun s g =>
    if g.2.ctx != ctx || !g.2.recs.any back then s else
    (List.range g.2.recs.length).foldl (fun s i =>
      if back (g.2.recs.getD i {}) then
        setRecState (modGroup s e.1 g.1 fun k => { k with tab := tab, recs := k.recs.modify i fun r => { r with given := false } }) e.1 g.1 i 0
      else s) s) s) s

/-! ### The watchdog (22 R400) -/

/-- WATCHDOG's step: every live thread of a group has been parked for WDLIMIT ms, 1,400,000 clk each, of the time that
counts for its context. -/
def watchStep (c g : Nat) (s : State) : Option State :=
  let k := groupOf s c g
  match k.parkedSince with
  | none => none
  | some t =>
    if k.halted || !allParked s c g || (ctxOf s k.ctx).timedFrom.isNone || (k.slots.any fun sl => (warpOf s c sl).kind == .handler) then none
    else match trapTab ⟨c, k.ctx, 0⟩ (trapBase s k.ctx) s with
    | .error _ _ => none
    | .ok tab s =>
      let n := watchLimit tab
      if n = 0 || watchTime s k.ctx < t + n * 1400000 then none
      else match k.slots.find? fun sl => (liveLanes (warpOf s c sl)).any fun l => (laneOf (warpOf s c sl) l).st == .parked with
      | none => none
      | some sl =>
        let w := warpOf s c sl
        let ls := (liveLanes w).filter fun l => (laneOf w l).st == .parked
        let x := laneOf w (ls.headD 0)
        some (raiseFault { cause := 0x14, addr := x.park.op, core := c, slot := sl, lanes := maskOf ls, pc := x.pc,
                           words := x.park.words, widx := x.park.widx, word := x.park.word, watchdog := true } s)

/-- WATCHDOG (22 R400). -/
def execWatchdog (core group : Nat) (s : State) : Host.Outcome State Fault Refusal := .next (orSame (watchStep core group) s)

/-! ### Health and soft errors (22 R388, R399, 23 R409) -/

/-- The address of a sector's HEALTH word. -/
def healthAddr (x : Nat) : Nat := errRing x + 16
/-- HEALTH as it stands. -/
def health (s : State) (x : Nat) : Nat := peek s x (healthAddr x) 8
/-- Write it. -/
def putHealth (s : State) (x v : Nat) : State := applyWrite s x (healthAddr x) (leBytes 8 v)

/-- A corrected error of a row: CORRECTED counts it; the third within 24 hours remaps the row to a spare. -/
def corrected (x row addr source : Nat) (s : State) : State :=
  let h := health s x
  let day := 24 * 3600 * 1400000000
  let hits := (sectorOf s x).rowHits.filter fun e => s.clk < e.2 + day
  let n := (hits.filter (·.1 == row)).length + 1
  let h := putBits h 31 0 (fld h 31 0 + 1)
  if 3 ≤ n && 0 < fld h 47 32 then
    let left := fld h 47 32 - 1
    let h := putBits (putBits h 47 32 left) 62 62 1
    let h := if left = 0 then putBits h 63 63 1 else h
    let s := putHealth (modSector s x fun k => { k with rowHits := hits.filter (·.1 != row) }) x h
    logError s x 0x47 addr 0 ((partOf s x).getD 0) 0 255 (detail source 15 3 left)
  else putHealth (modSector s x fun k => { k with rowHits := hits ++ [(row, s.clk)] }) x h

/-- Name a row of a memory, a scratchpad or a register file for the counts of R388. -/
def rowName (kind core a : Nat) : Nat := (kind * 256 + core) * 2 ^ 52 + a

/-- Zero an owner's state and let its next bundle fault (22 R399). -/
def damageGroup (c g : Nat) (s : State) : State := modGroup s c g fun k => { k with damaged := true }

/-- A warp's state becomes damaged. -/
def damageWarp (c slot : Nat) (e : Nat × Nat × Nat) (s : State) : State :=
  modWarp s c slot fun w => if w.st == .free then w else { w with hurt := w.hurt ++ [e] }

/-- A corrected error of a core's array that is neither scratchpad nor chip SRAM: SOURCE 4 and ADDR 0 (23 R411, log 59). -/
def correctedCore (kind c a : Nat) (s : State) : State := corrected (secOf c) (rowName kind c a) 0 4 s

/-- Add a granule to those that are damaged. -/
def addGranule (g : Nat) (gs : List Nat) : List Nat := if gs.contains g then gs else gs ++ [g]

/-- SOFT_ERROR: a soft one is corrected; a hard one leaves its place damaged, or zeroed and its owner to fault. -/
def softStep (x : SoftWhere) (hard : Bool) (s : State) : State :=
  match x with
  | .memory pa =>
    if !backed pa then s
    else if hard then modSector s (homeSector pa) fun k => { k with damaged := addGranule (granule pa) k.damaged }
    else corrected (homeSector pa) (rowName 2 0 (pa / 1024)) (pa / 1024 * 1024) (if inTier2 pa then 3 else 2) s
  | .sram pa =>
    if !backed pa then s
    else if hard then modSector s (homeSector pa) fun k => { k with sramBad := addGranule (pa / 8 * 8) k.sramBad }
    else corrected (homeSector pa) (rowName 1 0 (pa / 64)) (pa / 64 * 64) 1 s
  | .pad c a =>
    if hard then modCore s c fun k => { k with padBad := addGranule (a / 8 * 8) k.padBad }
    else corrected (secOf c) (rowName 0 c (a / 256)) (a / 256 * 256) 0 s
  | .register c sl l n => if hard then damageWarp c sl (0, l, n) s else correctedCore 4 c (sl * 32768 + l * 1024 + n) s
  | .predicates c sl l => if hard then damageWarp c sl (1, l, 0) s else correctedCore 5 c (sl * 32 + l) s
  | .mask c sl k => if hard then damageWarp c sl (3, 0, k) s else correctedCore 10 c (sl * 12 + k) s
  | .pcEntry c sl l => if hard then damageWarp c sl (4, l, 0) s else correctedCore 11 c (sl * 32 + l) s
  | .skipCount c sl l => if hard then damageWarp c sl (5, l, 0) s else correctedCore 12 c (sl * 32 + l) s
  | .code c sl l => if hard then damageWarp c sl (2, l, 0) s else correctedCore 6 c (sl * 32 + l) s
  | .deck c i =>
    if hard then
      match (coreOf s c).deck[i]? with
      | none => s
      | some f =>
        let s := modCore s c fun k => { k with deck := k.deck.modify i fun f => { f with bits := 0 } }
        (coreOf s c).groups.foldl (fun s g => if g.2.launch == f.tag then damageGroup c g.1 s else s) s
    else correctedCore 7 c i s
  | .barrier c g n =>
    if hard then
      if (coreOf s c).groups.any (·.1 == g) then
        damageGroup c g (modGroup s c g fun k => { k with bars := mput {} k.bars n {} })
      else s
    else correctedCore 8 c (g * 1024 + n) s
  | .tile c k r j =>
    let i := r * 256 + j
    if hard then
      let s := modTile s c k fun t => { t with words := mput 0 t.words i 0 }
      (coreOf s c).groups.foldl (fun s g => if g.1 < 64 then damageGroup c g.1 s else s) s
    else correctedCore 9 c (k * 65536 + i) s
  | .weight c p r j =>
    let i := r * 256 + j
    if hard then modCore s c fun k => { k with matrix := { k.matrix with
      planes := mput {} k.matrix.planes p (let x := mget {} k.matrix.planes p; { x with words := mput 0 x.words i 0 }) } }
    else correctedCore 13 c (p * 65536 + i) s

/-- SOFT_ERROR (23 R409, 22 R388, R399). -/
def execSoftError (where_ : SoftWhere) (hard : Bool) (s : State) : Host.Outcome State Fault Refusal :=
  .next (softStep where_ hard s)

end Sys2Proof.Machine
end

