-- ==== Sys2Proof/Machine/Fetch.lean ====
section
/-! DEFINITION. The fetch unit: FETCH, major 0x37, and its cache (14 R307, 04 R90, 05 R109). -/

namespace Sys2Proof.Machine

/-- A line of the fetch cache: 512 lines of 128 bytes, the oldest line leaves (04 R90). -/
def fetchLine (w : Who) (va : Nat) : M (List Byte) := do
  let s ← get
  let base := va / 128 * 128
  let gen := (ctxOf s w.ctx).gen
  match (coreOf s w.core).cache.find? fun l => l.ctx == w.ctx && l.gen == gen && l.va == base with
  | some l => return l.bytes
  | none => do
    let bs ← vread w base 128
    modify fun s => modCore s w.core fun k => { k with cache := (⟨w.ctx, gen, base, bs⟩ :: k.cache).take 512 }
    return bs

/-- A number of `n` bytes through the cache. -/
def fetchBytes (w : Who) (va n : Nat) : M Nat := do
  let mut out : List Byte := []
  for i in List.range n do
    let l ← fetchLine w (va + i)
    out := out ++ [l.getD ((va + i) % 128) 0]
  return ofBytes out

/-- The code of the element stored at place `k` of row `r`. -/
def fetchCode (w : Who) (t : Tensor) (r k : Nat) : M Nat := do
  let b := elemBits t.format
  let v ← fetchBytes w (t.rowAddr r + k * b / 8) (max 1 (b / 8))
  return v / 2 ^ (k * b % 8) % 2 ^ b

/-- The exact value of element `k` of row `r`: its scales applied, 0 when its metadata does not select it (14 R307). -/
def fetchElem (w : Who) (t : Tensor) (r k : Nat) : M Num := do
  if t.sparse then
    let h ← fetchBytes w (t.meta_ + 2 * (r * t.d0 / 8 + k / 8)) 2
    match (keptOf h).findIdx? (· == k % 8) with
    | some j => return elemNum t.format (← fetchCode w t r (4 * (k / 8) + j))
    | none => return .fin false 0 0
  else
    let e := elemNum t.format (← fetchCode w t r k)
    if t.format == 6 || t.format == 7 then
      let x := scaleNum t.format (← fetchBytes w (t.scales r k 1).1 1)
      let b ← if (t.bandOf r).2 = 0 then pure (.fin false 1 0) else do
        return bf16.decode (← fetchBytes w (t.bandOf r).1 2)
      return (mulNum (mulNum e x).1 b).1
    else return e

/-- The results of a MODE: how many, their width, and the rounding (14 R307). -/
def fetchRound (mode : Nat) (v : Num) : Nat × Nat :=
  match mode with
  | 0 => f32.round 0 false 0 v
  | 1 => bf16.round 0 false 0 v
  | 2 => f16.round 0 false 0 v
  | _ => roundInt 32 true 0 0 v

/-- One lane's result and flags. -/
def fetchLane (w : Who) (x0 x1 x2 : Word) : M (Word × Nat) := do
  let t := tensorOf (← tidRead w (x2.toNat % 256) false)
  if !t.usable || t.pad || t.enc then throw (.fail 0x0C 0)
  let mode := fld x2.toNat 9 8
  let n := if mode = 0 || mode = 3 then 2 else 4
  let i1 := x0.toNat / 2 ^ 32
  let i2 := x1.toNat % 2 ^ 32
  let i3 := x1.toNat / 2 ^ 32
  let mut v := 0
  let mut f := 0
  for j in List.range n do
    let k := x0.toNat % 2 ^ 32 + j
    if k < t.d0 && i1 < t.d1 && i2 < t.d2 && i3 < t.d3 then
      let (c, g) := fetchRound mode (← fetchElem w t (i1 + t.d1 * (i2 + t.d2 * i3)) k)
      v := v + c * 2 ^ (64 / n * j)
      f := f ||| g
  return (.ofNat 64 v, f)

/-- FETCH: it waits for its threads' FLUSHL words (12 R271), then reads for every thread; no lane writes when one fails. -/
def execFetch (c : BitVec 1) (g : BitVec 3) (d a b : BitVec 6) (s : State) : Host.Outcome State Fault Refusal :=
  .next (issueE (.fetch c g d a b) g noCheck (fun ls s =>
    if ls.any fun l => (laneOf (iWarp s) l).flushWait then stallIssue s
    else inlineM s ls (ls.mapM fun l => do
      let x := iLane s l
      let (v, f) ← fetchLane (iWho s 5) (getX x (rA s a)) (getX x (rA s a + 1)) (getX x (rB s b))
      return (l, v, f)) fun vs s =>
        iFlags (vs.foldl (fun f e => f ||| e.2.2) 0) (putX s (rD s d) 1 (vs.map fun e => (e.1, e.2.1)))) s)

end Sys2Proof.Machine
end

