-- ==== Sys2Proof/Machine/Crypto.lean ====
section
/-! DEFINITION. SHA-256 and the verification of ECDSA P-256 signatures (21 R379, R380, R382), as the standards that 00 R2
names define them (log 15). -/

namespace Sys2Proof.Machine

/-! ### SHA-256 -/

/-- The first numbers from `k` on that no smaller prime divides: the primes below `k + n`. -/
def primesFrom : Nat → Nat → List Nat → List Nat
  | 0, _, found => found.reverse
  | n + 1, k, found => primesFrom n (k + 1) (if found.all fun p => k % p ≠ 0 then k :: found else found)

/-- The first 64 primes, 2 to 311. -/
def shaPrimes : List Nat := primesFrom 310 2 []

/-- The largest number whose `k`-th power does not exceed `n`, found from its bit `bits - 1` down. -/
def rootOf (k n : Nat) : Nat → Nat → Nat
  | 0, r => r
  | bits + 1, r => rootOf k n bits (if (r + 2 ^ bits) ^ k ≤ n then r + 2 ^ bits else r)

/-- The first 32 bits after the point of the `k`-th root of `p`. -/
def rootFraction (k p : Nat) : W32 := BitVec.ofNat 32 (rootOf k (p * 2 ^ (32 * k)) 40 0)

/-- Big-endian bytes of a number. -/
def beBytes (n v : Nat) : List Byte := (leBytes n v).reverse
/-- The number that big-endian bytes hold. -/
def ofBE (bs : List Byte) : Nat := ofBytes bs.reverse

/-- The message, a one bit, zeros, and its length in bits: whole blocks of 64 bytes. -/
def shaPad (m : List Byte) : List Byte :=
  m ++ [0x80] ++ List.replicate ((119 - m.length % 64) % 64) 0 ++ beBytes 8 (8 * m.length)

/-- The xor of a word turned right by each of `by`. -/
def turned (w : W32) (by_ : List Nat) : W32 := by_.foldl (fun acc n => acc ^^^ w.rotateRight n) 0

/-- The next word of the message schedule; the 16 words before it, newest first. -/
def nextWord (w : List W32) : W32 :=
  let far := w.getD 14 0
  let near := w.getD 1 0
  w.getD 15 0 + (turned far [7, 18] ^^^ (far >>> 3)) + w.getD 6 0 + (turned near [17, 19] ^^^ (near >>> 10))

/-- The two halves of the working variables, each the newest value first: `top` holds a to d, `low` holds e to h. A round
puts one new value before each half and the oldest of each falls away. -/
structure ShaVars where
  top : List W32
  low : List W32
  deriving DecidableEq, Repr

/-- One round with the sum of its constant and its schedule word. -/
def ShaVars.round (v : ShaVars) (kw : W32) : ShaVars :=
  match v.top, v.low with
  | [a, b, c, d], [e, f, g, h] =>
    let mixed := h + kw + turned e [6, 11, 25] + (g ^^^ (e &&& (f ^^^ g)))
    { top := [mixed + turned a [2, 13, 22] + ((a &&& b) ||| (c &&& (a ||| b))), a, b, c], low := [d + mixed, e, f, g] }
  | _, _ => v

/-- The rounds, one for each prime, whose cube root gives the round's constant. `w` holds the 16 newest words of the schedule,
newest first: its oldest is the round's. -/
def shaRounds : List Nat → List W32 → ShaVars → ShaVars
  | [], _, v => v
  | p :: ps, w, v => shaRounds ps (nextWord w :: w.take 15) (v.round (rootFraction 3 p + w.getD 15 0))

/-- The hash value before any block: from the square roots of the first eight primes. -/
def shaInit : ShaVars :=
  { top := (shaPrimes.take 4).map (rootFraction 2), low := ((shaPrimes.drop 4).take 4).map (rootFraction 2) }

/-- The hash value after one block of 64 bytes. -/
def shaBlock (v : ShaVars) (b : List Byte) : ShaVars :=
  let w := (List.range 16).map fun i => BitVec.ofNat 32 (ofBE ((b.drop (60 - 4 * i)).take 4))
  let r := shaRounds shaPrimes w v
  { top := List.zipWith (· + ·) v.top r.top, low := List.zipWith (· + ·) v.low r.low }

/-- SHA-256: 32 bytes. -/
def sha256 (m : List Byte) : List Byte :=
  let p := shaPad m
  let v := (List.range (p.length / 64)).foldl (fun v i => shaBlock v ((p.drop (64 * i)).take 64)) shaInit
  (v.top ++ v.low).flatMap fun w => beBytes 4 w.toNat

/-! ### ECDSA P-256 -/

/-- The prime of the field, the order of the group, and the curve's b. -/
def p256P : Nat := 2 ^ 256 - 2 ^ 224 + 2 ^ 192 + 2 ^ 96 - 1
def p256N : Nat := 0xffffffff00000000ffffffffffffffffbce6faada7179e84f3b9cac2fc632551
def p256B : Nat := 0x5ac635d8aa3a93e7b3ebbd55769886bc651d06b0cc53b0f63bce3c3e27d2604b
/-- The base point. -/
def p256G : Nat × Nat :=
  (0x6b17d1f2e12c4247f8bce6e563a440f277037d812deb33a0f4a13945d898c296,
   0x4fe342e2fe1a7f9b8ee7eb4a7c0f9e162bce33576b315ececbb6406837bf51f5)

/-- Powers modulo `m`, over the low `n` bits of the exponent. -/
def powMod (m : Nat) : Nat → Nat → Nat → Nat
  | 0, _, _ => 1 % m
  | n + 1, b, e =>
    let r := powMod m n (b * b % m) (e / 2)
    if e % 2 = 1 then r * b % m else r

/-- The inverse modulo a prime. -/
def invMod (m a : Nat) : Nat := powMod m 256 (a % m) (m - 2)

/-- Addition of points; none is the point at infinity. -/
def ecAdd (x y : Option (Nat × Nat)) : Option (Nat × Nat) :=
  match x, y with
  | none, q => q
  | q, none => q
  | some (x1, y1), some (x2, y2) =>
    let p := p256P
    if x1 = x2 && (y1 + y2) % p = 0 then none
    else
      let l := if x1 = x2 then (3 * x1 * x1 + p - 3) * invMod p (2 * y1) % p
        else (y2 + p - y1) * invMod p (x2 + p - x1) % p
      let x3 := (l * l + 2 * p - x1 - x2) % p
      some (x3, (l * (x1 + p - x3) + p - y1) % p)

/-- A multiple of a point, over the low `n` bits of the factor. -/
def ecMul : Nat → Nat → Option (Nat × Nat) → Option (Nat × Nat)
  | 0, _, _ => none
  | n + 1, k, q => ecAdd (if k % 2 = 1 then q else none) (ecMul n (k / 2) (ecAdd q q))

/-- Is (r, s) a signature of a digest under a key? -/
def ecdsaOk (key : Nat × Nat) (digest r s : Nat) : Bool :=
  let n := p256N
  let (x, y) := key
  if r = 0 || n ≤ r || s = 0 || n ≤ s || p256P ≤ x || p256P ≤ y || y * y % p256P ≠ (x * x * x + (p256P - 3) * x + p256B) % p256P then false
  else
    let w := invMod n s
    match ecAdd (ecMul 256 (digest * w % n) (some p256G)) (ecMul 256 (r * w % n) (some key)) with
    | none => false
    | some (x, _) => x % n = r

end Sys2Proof.Machine
end

