-- ==== Sys2Proof/Machine/Upkeep.lean ====
section
/-! DEFINITION. Page-request answers (23 R406), generations (04 R86), resident windows (04 R77), retraining (04 R91,
23 R415), the numerical registers (06 R133, R135), received remote writes (05 R107, 23 R416) and the scrubber (23 R413). -/

namespace Sys2Proof.Machine

/-! ### Answers to page requests (23 R405, R406) -/

/-- A waiting access goes on waiting elsewhere, or walks again, under the generation current then. -/
def waitAccess (f : Nat × Nat → Option (Nat × Nat)) (gen : Nat) (e : Access) : Access :=
  match e.wait with
  | none => e
  | some w => match f w with
    | some v => { e with wait := some v }
    | none => { e with wait := none, gen := gen }

/-- The waits of a lane under a map. -/
def waitLane (f : Nat × Nat → Option (Nat × Nat)) (gen : Nat) (l : Lane) : Lane :=
  { l with
    front := l.front.map (waitAccess f gen),
    wait := l.wait.bind fun w => (f (w.sector, w.slot)).map fun v => { w with sector := v.1, slot := v.2 } }

/-- The waits of a warp under a map. -/
def waitWarp (f : Nat × Nat → Option (Nat × Nat)) (s : State) (w : Warp) : Warp :=
  { w with lanes := w.lanes.filterMap fun l =>
      let y := waitLane f (ctxOf s w.ctx).gen l.2
      if y = {} then none else some (l.1, y) }

/-- The waits of a core under a map. -/
def waitCore (f : Nat × Nat → Option (Nat × Nat)) (s : State) (k : Core) : Core :=
  { k with
    warps := k.warps.map fun w => (w.1, waitWarp f s w.2),
    groups := k.groups.map fun g => (g.1, { g.2 with recs := g.2.recs.map fun r => { r with wait := r.wait.bind f } }),
    beams := k.beams.map fun q => { q with wait := q.wait.bind f },
    unitWait := k.unitWait.filterMap fun u => (f u.2).map fun v => (u.1, v) }

/-- The waits of a context under a map. -/
def waitCtx (f : Nat × Nat → Option (Nat × Nat)) (x : Ctx) : Ctx :=
  { x with
    queues := x.queues.map fun q => (q.1, { q.2 with wait := q.2.wait.bind f, pubWait := q.2.pubWait.bind f }),
    launches := x.launches.map fun l => (l.1, { l.2 with wait := l.2.wait.bind f }),
    wait := x.wait.bind f }

/-- Every wait on a page request under a map: elsewhere, or no more. -/
def mapWaits (f : Nat × Nat → Option (Nat × Nat)) (s : State) : State :=
  { s with
    cores := s.cores.map fun e => (e.1, waitCore f s e.2),
    ctxs := s.ctxs.map fun e => (e.1, waitCtx f e.2),
    received := s.received.map fun r => { r with wait := r.wait.bind f } }

/-- Every access, walk and record that waits on a slot goes on (23 R406). -/
def retryWaits (x n : Nat) (s : State) : State := mapWaits (fun w => if w == (x, n) then none else some w) s

/-- May a waiting walk be admitted: to a posted slot of its page, or a free slot that it may use? -/
def admissible (sec : Sector) (r : Waiter) : Bool :=
  sec.posted.any (fun e => samePage e.2 r) || (freeSlotFor sec r.ctx).isSome

/-- Waiting walks take the slots they may, in the order in which they began to wait; what waits under a walk's ticket then waits
on its slot (23 R405). -/
def admitWalks (x : Nat) : Nat → State → State
  | 0, s => s
  | k + 1, s =>
    let sec := sectorOf s x
    match sec.waiting.find? (admissible sec) with
    | none => s
    | some r =>
      let s := setWaiting s x (sec.waiting.erase r)
      let (n, s) := match sec.posted.find? fun e => samePage e.2 r with
        | some e => (e.1, s)
        | none =>
          let n := (freeSlotFor sec r.ctx).getD 0
          (n, fillSlot s x n { r with ticket := 0 })
      admitWalks x k (mapWaits (fun w => some (if w == (x, r.ticket) then (x, n) else w)) s)

/-- A slot is free again: STATE 0, ANSWERED counts an answer, and waiting walks are admitted (23 R405, R406). -/
def freePage (s : State) (x n : Nat) (answered : Bool) : State :=
  let s := modSector s x fun k => { k with posted := k.posted.filter (·.1 != n) }
  let q := pageArea x
  let s := applyWrite s x (q + 0x10040 + 8 * n) (leBytes 8 0)
  let s := if answered then applyWrite s x (q + 8) (leBytes 8 ((peek s x (q + 8) 8 + 1) % 2 ^ 64)) else s
  admitWalks x (sectorOf s x).waiting.length s

/-- Is a slot posted, and its status word the host's to write? -/
def isPosted (s : State) (x n : Nat) : Bool := (sectorOf s x).posted.any (·.1 == n)

/-- PAGE_REQUEST_RETRY's step: the re-walks see the host's table edits (23 R406). -/
def pageRetry (x n : Nat) (s : State) : Option State :=
  if isPosted s x n then some (freePage (retryWaits x n (deliverAll s)) x n true) else none

/-- PAGE_REQUEST_RETRY (23 R406). -/
def execPageRequestRetry (sector n : Nat) (s : State) : Host.Outcome State Fault Refusal := .next (orSame (pageRetry sector n) s)

/-- The first access of a warp that waits on a slot. -/
def failingAccess (x n : Nat) (w : Warp) : Option (Nat × Nat × Access) :=
  (List.range 32).findSome? fun l =>
    let f := (laneOf w l).front
    (f.findIdx? fun e => e.wait == some (x, n)).map fun i => (l, i, f.getD i { kind := .fence })

/-- Does the access that a query waits on reach its thread's record, and not its counter (15 R320, R321)? -/
def recordMissing (e : Access) : Bool :=
  decide (e.va.toNat ≤ e.x1.toNat) && decide (e.x1.toNat < e.va.toNat + if e.red then 64 else 256)

/-- An access that waits on a slot fails: TRANSLATION for its word, HANDLE_WORLD for a VOPEN (log 54); a query's counter that
cannot be reached is left alone. -/
def failAccess (c slot l i : Nat) (e : Access) (s : State) : State :=
  match e.kind with
  | .vopen => accessFault s c slot l i 0x10 0
  | .query => if recordMissing e then accessFault s c slot l i 0x06 e.x1
      else modEntry s c slot l i fun e => { e with wait := none, armed := true }
  | _ => accessFault s c slot l i 0x06 e.va

/-- Every access of a warp that waits on a slot fails, one record for each word. -/
def failAccesses (x n c slot : Nat) : Nat → State → State
  | 0, s => s
  | k + 1, s =>
    match failingAccess x n (warpOf s c slot) with
    | none => s
    | some (l, i, e) => failAccesses x n c slot k (failAccess c slot l i e s)

/-- The threads of a group that could not act before the answer fault with the cause that their word may raise (10 R227, 22 R397,
log 8); a word that raises none walks again (log 54). -/
def failGroup (x n c slot : Nat) (s : State) : State :=
  let w := warpOf s c slot
  let waits := (List.range 32).filterMap fun l => (laneOf w l).wait.map fun v => (l, v)
  match waits.find? fun e => e.2.sector == x && e.2.slot == n with
  | none => s
  | some (l, v) =>
    let lanes := (waits.filter fun e => e.2 == v).map (·.1)
    let s := modWarp s c slot fun w => lanes.foldl (fun w l => modLane w l fun y => { y with wait := none }) w
    let hit := lanes.filter v.lanes.getLsbD
    if hit.isEmpty || v.cause == 0 then s else
    let x0 := laneOf w l
    raiseFault {
      cause := v.cause, addr := if v.cause == 0x06 then v.va else 0, core := c, slot := slot, lanes := maskOf hit, pc := x0.pc,
      words := v.words, widx := v.widx, word := v.word, rep := some x0.rep, reps := 0, byAccess := true } s

/-- TRANSLATION for every group of a warp that waits on a slot. -/
def failGroups (x n c slot : Nat) : Nat → State → State
  | 0, s => s
  | k + 1, s => failGroups x n c slot k (failGroup x n c slot s)

/-- The record or table of a group that waits on a slot cannot be written, or its trap table not be read: the open records go
to the host, with ADDR 0 in the first two cases (22 R392, R396). -/
def failRecord (c g i : Nat) (s : State) : State :=
  let r := (groupOf s c g).recs.getD i {}
  let put (f : FaultRec → FaultRec) (s : State) : State := modGroup s c g fun k => { k with recs := k.recs.modify i f }
  let s := put (fun r => { r with wait := none, held := 0 }) s
  match r.held with
  | 1 => tableLost c g s
  | 2 => (openRecs (groupOf s c g)).foldl (fun s i => toHost s c g i) s
  | _ =>
    if r.state == 0 then logCore (put (fun r => { r with addr := 0, state := 4, written := true }) s) c (groupOf s c g).ctx r.cause 0 0
    else put (fun r => { r with written := true }) s

/-- The records of a core that wait on a slot fail. -/
def failRecords (x n c : Nat) (s : State) : State :=
  (coreOf s c).groups.foldl (fun s g =>
    (List.range g.2.recs.length).foldl (fun s i =>
      if (g.2.recs.getD i {}).wait == some (x, n) then failRecord c g.1 i s else s) s) s

/-- Every access, walk and record that waits on a slot fails (23 R406). -/
def failWaits (x n : Nat) (s : State) : State :=
  let on (w : Option (Nat × Nat)) : Bool := w == some (x, n)
  let s := s.cores.foldl (fun s e =>
    let s := e.2.warps.foldl (fun s w => failGroups x n e.1 w.1 32 (failAccesses x n e.1 w.1 1024 s)) s
    modCore (failRecords x n e.1 s) e.1 fun k => { k with
      beams := k.beams.map fun q => if on q.wait then { q with wait := none, failed := q.stuck :: q.failed } else q,
      unitFail := k.unitFail ++ (k.unitWait.filter fun u => u.2 == (x, n)).map (·.1),
      unitWait := k.unitWait.filter fun u => u.2 != (x, n) }) s
  let queue (q : LQueue) : LQueue :=
    let q := if on q.wait then { q with wait := none, failed := true } else q
    if on q.pubWait then { q with pubWait := none, pubFailed := true } else q
  { s with
    ctxs := s.ctxs.map fun e => (e.1, { e.2 with
      queues := e.2.queues.map fun q => (q.1, queue q.2),
      launches := e.2.launches.map fun l => (l.1, if on l.2.wait then { l.2 with wait := none, failed := true } else l.2),
      wait := if on e.2.wait then none else e.2.wait, failed := e.2.failed || on e.2.wait }),
    received := s.received.map fun r => if on r.wait then { r with wait := none, failed := true } else r }

/-- PAGE_REQUEST_FAIL's step. -/
def pageFail (x n : Nat) (s : State) : Option State :=
  if isPosted s x n then some (freePage (failWaits x n s) x n true) else none

/-- PAGE_REQUEST_FAIL (23 R406). -/
def execPageRequestFail (sector n : Nat) (s : State) : Host.Outcome State Fault Refusal := .next (orSame (pageFail sector n) s)

/-! ### Generations (04 R85, R86) -/

/-- Discard the TLB entries, and the lines of fetch and instruction caches, of a context's older generations. -/
def dropStale (ctx : Nat) (s : State) : State :=
  let g := (ctxOf s ctx).gen
  let keep (t : List TlbEntry) : List TlbEntry := t.filter fun e => e.ctx != ctx || e.gen == g
  let lines (t : List CacheLine) : List CacheLine := t.filter fun l => l.ctx != ctx || l.gen == g
  { s with
    cores := s.cores.map (fun e => (e.1, { e.2 with
      tlb := keep e.2.tlb, cache := lines e.2.cache, icache := lines e.2.icache })),
    sectors := s.sectors.map fun e => (e.1, { e.2 with tlb := keep e.2.tlb }) }

/-- A write of BUMP: ignored while BUSY; the walks of the new generation see the host's earlier table edits (04 R86, R87). -/
def bump (ctx : Nat) (s : State) : State :=
  if (ctxOf s ctx).busy then s
  else dropStale ctx (modCtx (deliverAll s) ctx fun x => { x with gen := x.gen % 65535 + 1, busy := true })

/-- ASGEN_BUMP (04 R86). -/
def execAsgenBump (ctx : Nat) (s : State) : Host.Outcome State Fault Refusal := .next (whenReady s (bump ctx))

/-- Is an access of an older generation still neither performed nor rejected? -/
def staleLeft (ctx : Nat) (s : State) : Bool :=
  let g := (ctxOf s ctx).gen
  s.cores.any fun e => e.2.warps.any fun w => w.2.ctx == ctx && w.2.st != .free &&
    w.2.lanes.any fun l => l.2.front.any fun a => isOwnAcc a && a.gen != g && a.wait.isNone

/-- ASGEN_BUMP_COMPLETE's step. -/
def bumpDone (ctx : Nat) (s : State) : Option State :=
  if (ctxOf s ctx).busy && !staleLeft ctx s then some (modCtx s ctx fun x => { x with busy := false }) else none

/-- ASGEN_BUMP_COMPLETE (04 R86). -/
def execAsgenBumpComplete (ctx : Nat) (s : State) : Host.Outcome State Fault Refusal := .next (orSame (bumpDone ctx) s)

/-! ### Resident windows (04 R77) -/

/-- The bytes that a window charges its sector: those of its range that the sector homes. -/
def windowCharge (x : Nat) (base ctl : Word) : Nat :=
  if !ctl.getLsbD 63 then 0 else
  let a := fld base.toNat 51 21 * 2097152
  ((List.range (fld ctl.toNat 55 48)).filter fun i => backed (a + i * 2097152) && homeSector (a + i * 2097152) == x).length * 2097152

/-- The bytes pinned by a sector's windows other than `v`. -/
def pinned (k : Sector) (x v : Nat) : Nat :=
  ((List.range 32).filter (· != v)).foldl (fun n i => n + windowCharge x (mget 0 k.rwin (2 * i)) (mget 0 k.rwin (2 * i + 1))) 0

/-- A write of RWINCTL: an enable above 96 MiB stores 0 and sets OVER. -/
def rwinStep (x v : Nat) (w : Word) (s : State) : State :=
  let k := sectorOf s x
  let ovf := (mget 0 k.rwin (2 * v + 1)).getLsbD 62 && !w.getLsbD 62
  let fields : Word := w &&& 0x3FFF000000000000
  let refused := w.getLsbD 63 && decide (100663296 < pinned k x v + windowCharge x (mget 0 k.rwin (2 * v)) (fields ||| 1#64 <<< 63))
  let ctl := fields ||| (if w.getLsbD 63 && !refused then 1#64 <<< 63 else 0) ||| (if ovf || refused then 1#64 <<< 62 else 0)
  modSector s x fun k => { k with rwin := mput 0 k.rwin (2 * v + 1) ctl }

/-- RWINCTL_WRITE (04 R77). -/
def execRwinctlWrite (sector window : Nat) (v : Word) (s : State) : Host.Outcome State Fault Refusal :=
  .next (whenReady s fun s => if sector < 4 && window < 32 then rwinStep sector window v s else s)

/-! ### Retraining (04 R91, 23 R415) -/

/-- Change a stack's registers. -/
def modStack (s : State) (k : Nat) (f : Stack → Stack) : State := { s with hbm := mput {} s.hbm k (f (stackAt s k)) }

/-- HBMRTCTL_WRITE (04 R91): an interval outside 1 to 1,000 stores the nearer limit. -/
def execHbmrtctlWrite (stack : Nat) (v : Word) (s : State) : Host.Outcome State Fault Refusal :=
  .next (whenReady s fun s => modStack s stack fun k => { k with en := v.getLsbD 31, interval := min 1000 (max 1 (v.toNat % 65536)) })

/-- Does a deadline save run in a sector? -/
def saveRuns (s : State) (x : Nat) : Bool :=
  s.ctxs.any fun e => e.2.saving == 1 && e.2.deadline &&
    s.cores.any fun c => secOf c.1 == x && c.2.holder == e.1 + 1

/-- HBM_RETRAIN's step: the next channel, once its interval is over; a deadline save defers it for 2 ms at most. -/
def retrainStep (n : Nat) (s : State) : Option State :=
  let k := stackAt s n
  if !k.en || s.clk < k.last + k.interval * 1400000 then none
  else if saveRuns s (n / 2) && (match k.since with | some t => decide (s.clk < t + 2800000) | none => true) then
    if k.since.isSome then none else some (modStack s n fun k => { k with deferred := true, since := some s.clk })
  else some (modStack s n fun k => { k with
    lastCh := .ofNat 8 k.nextCh, nextCh := (k.nextCh + 1) % (Config.channels % 256 + 1), count := k.count + 1,
    last := s.clk, since := none })

/-- HBM_RETRAIN (04 R91, 23 R415). -/
def execHbmRetrain (stack : Nat) (s : State) : Host.Outcome State Fault Refusal := .next (orSame (retrainStep stack) s)

/-! ### Remote writes received (05 R107, 23 R416, R417) -/

/-- How late a write is: windows past its bound, 0 when it is not. -/
def lateness (now window : Nat) : Nat :=
  let d := (now + 2 ^ 32 - window % 2 ^ 32) % 2 ^ 32
  if 2 ≤ d && d < 2 ^ 31 then d - 1 else 0

/-- The atomic of a ROP (09 R201). -/
def ropAtom (r : Nat) : AtomOp := match r with | 2 => .minS | 3 => .maxS | 4 => .fadd | 5 => .fadd | _ => .add

/-- What a received write or reduce does: a write of the receiving port's sector, or an atomic for each element. -/
def applyRemote (r : Remote) : M Unit := do
  let w : Who := ⟨sectorUnit r.sector, r.ctx, 2⟩
  if r.rop = 0 then vwrite w r.va r.bytes
  else
    let z := ropSize (r.rop - 1)
    let _ ← translate w (.ofNat 64 (r.va + r.bytes.length - 1)) 3
    for i in List.range (r.bytes.length / z) do
      let _ ← vatomic w (r.va + i * z) z fun old =>
        atomNew (ropAtom (r.rop - 1)) z old (ofBytes ((r.bytes.drop (i * z)).take z)) 0

/-- Does one remote write stand in the same window queue as another (05 R107)? -/
def sameWindowQueue (o r : Remote) : Bool := o.core == r.core && o.q == r.q && o.pkg == r.pkg && o.ctx == r.ctx

/-- A write that this package sent is applied at its target, which is outside: the oldest of its window queue, once it has left
its port (05 R94, R101, R107). -/
def appliedFar (j : Nat) (s : State) : Option State :=
  match s.sent[j]? with
  | none => none
  | some r =>
    if (s.sent.take j).any (sameWindowQueue · r) || s.ports.any (fun p => p.2.outbox.any fun x => x.2.2.1 == r.ident) then none
    else some { s with sent := s.sent.eraseIdx j }

/-- REMOTE_WRITE_APPLY's step: a window queue's writes are applied in send order; one that its pages refuse, or that is
answered FAIL, is dropped (log 9).  Beyond the writes received it stands for one that was sent, at its target. -/
def remoteApply (i : Nat) (s : State) : Option State :=
  match s.received[i]? with
  | none => appliedFar (i - s.received.length) s
  | some r =>
    if (s.received.take i).any (sameWindowQueue · r) || r.wait.isSome then none else
    let s0 := { s with received := s.received.eraseIdx i }
    if r.failed then some s0 else
    match applyRemote r s with
    | .error (.page x q _) _ =>
      let (n, s) := postPage s x q
      some { s with received := s.received.modify i fun r => { r with wait := some (x, n) } }
    | .error (.fail _ _) _ => some s0
    | .ok _ s =>
      let s := { s with received := s.received.eraseIdx i }
      let n := lateness (windowNow s) r.window
      some (if n = 0 then s else
        logError s r.sector 0x4B r.va (ctxOf s r.ctx).gen (r.ctx / 64) (r.ctx % 64) 255
          (detail 15 2 (if r.rop = 0 then 1 else 2) (r.pkg % 256 * 2 ^ 24 + min n 0xFFFFFF)))

/-- REMOTE_WRITE_APPLY (05 R107). -/
def execRemoteWriteApply (idx : Nat) (s : State) : Host.Outcome State Fault Refusal := .next (orSame (remoteApply idx) s)

/-! ### Numerical registers (06 R133, R135) -/

/-- NUMCTL_WRITE (06 R133): a SAMPLELOG outside 4 to 16 stores the nearer limit. -/
def execNumctlWrite (ctx : Nat) (v : Word) (s : State) : Host.Outcome State Fault Refusal :=
  .next (whenReady s fun s => modCtx s ctx fun x => { x with mode := v.toNat % 4, sampleLog := min 16 (max 4 (fld v.toNat 19 16)) })

/-- NUMDROP_CLEAR (06 R135, 00 R8): only all ones clears. -/
def execNumdropClear (ctx : Nat) (v : Word) (s : State) : Host.Outcome State Fault Refusal :=
  .next (whenReady s fun s => if v.toNat % 2 ^ 32 = 0xFFFFFFFF then modCtx s ctx fun x => { x with numDrop := 0 } else s)

/-! ### The background scrubber (23 R413) -/

/-- PAGE_SCRUB (23 R413). -/
def execPageScrub (page : Nat) (s : State) : Host.Outcome State Fault Refusal :=
  .next (if (sectorOf s (homeSector (page * 65536))).scrub.contains page then scrubPage s page else s)

end Sys2Proof.Machine
end

