-- ==== Sys2Proof/Machine/Warps.lean ====
section
/-! DEFINITION. The warp state machine's own steps, saving and restoring (02 R25, R37-R42, 03 R67, R68, 09 R212, 12 R269,
14 R295, 22 R388, R391, R402, 23 R407). -/

namespace Sys2Proof.Machine

/-! ### The PC table (02 R25) -/

/-- Put a lane into a list that rises by a key, behind the lanes of its own key. -/
def insertBy (key : Nat → Int) (l : Nat) : List Nat → List Nat
  | [] => [l]
  | h :: t => if key l < key h then l :: h :: t else h :: insertBy key l t

/-- Lanes in rising order of a key. -/
def sortBy (key : Nat → Int) (ls : List Nat) : List Nat := ls.foldl (fun t l => insertBy key l t) []

/-- The re-sorted PC table: starved ready entries, other ready ones, parked, exited. -/
def resortWarp (w : Warp) : Warp :=
  let st (l : Nat) : LaneSt := (laneOf w l).st
  let pc (l : Nat) : Int := (laneOf w l).pc
  let all := List.range 32
  let ready := all.filter fun l => st l == .ready
  { w with order := sortBy pc (ready.filter fun l => 32 ≤ (laneOf w l).skip) ++
      sortBy pc (ready.filter fun l => (laneOf w l).skip < 32) ++
      all.filter (fun l => st l == .parked) ++ all.filter fun l => st l == .exited }

/-- PC_TABLE_RESORT (02 R25). -/
def execPcTableResort (core slot : Nat) (s : State) : Host.Outcome State Fault Refusal :=
  .next (if (warpOf s core slot).st == .free then s else modWarp s core slot resortWarp)

/-! ### Loading and exiting (02 R37) -/

/-- WARP_LOAD_COMPLETE's step: the PC table sorted, skip counts 0, the age set; a warp of a halted group is HALTED. -/
def loadDone (c slot : Nat) (s : State) : Option State :=
  let w := warpOf s c slot
  if w.st != .loading then none else
  let g := w.group
  let w := (List.range 32).foldl (fun w l => modLane w l fun x => { x with skip := 0 }) w
  let w := resortWarp { w with
    st := if (groupOf s c g).halted then .halted else .ready, age := if w.kind == .task then w.age else s.clk }
  let s := settleAt c slot (setWarp s c slot w)
  some (restartGroup c g s)

/-- WARP_LOAD_COMPLETE (02 R37). -/
def execWarpLoadComplete (core slot : Nat) (s : State) : Host.Outcome State Fault Refusal := .next (orSame (loadDone core slot) s)

/-- Has a VOPEN of a thread, waiting on a sync point, yet to write a register? -/
def vopenDue (x : Lane) (n : Nat) : Bool := x.front.any fun e => e.kind == .vopen && e.dst == n && e.wait.isNone

/-- Have a warp's issued words written all their results?  A parked wait is saved as it stands, and so is a VOPEN that waits on a
sync point, which may run only once the context has left (log 31). -/
def warpQuiet (saving : Bool) (s : State) (c : Nat) (w : Warp) : Bool :=
  (w.board.all fun p => (p.due != 0 && decide (p.due ≤ s.clk)) ||
    (lanesOf p.lanes).all fun l => (laneOf w l).st == .parked || (saving && p.kind == 0 && vopenDue (laneOf w l) p.num))
  && w.lanes.all fun x => x.2.wait.isNone && !x.2.tidWait && !x.2.flushWait &&
    x.2.front.all fun e => doneHold s c e || e.wait.isNone &&
      ((e.kind == .waitv || e.kind == .join) && x.2.st == .parked || saving && e.kind == .vopen)

/-- Take a freed slot out of its group; the last one ends the group. -/
def leaveGroup (c g slot : Nat) (s : State) : State :=
  let s := modGroup s c g fun x => { x with slots := x.slots.filter (· != slot) }
  let k := groupOf s c g
  if !k.slots.isEmpty then s
  else
    let s := if k.recs.isEmpty then s else freeRecs c g s
    let hist (m : Map PadHist) : Map PadHist :=
      m.filter fun e => !(decide (k.padBase ≤ e.1) && decide (e.1 < k.padBase + k.padSize))
    let s := modCore s c fun x => { x with groups := mput {} x.groups g {}, hist := if g < 64 then hist x.hist else x.hist }
    let s := if 64 ≤ g && (groupOf s c k.handles).handlers.contains slot then
        modGroup s c k.handles fun x => { x with handlers := x.handlers.filter (· != slot) }
      else s
    if g < 64 then modLaunch s k.ctx k.launch fun x => { x with ended := x.ended + 1 } else s

/-- WARP_EXIT_COMPLETE's step. -/
def exitDone (c slot : Nat) (s : State) : Option State :=
  let w := warpOf s c slot
  if w.st != .exiting || !warpQuiet false s c w || engineHolds (coreOf s c) w.serial then none
  else some (leaveGroup c w.group slot (setWarp s c slot {}))

/-- WARP_EXIT_COMPLETE (02 R37). -/
def execWarpExitComplete (core slot : Nat) (s : State) : Host.Outcome State Fault Refusal := .next (orSame (exitDone core slot) s)

/-! ### Leaving a core (02 R38, R39, R42) -/

/-- A core begins to leave its holder, for `us` microseconds by reconvergence, 1,400 clk each, at the most; an instruction-boundary
save ends a wait for reconvergence, and a shorter timeout shortens it (02 R39, R42, 21 R373). -/
def leaveCore (mode us c : Nat) (s : State) : State :=
  let k := coreOf s c
  let by_ := s.clk + us * 1400
  if k.leaving == 0 then drainCore c (modCore s c fun k => { k with leaving := mode, leaveBy := by_, savePos := 0 })
  else if mode == 1 && k.leaving == 2 then drainCore c (modCore s c fun k => { k with leaving := 1 })
  else modCore s c fun k => { k with leaveBy := min k.leaveBy by_ }

/-- The timeout of a core that is reclaimed or taken out of service (21 R373, 22 R388). -/
def reclaimLimit : Nat := 40
/-- A context's own timeout, RCTIMEOUT of its record (02 R39). -/
def ownLimit (s : State) (ctx : Nat) : Nat := recField s ctx 423 414

/-- The cores that a context holds. -/
def heldCores (s : State) (ctx : Nat) : List Nat := (s.cores.filter fun e => e.2.holder == ctx + 1).map (·.1)

/-- WARP_DRAIN_COMPLETE's step. -/
def drainDone (c slot : Nat) (s : State) : Option State :=
  let w := warpOf s c slot
  if w.st == .draining && warpQuiet true s c w then some (modWarp s c slot fun w => { w with st := .saving }) else none

/-- WARP_DRAIN_COMPLETE (02 R37). -/
def execWarpDrainComplete (core slot : Nat) (s : State) : Host.Outcome State Fault Refusal := .next (orSame (drainDone core slot) s)

/-! ### The save image (02 R40, R41, 03 R68, 09 R212, 12 R269) -/

/-- The save record of a warp. -/
def warpImage (w : Warp) : List Byte :=
  let live := liveLanes w
  let x0 := laneOf w (live.headD 0)
  let m := maskOf live
  let head := if w.compact then
      x0.rep % 64 * 2 ^ 112 + x0.pc % 2 ^ 48 * 2 ^ 64
      + ((List.range 12).foldl (fun v k => if mget 0 w.masks k != 0 then v + 2 ^ (52 + k) else v) 0) + 2 ^ 48
    else (List.range 12).foldl (fun v k => v + (mget 0 w.masks k).toNat * 2 ^ (128 + 32 * k)) 0
  let thread (l : Nat) : Nat :=
    let x := laneOf w l
    let full := if w.compact then 0 else
      x.sib.toNat * 2 ^ 96 + x.parent * 2 ^ 88 + x.fid * 2 ^ 80 + x.skip * 2 ^ 72 + x.rep % 64 * 2 ^ 48 + x.pc % 2 ^ 48
    x.seed.toNat * 2 ^ 192 + (if x.st == .parked then x.park.op.toNat * 2 ^ 128 + x.park.kind * 2 ^ 56 else 0)
      + x.preds.toNat * 2 ^ 64 + full
  leBytes 64 (head + w.regsN * 2 ^ 32 + m.toNat)
  ++ (List.range 32).flatMap (fun l => leBytes 32 (thread l))
  ++ (List.range 32).flatMap fun l => (List.range w.regsN).flatMap fun n => leBytes 8 (getX (laneOf w l) n).toNat

/-- The bytes of a table's first `n` entries, `w` bytes each. -/
def tableBytes {k : Nat} (d : BitVec k) (w n : Nat) (m : Map (BitVec k)) : List Byte :=
  (List.range n).flatMap fun i => leBytes w (mget d m i).toNat

/-- The stock that the stock table's entry of a tag describes: of those whose launch has the tag, the first as steals look at them
that holds frames, else the first.  A second one is kept without an entry (log 13). -/
def stockEntry (k : Core) (t : Nat) : Option Nat :=
  let ks := (stocksByTag k.stocks).filter fun e => stockTag e.1 % 256 == t
  (((ks.find? fun e => e.2.used != 0)).orElse fun _ => ks.head?).map (·.1)

/-- The task state of a core (03 R68). -/
def taskImage (k : Core) : List Byte :=
  let slot (i : Nat) : Option Transit := mget none k.transit i
  let head := k.stealSeq % 2 ^ 32 * 2 ^ 96 + k.deck.length * 2 ^ 80
    + (List.range 4).foldl (fun v i => if (slot i).isSome then v + 2 ^ (92 + i) else v) 0
  let frames := k.deck.flatMap fun f => leBytes 64 f.bits.toNat
  let tags : List Byte := k.deck.map fun f => BitVec.ofNat 8 f.tag
  leBytes 64 head
  ++ frames ++ List.replicate (16384 - frames.length) (0 : Byte)
  ++ tags ++ List.replicate (256 - tags.length) (0 : Byte)
  ++ (List.range 4).flatMap (fun i => match slot i with
    | some x => leBytes 64 x.frame.bits.toNat ++ leBytes 64 (x.frame.tag % 256 * 2 ^ 72 + x.seq % 2 ^ 32 * 2 ^ 32 + x.thief)
    | none => List.replicate 128 (0 : Byte))
  ++ (List.range 256).flatMap fun t => match stockEntry k t with
    | some key => let x : Stock := mget {} k.stocks key; leBytes 8 x.head ++ leBytes 8 x.tail
    | none => List.replicate 16 (0 : Byte)

/-- The record of a copy queue (09 R212). -/
def queueImage (k : CopyQ) : List Byte :=
  let heads := (k.heads.zipIdx.map fun h => (h.1.tiles * 2 ^ 20 + h.1.off) * 2 ^ (32 * h.2)).foldl (· + ·) 0
  leBytes 128 (heads * 2 ^ 256 + k.prog1 * 2 ^ 192 + k.prog0 % 2 ^ 64 * 2 ^ 128 + queueStatus k / 2 ^ 32 * 2 ^ 32
    + (match k.cur with | some h => h.tiles | none => 0) * 2 ^ 24 + k.off % 2 ^ 20)

/-- FN + 16 × (major − 0x30) of a matrix command's word (14 R297, R301, R302). -/
def cmdCode (kind : Nat) : Nat :=
  match kind with | 0 => 0x10 | 1 => 0x11 | 2 => 0x12 | 3 => 0x20 | 4 => 0x30 | _ => 0x31

/-- An unstarted matrix command (14 R295); EPISET's window offset stands for a command word (log 12). -/
def cmdImage (x : MCmd) : List Byte :=
  let x0 := if x.kind = 5 then x.x1 else x.cmd
  let x1 := if x.kind = 5 then 0 else x.x1
  let x2 := if x.kind = 1 || x.kind = 4 then x.x2 else 0
  leBytes 8 x0.toNat ++ leBytes 8 x1.toNat ++ leBytes 8 x2.toNat ++ leBytes 8 (x.src.pc % 2 ^ 48 + cmdCode x.kind * 2 ^ 48)

/-- The engine state of a core (09 R212); the places of the plane-state fields are the model's (log 12). -/
def engineImage (k : Core) : List Byte :=
  let m := k.matrix
  let plane (i : Nat) : Plane := mget {} m.planes i
  let tile (i : Nat) : Tile := mget {} m.tiles i
  let bit (b : Bool) (i : Nat) : Nat := if b then 2 ^ i else 0
  let st := bit m.wide 0 + m.active * 2 ^ 8 + (plane 0).rows * 2 ^ 16 + (plane 1).rows * 2 ^ 24 + (plane 0).format * 2 ^ 32
    + (plane 1).format * 2 ^ 40 + ((List.range 4).foldl (fun v i => v + bit (tile i).int i) 0) * 2 ^ 256
  let cmds := (m.cmds.filter (·.phase != 1)).take 8
  leBytes 64 st
  ++ leBytes 64 (((List.range 32).foldl (fun v i => v + mget 0 k.events i % 256 * 2 ^ (8 * i)) 0) + k.overflow.toNat * 2 ^ 256)
  ++ (List.range 8).flatMap (fun q => queueImage (mget {} k.queues q))
  ++ cmds.flatMap cmdImage
  ++ List.replicate (256 - 32 * cmds.length) (0 : Byte)
  ++ tableBytes 0 4 576 m.epi
  ++ (List.range 4).flatMap (fun i => tableBytes 0x3F80 2 128 (tile i).rowBand ++ tableBytes 0x3F80 2 256 (tile i).colBand)
  ++ (List.range 2).flatMap (fun i => tableBytes 0x3F80 2 256 (plane i).bands)
  ++ List.replicate 384 (0 : Byte)
  ++ (List.range 2).flatMap (fun i => tableBytes 0 2 32768 (plane i).words)
  ++ tableBytes 0 2 32768 m.side
  ++ (List.range 4).flatMap fun i => tableBytes 0 4 32768 (tile i).words

/-- The barrier records of a work-group, rounded up to 64 bytes (12 R269). -/
def barrierImage (g : Group) : List Byte :=
  let bs := (List.range g.nbars).flatMap fun n =>
    let b : Barrier := mget {} g.bars n
    leBytes 8 ((if b.eng then 2 ^ 41 else 0) + (if b.set then 2 ^ 40 else 0) + b.expect % 4096 * 2 ^ 28 + b.count % 4096 * 2 ^ 16 + b.phase)
  bs ++ List.replicate ((64 - bs.length % 64) % 64) 0

/-- The window table of a core (02 R41). -/
def windowImage (k : Core) : List Byte :=
  let gs := k.groups.filter fun g => g.2.padSize != 0
  let order := sortBy (fun i => (gs.getD i (0, {})).2.padBase) (List.range gs.length)
  let recs := order.flatMap fun i =>
    let g := gs.getD i (0, {})
    let task := 64 ≤ g.1
    leBytes 16 ((if task then 0xFFFFFFFF else g.2.index % 2 ^ 32) * 2 ^ 96 + (if task then (g.1 - 64) * 2 ^ 90 else 0) + 2 ^ 63
      + g.2.padSize * 2 ^ 20 + g.2.padBase)
  recs ++ List.replicate (2048 - recs.length) 0

/-- The next multiple of 4,096. -/
def up4096 (n : Nat) : Nat := (n + 4095) / 4096 * 4096

/-- Where the parts of a core's save image lie behind its warp records: the task state, the engine state, the barriers. -/
def taskPos (k : Core) : Nat := k.savePos
def enginePos (k : Core) : Nat := up4096 (taskPos k + 21312)
def barrierPos (k : Core) : Nat := up4096 (enginePos k + 729088)

/-- Write bytes in runs of 4,096; a run that already stands so is not written again. -/
def writeRuns (w : Who) (va : Nat) (bs : List Byte) : M Unit := do
  for i in List.range ((bs.length + 4095) / 4096) do
    let run := (bs.drop (4096 * i)).take 4096
    if (← vread w (va + 4096 * i) run.length) != run then vwrite w (va + 4096 * i) run

/-- The work-groups of a core in ascending index. -/
def groupsByIndex (k : Core) : List Group :=
  let gs := (k.groups.filter fun e => e.1 < 64).map (·.2)
  (sortBy (fun i => (gs.getD i {}).index) (List.range gs.length)).map fun i => gs.getD i {}

/-- Write the image of a core that leaves a context, behind its warp records. -/
def writeImage (ctx c : Nat) : M Unit := do
  let s ← get
  let k := coreOf s c
  let w : Who := ⟨c, ctx, 15⟩
  let base := saveImage s ctx c
  writeRuns w (base + taskPos k) (taskImage k)
  writeRuns w (base + enginePos k) (engineImage k)
  writeRuns w (base + barrierPos k) ((groupsByIndex k).flatMap barrierImage)
  writeRuns w (base + 0x800000) (memGets (padClean k) 0 1048576)
  writeRuns w (base + 0x900000) (windowImage k)
where
  /-- The scratchpad with damaged granules as zeros (23 R409). -/
  padClean (k : Core) : List Host.Cell := k.padBad.foldl (fun m g => clearRange m g 8) k.pad

/-! ### Reading a save image back (02 R40, R41, 03 R68, 09 R212, 12 R269) -/

/-- The numbers that the first `n` runs of `w` bytes hold. -/
def wordsOf (w : Nat) : Nat → List Byte → List Nat
  | 0, _ => []
  | n + 1, bs => ofBytes (bs.take w) :: wordsOf w n (bs.drop w)

/-- A number within some bytes. -/
def partOfImage (bs : List Byte) (off n : Nat) : Nat := ofBytes ((bs.drop off).take n)

/-- The table whose first `n` entries some bytes hold, `w` bytes each. -/
def tableOf {k : Nat} (d : BitVec k) (w n : Nat) (bs : List Byte) : Map (BitVec k) :=
  ((wordsOf w n bs).zipIdx.filter fun e => BitVec.ofNat k e.1 != d).map fun e => (e.2, .ofNat k e.1)

/-- A thread as its record and its registers give it; what the record does not hold is as it was kept (log 13). -/
def laneRestored (compact live : Bool) (h r : Nat) (regs : List Nat) (x : Lane) : Lane :=
  let kind := fld r 58 56
  let op : Word := .ofNat 64 (fld r 191 128)
  let waits (e : Access) : Bool := e.kind != .waitv && e.kind != .join || kind == (if e.kind == .waitv then 1 else 2)
  { x with
    regs := (regs.zipIdx.filter fun e => e.2 != 0 && e.1 != 0).map fun e => (e.2, .ofNat 64 e.1),
    seed := .ofNat 64 (fld r 255 192), preds := .ofNat 7 (fld r 70 64),
    st := if !live then .exited else if kind = 0 then .ready else .parked,
    park := if live && kind != 0 then { x.park with kind := kind, op := op } else {},
    front := (x.front.filter waits).map fun e => if e.kind == .waitv || e.kind == .join then { e with va := op } else e,
    sib := .ofNat 32 (fld r 127 96), parent := fld r 95 88, fid := fld r 87 80, skip := fld r 79 72,
    rep := if compact then (if live then fld h 119 112 else 0) else fld r 55 48,
    pc := if compact then (if live then fld h 111 64 % 2 ^ 48 else 0) else fld r 47 0 }

/-- A warp as its save record gives it. -/
def warpRestored (bs : List Byte) (w : Warp) : Warp :=
  let h := partOfImage bs 0 64
  let live : W32 := .ofNat 32 (fld h 31 0)
  let compact := bitAt h 48
  let n := fld h 42 32
  let recs := wordsOf 32 32 (bs.drop 64)
  let regs := wordsOf (8 * n) 32 (bs.drop 1088)
  let w := { w with regsN := n, masks := mbuild 0 12 fun k =>
    if compact then (if bitAt h (52 + k) then live else 0) else .ofNat 32 (fld h (159 + 32 * k) (128 + 32 * k)) }
  (List.range 32).foldl (fun w l => modLane w l
    (laneRestored compact (live.getLsbD l) h (recs.getD l 0) (wordsOf 8 n (leBytes (8 * n) (regs.getD l 0))))) w

/-- A launch tag from its 8 low bits: the kept one, else that of the launch that has them (log 55). -/
def tagOf (x : Ctx) (kept t : Nat) : Nat :=
  if kept % 256 = t then kept else ((x.launches.find? fun l => l.1 % 256 == t && !l.2.done).map (·.1)).getD t

/-- A core's task state as its image gives it. -/
def taskRestored (x : Ctx) (bs : List Byte) (k : Core) : Core :=
  let h := partOfImage bs 0 64
  let frames := wordsOf 64 (fld h 88 80) (bs.drop 64)
  let tags := wordsOf 1 (fld h 88 80) (bs.drop 16448)
  let slot (i : Nat) : Option Transit :=
    if !bitAt h (92 + i) then none else
    let old : Transit := (mget none k.transit i).getD ⟨⟨0, 0⟩, 0, 0, 0⟩
    let r := partOfImage bs (16768 + 128 * i) 64
    some ⟨⟨.ofNat 512 (partOfImage bs (16704 + 128 * i) 64), tagOf x old.frame.tag (fld r 79 72)⟩, fld r 7 0, fld r 63 32, old.answer⟩
  let stocks := (wordsOf 16 256 (bs.drop 17216)).zipIdx.foldl (fun (m : Map Stock) e =>
    match stockEntry k e.2 with
    | some key => mput {} m key { mget {} m key with head := fld e.1 63 0, tail := fld e.1 127 64 }
    | none => if e.1 = 0 then m else mput {} m (tagOf x 256 e.2) { head := fld e.1 63 0, tail := fld e.1 127 64 }) k.stocks
  { k with
    deck := (frames.zip tags).zipIdx.map fun e => ⟨.ofNat 512 e.1.1, tagOf x ((k.deck[e.2]?.map (·.tag)).getD 256) e.1.2⟩,
    transit := mbuild none 4 slot, stocks := stocks, stealSeq := fld h 127 96 }

/-- A copy queue as its record gives it. -/
def queueRestored (v : Nat) (k : CopyQ) : CopyQ :=
  let head (i : Nat) (h : Head) : Head := { h with off := fld v (275 + 32 * i) (256 + 32 * i), tiles := fld v (279 + 32 * i) (276 + 32 * i) }
  { k with
    prog1 := fld v 255 192, prog0 := fld v 191 128, err := bitAt v 63, waitEv := bitAt v 61, waitPwr := bitAt v 60,
    waitCond := bitAt v 59, off := fld v 19 0, heads := (k.heads.zipIdx.map fun h => head h.2 h.1).take (fld v 58 54),
    cur := if bitAt v 62 then k.cur.map fun h => { h with tiles := fld v 27 24 } else none }

/-- A matrix command as its image gives it. -/
def cmdRestored (v : Nat) (x : MCmd) : MCmd :=
  let w (i : Nat) : Word := .ofNat 64 (fld v (64 * i + 63) (64 * i))
  match x.kind with
  | 1 | 4 => { x with cmd := w 0, x1 := w 1, x2 := w 2 }
  | 5 => { x with x1 := w 0 }
  | _ => { x with cmd := w 0, x1 := w 1 }

/-- A core's engine state as its image gives it. -/
def engineRestored (bs : List Byte) (k : Core) : Core :=
  let m := k.matrix
  let st := partOfImage bs 0 64
  let ev := partOfImage bs 64 64
  let tile (i : Nat) : Tile := { mget {} m.tiles i with
    int := bitAt st (256 + i), words := tableOf 0 4 32768 (bs.drop (204800 + 131072 * i)),
    rowBand := tableOf 0x3F80 2 128 (bs.drop (3712 + 768 * i)), colBand := tableOf 0x3F80 2 256 (bs.drop (3968 + 768 * i)) }
  let plane (i : Nat) : Plane := { mget {} m.planes i with
    rows := fld st (23 + 8 * i) (16 + 8 * i), format := fld st (39 + 8 * i) (32 + 8 * i),
    bands := tableOf 0x3F80 2 256 (bs.drop (6784 + 512 * i)), words := tableOf 0 2 32768 (bs.drop (8192 + 65536 * i)) }
  { k with
    events := mbuild 0 32 fun i => fld ev (8 * i + 7) (8 * i), overflow := .ofNat 32 (fld ev 287 256),
    queues := k.queues.map fun q => (q.1, queueRestored (partOfImage bs (128 + 128 * q.1) 128) q.2),
    matrix := { m with
      wide := bitAt st 0, active := fld st 15 8, planes := mbuild {} 2 plane, tiles := mbuild {} 4 tile,
      epi := tableOf 0 4 576 (bs.drop 1408), side := tableOf 0 2 32768 (bs.drop 139264),
      cmds := m.cmds.zipIdx.map fun x => if x.2 < 8 then cmdRestored (partOfImage bs (1152 + 32 * x.2) 32) x.1 else x.1 } }

/-- The barriers of a work-group as their records give them. -/
def barriersRestored (bs : List Byte) (g : Group) : Group :=
  { g with bars := mbuild {} g.nbars fun n =>
      let v := partOfImage bs (8 * n) 8
      { mget {} g.bars n with phase := fld v 15 0, count := fld v 27 16, expect := fld v 39 28, set := bitAt v 40, eng := bitAt v 41 } }

/-! ### Saving -//-! ### Saving -/

/-- What a compact restore makes of a lane: no fragment record, no skip count (02 R40). -/
def compactLane (x : Lane) : Lane := { x with fid := 0, parent := 0, sib := 0, skip := 0 }

/-- A warp as it waits for its restore: what no field of a save record holds is kept beside it, its FID counter among it (02 R29,
R40, log 13).  The scoreboard is empty but for a waiting VOPEN's. -/
def savedWarp (w : Warp) : Warp :=
  let w := { w with
    st := .loading, prefer := 0, halting := false, skidLeft := 0,
    board := w.board.filter fun p => p.due == 0 && p.kind == 0 && (lanesOf p.lanes).any fun l => vopenDue (laneOf w l) p.num }
  if w.compact then
    { w with compact := false, lanes := w.lanes.filterMap fun l =>
        let y := compactLane l.2
        if y = {} then none else some (l.1, y) }
  else w

/-- The key under which a core's state is saved. -/
def saveKey (s : State) (ctx c : Nat) : Nat :=
  let x := ctxOf s ctx
  ((List.range 256).map (fun n => c + 256 * n)).find? (fun k => !x.savedCores.any (·.1 == k)) |>.getD c

/-- A save writes over the save images of earlier saves of the same core. -/
def overwrite (ctx c : Nat) (s : State) : State := modCtx s ctx fun x => { x with images := x.images.filter (· % 256 != c) }

/-- WARP_SAVE_COMPLETE's step: the record is written and the slot is free. -/
def saveDone (c slot : Nat) (s : State) : Option State :=
  let w := warpOf s c slot
  if w.st != .saving then none else
  let k := coreOf s c
  let img := warpImage w
  let fin (s : State) : State :=
    let s := modCtx (overwrite w.ctx c s) w.ctx fun x => { x with saved := x.saved ++ [{
      warp := savedWarp w, core := saveKey s w.ctx c, slot := slot, group := groupOf s c w.group, compact := w.compact,
      pos := k.savePos }] }
    retime w.ctx (modCore (setWarp s c slot {}) c fun k => { k with savePos := k.savePos + img.length })
  match runEngine c 14 (writeRuns ⟨c, w.ctx, 15⟩ (saveImage s w.ctx c + k.savePos) img) s with
  | .wait o => o
  | .failed s => some (fin s)
  | .done _ s => some (fin s)

/-- WARP_SAVE_COMPLETE (02 R40). -/
def execWarpSaveComplete (core slot : Nat) (s : State) : Host.Outcome State Fault Refusal := .next (orSame (saveDone core slot) s)

/-- Does a core hold engine state? -/
def hasEngine (k : Core) : Bool := k.matrix != {} || k.queues != [] || k.events != [] || k.overflow != 0

/-- Does a core hold nothing that a save carries? -/
def nothingHeld (k : Core) : Bool :=
  k.groups == [] && k.deck == [] && k.transit == [] && k.stocks.all (fun e => e.2.used == 0) && !hasEngine k && k.savePos == 0

/-- Has a core drained: its warps are saved, its refill and its engines have stopped, its requests are answered, its remote writes
are known applied (02 R37, 03 R68, 05 R108, 09 R212, 23 R407)? -/
def coreDrained (s : State) (c : Nat) : Bool :=
  let k := coreOf s c
  k.warps.isEmpty && k.beams.isEmpty && k.unitWait.isEmpty && k.tidset.isEmpty && k.flush.isEmpty && k.refill.isNone
  && (k.matrix.cmds.all fun x => x.phase != 1) && (k.queues.all fun q => !q.2.landed && !q.2.failed)
  && (k.groups.all fun g => g.2.recs.all fun r => r.wait.isNone)
  && (s.sent.all fun r => r.core != c)

/-- The state of a core that a save keeps; a command whose request for leave waits makes it again (01 R21). -/
def keptCore (k : Core) : Core :=
  { pad := if k.groups == [] then [] else k.padBad.foldl (fun m g => clearRange m g 8) k.pad,
    padSeq := k.padSeq, serial := k.serial, groups := k.groups, deck := k.deck, transit := k.transit,
    stocks := k.stocks.filter (fun e => e.2 != {}), stealSeq := k.stealSeq, matrix := k.matrix, queues := k.queues,
    events := k.events, overflow := k.overflow, savePos := k.savePos }

/-- A core without a holder; what belongs to the silicon or to the arenas stays. -/
def clearCore (k : Core) : Core :=
  { pad := k.pad, padBad := k.padBad, padSeq := k.padSeq, serial := k.serial, arena := k.arena, cache := k.cache, icache := k.icache,
    tlb := k.tlb, samples := k.samples, off := k.off, stealSeq := k.stealSeq }

/-- Save a core's task and engine state, scratchpad and windows, and let it go.  A core that leaves by itself and holds nothing
writes nothing. -/
def saveCore (ctx c : Nat) (s : State) : Option State :=
  let k := coreOf s c
  if k.leaving == 0 || !coreDrained s c then none else
  let bare := nothingHeld k
  let fin (s : State) : State :=
    let key := saveKey s ctx c
    let s := (List.range 9).foldl (fun s u => dropRequest c u s) s
    let kept := keptCore k
    let s := if bare then s else modCtx (overwrite ctx c s) ctx fun x => {
      x with savedCores := mput {} x.savedCores key kept, images := key :: x.images,
             saved := x.saved.map fun e => if e.core == key then { e with group := mget {} k.groups e.warp.group } else e }
    modCore s c clearCore
  if bare && (ctxOf s ctx).saving == 0 then some (fin s)
  else match runEngine c 14 (writeImage ctx c) (deliverAll s) with
    | .wait o => o
    | .failed s => some (fin s)
    | .done _ s => some (fin s)

/-- Does a part of a context's launch queues wait on a page request? -/
def queuesWait (x : Ctx) : Bool :=
  x.queues.any (fun q => q.2.wait.isSome || q.2.pubWait.isSome) || x.launches.any (fun l => l.2.wait.isSome)

/-- A context whose cores have all been left is saved: its writes are applied everywhere (05 R108, 23 R407). -/
def finishSave (ctx : Nat) (s : State) : State :=
  let x := ctxOf s ctx
  if x.saving == 0 || !(heldCores s ctx).isEmpty || queuesWait x then s
  else
    let s := retime ctx (modCtx (deliverAll s) ctx fun x => { x with in_ := false, saving := 0, deadline := false })
    modPart s (ctx / 64) fun p => { p with lastOut := (List.range 48).foldl (fun m b =>
      if bitAt (fld x.record 495 448) b then mput 0 m b (ctx % 64 + 1) else m) p.lastOut }

/-- Carry on with the cores that leave a context in a mode: warps drain, drained cores are saved, the save ends. -/
def saveOn (mode ctx : Nat) (s : State) : Option State :=
  let cores := (heldCores s ctx).filter fun c => (coreOf s c).leaving == mode
  let s1 := cores.foldl (fun s c => drainCore c s) s
  let s2 := cores.foldl (fun s c => (saveCore ctx c s).getD s) s1
  let s3 := finishSave ctx s2
  if s3 = s then none else some s3

/-- INSTRUCTION_BOUNDARY_SAVE (02 R38). -/
def execInstructionBoundarySave (ctx : Nat) (s : State) : Host.Outcome State Fault Refusal := .next (orSame (saveOn 1 ctx) s)

/-- RECONVERGENCE_PREEMPTION (02 R39). -/
def execReconvergencePreemption (ctx : Nat) (s : State) : Host.Outcome State Fault Refusal := .next (orSame (saveOn 2 ctx) s)

/-- Does a context only borrow a core? -/
def borrows (s : State) (ctx c : Nat) : Bool := !bitAt (recField s ctx 495 448) (clusterBit c)

/-- Leave by instruction-boundary save those of some cores whose wait for reconvergence is over. -/
def expire (ctx : Nat) (which : Nat → Bool) (s : State) : Option State :=
  match (heldCores s ctx).filter fun c => which c && (coreOf s c).leaving == 2 && decide ((coreOf s c).leaveBy ≤ s.clk) with
  | [] => none
  | cs => some (cs.foldl (fun s c => leaveCore 1 0 c s) s)

/-- RECONVERGENCE_TIMEOUT (02 R39). -/
def execReconvergenceTimeout (ctx : Nat) (s : State) : Host.Outcome State Fault Refusal :=
  .next (orSame (expire ctx fun _ => true) s)

/-! ### Restoring (02 R40, R41, 21 R373, 22 R391, R402) -/

/-- Move the power leave that a context's commands hold on a core with them (01 R21). -/
def moveLeave (ctx c j : Nat) (s : State) : State :=
  if c == j then s else
  let mine (r : LeaveReq) : Bool := r.core == c && r.ctx == ctx
  let held := (sectorOf s (secOf c)).held
  let s := modSector s (secOf c) fun k => { k with held := held.filter (!mine ·) }
  modSector s (secOf j) fun k => { k with held := k.held ++ (held.filter mine).map fun r => { r with core := j } }

/-- Make the requests for leave of a core's restored commands again (01 R21). -/
def askAgain (j : Nat) (s : State) : State :=
  let k := coreOf s j
  let s := k.queues.foldl (fun s q => if q.2.leave == 1 then addRequest (leaveOf j q.1 0 3 true s) s else s) s
  match k.matrix.cmds.findIdx? fun x => x.leave == 1 with
  | some i => addRequest (leaveOf j 8 i ((k.matrix.cmds[i]?.map (·.watts)).getD 0) true s) s
  | none => s

/-- The key on core `j` of a stock of `home`: its launch tag where it is the core's own, and marked with its core elsewhere. -/
def stockKeyAt (home j key : Nat) : Nat :=
  if stockCore key home == j then stockTag key else stockTag key + 2 ^ 32 * (stockCore key home + 1)

/-- In-transit slots with some others in their free places. -/
def addSlots : Map (Option Transit) → List Transit → Map (Option Transit)
  | m, [] => m
  | m, x :: t => match (List.range 4).find? fun i => (mget none m i).isNone with
    | some i => addSlots (mput none m i (some x)) t
    | none => m

/-- Bring a saved core's deck, slots, stocks and engines to core `j`: to its own core as they stood, to another one when they fit
there; a slot that has been answered by ACK meanwhile is free (03 R67, R68, log 13). -/
def bringCore (ctx key j : Nat) (v : Core) (s : State) : Option State :=
  let k := coreOf s j
  let home := key % 256
  let slots := (v.transit.filterMap (·.2)).filter (·.answer != 1)
  let own := j == home && k.groups.isEmpty && k.deck.isEmpty && k.transit.isEmpty
  let room := slots.length + (k.transit.filter (·.2.isSome)).length ≤ 4 && deckCount k + v.deck.length + slots.length ≤ 256
  if !own && (!room || (hasEngine v && (hasEngine k || !k.groups.isEmpty))) then none
  else
    let engines := hasEngine v
    let s := modCore (moveLeave ctx home j s) j fun k => { k with
      padSeq := max k.padSeq v.padSeq, serial := max k.serial v.serial,
      deck := v.deck ++ k.deck,
      transit := if own then v.transit.filter (fun e => match e.2 with | some x => x.answer != 1 | none => false)
        else addSlots k.transit slots,
      stocks := v.stocks.foldl (fun m e => mput {} m (stockKeyAt home j e.1) e.2) k.stocks,
      stealSeq := if own then max v.stealSeq k.stealSeq else k.stealSeq,
      matrix := if engines then v.matrix else k.matrix, queues := if engines then v.queues else k.queues,
      events := if engines then v.events else k.events, overflow := if engines then v.overflow else k.overflow }
    let s := if engines then askAgain j s else s
    some (modCtx s ctx fun x => { x with savedCores := mput {} x.savedCores key { pad := v.pad, groups := v.groups, savePos := v.savePos } })

/-- Does a queue's entry still hold ranges: it has started, and its accesses of the window go on (04 R74)? -/
def holdsRanges (q : CopyQ) : Bool :=
  let e := q.entry.toNat
  q.started && !q.landed && !q.waitCond && !(eOp e == 13 && q.prog0 == eLen e)

/-- The entries that had started take their ranges on the range scoreboard again, where their windows now lie (04 R74). -/
def takeRanges (j : Nat) (s : State) : State :=
  modCore s j fun k => { k with ranges := k.queues.flatMap fun q =>
    if (holdsRanges q.2) then (entryRanges q.2.entry.toNat q.2.idx).2.map (widen (curHead q.2).src q.1) else [] }

/-- A command's origin in its restored warp. -/
def moveOrigin (old new : Warp) (slot : Nat) (o : Origin) : Origin :=
  if o.serial == old.serial && o.ctx == old.ctx then
    { o with group := new.group, slot := slot, serial := new.serial, base := new.padBase }
  else o

/-- Point the engines' commands and chains at a restored warp. -/
def moveOrigins (old new : Warp) (slot : Nat) (k : Core) : Core :=
  let f := moveOrigin old new slot
  let head (h : Head) : Head := { h with src := f h.src }
  { k with
    matrix := { k.matrix with cmds := k.matrix.cmds.map fun x => { x with src := f x.src } },
    queues := k.queues.map fun q => (q.1, { q.2 with heads := q.2.heads.map head, cur := q.2.cur.map head }) }

/-- A fault record of a restored group: its slot, and HALTTAB as it now is (22 R402). -/
def moveRec (slots : List (Nat × Nat)) (tab : Nat) (r : FaultRec) : FaultRec :=
  { r with slot := ((slots.find? (·.1 == r.slot)).map (·.2)).getD r.slot, image := putBits r.image 383 320 tab }

/-- The slots that some saved warps take on a core, each its old one when that is free, the first the one asked for. -/
def chooseSlots : Option Nat → List Saved → Core → Option (List (Saved × Nat))
  | _, [], _ => some []
  | want, e :: t, k =>
    let isFree (i : Nat) : Bool := (mget {} k.warps i).st == .free && i < 64
    match (if isFree (want.getD e.slot) then some (want.getD e.slot) else pickSlot k) with
    | none => none
    | some i => if !isFree i then none else
      (chooseSlots none t { k with warps := mput {} k.warps i e.warp }).map ((e, i) :: ·)

/-- The bytes of a saved group's window, by its base. -/
abbrev Windows := List (Nat × List Byte)

/-- Restore one group's warps on a core: a window at a free base, slots, keys, records; `parent` is the new key of the
group that a handler handles.  Its halt table is written at its new place (22 R392, R402). -/
def installSaved (ctx j parent : Nat) (wins : Windows) (want : Option Nat) (es : List Saved) (s : State) : Option (Nat × State) :=
  match es with
  | [] => none
  | e0 :: _ =>
    let g := e0.group
    let k := coreOf s j
    let handler := e0.warp.kind == .handler
    let h := mget {} k.groups parent
    let regs := (es.map (·.warp.regsN)).foldl (· + ·) 0
    match (if handler then some h.padBase else padPlace k g.padSize), chooseSlots want es k with
    | some base, some slots =>
      if 4096 < regsUsed k + regs || 1024 < barsUsed k + g.nbars then none else
      let key' := if e0.warp.kind == .grid then ((List.range 64).find? fun i => !(k.groups.any (·.1 == i))).getD 0
        else 64 + ((slots.head?.map (·.2)).getD 0)
      let tab := if g.halted && key' < 64 then
          ((List.range 64).find? fun n => !(k.groups.any fun e => e.2.haltTab == n + 1)).getD 0 + 1 else 0
      let addr := if tab = 0 then 0 else saveImage s ctx j + 0xF40000 + 512 * (tab - 1)
      let bytes := ((wins.find? (·.1 == g.padBase)).map (·.2)).getD []
      let s := modCore s j fun k => if handler then k else
        { k with pad := memPuts (clearRange k.pad base g.padSize) base (bytes.take g.padSize),
                 padBad := k.padBad.filter fun a => !(decide (base ≤ a) && decide (a < base + g.padSize)) }
      let s := slots.foldl (fun s x =>
        let n := (coreOf s j).serial + 1
        let w : Warp := { x.1.warp with group := key', serial := n, padBase := base, age := s.clk }
        modCore s j fun k => { (moveOrigins x.1.warp w x.2 k) with serial := n, warps := mput {} k.warps x.2 w }) s
      let g' : Group := { g with
        -- in warp order
        slots := (sortBy (fun i => ((slots[i]?.map (·.1.warp.windex)).getD 0 : Nat)) (List.range slots.length)).filterMap
          fun i => slots[i]?.map (·.2), padBase := if handler then g.padBase else base, haltTab := tab, tabDue := g.halted, handlers := [],
        recs := g.recs.map (moveRec (slots.map fun x => (x.1.slot, x.2)) addr), waitSince := none,
        handles := if handler then parent else 0 }
      let s := modCore s j fun k => { k with groups := mput {} k.groups key' g' }
      let s := if handler then modGroup s j parent fun h => { h with handlers := h.handlers ++ slots.map (·.2) } else s
      some (key', (List.range g'.recs.length).foldl (fun s i => writeRecord s j key' i) s)
    | _, _ => none

/-- The group that stands for a saved warp: its own, or the one that it handles. -/
def rootGroup (e : Saved) : Nat := if e.warp.kind == .handler then e.group.handles else e.warp.group

/-- Restore the groups of some saved warps, a handled group before its handlers. -/
def installAll (ctx j : Nat) (wins : Windows) (want : Option Nat) (es : List Saved) : List Nat → State → Option State
  | [], s => some s
  | root :: t, s =>
    let own := es.filter fun e => e.warp.group == root
    let hs := es.filter fun e => e.warp.kind == .handler && e.group.handles == root
    match (if own.isEmpty then some (0, s) else installSaved ctx j 0 wins want own s) with
    | none => none
    | some (g, s) =>
      match hs.foldl (fun (o : Option State) e => o.bind fun s => (installSaved ctx j g wins none [e] s).map (·.2)) (some s) with
      | none => none
      | some s => installAll ctx j wins none es t s

/-- Forget what is left of saved cores that no saved warp needs any more. -/
def tidySaved (ctx : Nat) (s : State) : State :=
  let needed (x : Ctx) (e : Nat × Core) : Bool := x.saved.any (·.core == e.1) || !nothingHeld { e.2 with groups := [], savePos := 0 }
  modCtx s ctx fun x => 
    let left := x.savedCores.filter (needed x)
    { x with savedCores := left, images := x.images.filter fun k => left.any (·.1 == k) }

/-- The task and engine state, the barriers, the warps and the windows of a saved core as its image in memory gives them; one
whose image has been overwritten, or cannot be read, is restored as it was kept (log 13). -/
def readSaved (ctx key j : Nat) (es : List Saved) : M (Core × List Saved × Windows) := do
  let s ← get
  let x := ctxOf s ctx
  let v : Core := mget {} x.savedCores key
  if !x.images.contains key then return keptSaved v es
  let w : Who := ⟨j, ctx, 15⟩
  let base := saveImage s ctx (key % 256)
  let v ← if v.deck.isEmpty && v.transit.isEmpty && v.stocks.isEmpty then pure v
    else pure (taskRestored x (← vread w (base + taskPos v) 21312) v)
  let v ← if hasEngine v then pure (engineRestored (← vread w (base + enginePos v) 729088) v) else pure v
  let mut at_ := base + barrierPos v
  let mut groups := v.groups
  for g in groupsByIndex v do
    let n := (8 * g.nbars + 63) / 64 * 64
    if n != 0 then
      let bs ← vread w at_ n
      groups := groups.map fun e => if e.1 < 64 && e.2.index == g.index && e.2.slots == g.slots then (e.1, barriersRestored bs e.2) else e
    at_ := at_ + n
  let v := { v with groups := groups }
  let es ← es.mapM fun e => do
    let n := fld (← vreadN w (base + e.pos) 64) 42 32
    let bs ← vread w (base + e.pos) (1088 + 256 * n)
    return { e with warp := warpRestored bs e.warp, group := { e.group with bars := (mget {} groups e.warp.group).bars } }
  let wins ← ((es.filter fun e => e.group.padSize != 0).map fun e => (e.group.padBase, e.group.padSize)).eraseDups.mapM fun p => do
    return (p.1, ← vread w (base + 0x800000 + p.1) p.2)
  return (v, es, wins)
where
  /-- As it was kept. -/
  keptSaved (v : Core) (es : List Saved) : Core × List Saved × Windows :=
    (v, es, ((es.filter fun e => e.group.padSize != 0).map fun e =>
      (e.group.padBase, memGets v.pad e.group.padBase e.group.padSize)).eraseDups)

/-- Bring a saved core's state and some of its warps back to core `j`. -/
def bringBack (ctx key j : Nat) (want : Option Nat) (olds : List Saved) (r : Core × List Saved × Windows) (s : State) : Option State :=
  let (v, es, wins) := r
  (bringCore ctx key j v s).bind fun s =>
    (installAll ctx j wins want es (es.map rootGroup).eraseDups s).map fun s =>
      retime ctx (tidySaved ctx (modCtx (takeRanges j s) ctx fun x => { x with saved := x.saved.filter fun e => !olds.contains e }))

/-- WARP_RESTORE's step: a saved warp comes back with its group, on a HOME core that the context holds and where the group
fits; with engine state, or on its own core, all groups of the core come back together (log 13).  An index past the
saved warps names the cores saved without one. -/
def restoreStep (ctx idx core slot : Nat) (s : State) : Option State :=
  let x := ctxOf s ctx
  let k := coreOf s core
  if !x.in_ || x.saving != 0 || k.holder != ctx + 1 || k.off || k.draining || borrows s ctx core || !sectorStays s ctx core then none else
  let back (key : Nat) (want : Option Nat) (es : List Saved) : Option State :=
    match runEngine core 14 (readSaved ctx key core es) s with
    | .wait o => o
    | .failed s => bringBack ctx key core want es (readSaved.keptSaved (mget {} x.savedCores key) es) s
    | .done r s => bringBack ctx key core want es r s
  match x.saved[idx]? with
  | none =>
    let bare := x.savedCores.filter fun e => !x.saved.any (·.core == e.1)
    match bare[idx - x.saved.length]? with
    | none => none
    | some e => back e.1 none []
  | some e0 =>
    -- the work-group comes back together: its core has been saved whole
    if !x.savedCores.any (·.1 == e0.core) then none else
    let v := mget {} x.savedCores e0.core
    let together := hasEngine v || core == e0.core % 256
    let es := x.saved.filter fun e => e.core == e0.core && (together || rootGroup e == rootGroup e0)
    -- the group asked for comes first, its warp at the slot asked for
    back e0.core (some slot) (e0 :: es.filter fun e => e.slot != e0.slot)

/-- WARP_RESTORE (02 R40, R41). -/
def execWarpRestore (ctx idx core slot : Nat) (s : State) : Host.Outcome State Fault Refusal :=
  .next (orSame (restoreStep ctx idx core slot) s)

/-! ### A core taken out of service (22 R388) -/

/-- CORE_DISABLED: HEALTH and the record; its work leaves as on a reclaim. -/
def disableCore (c source : Nat) (s : State) : State :=
  let k := coreOf s c
  let x := secOf c
  let h := health s x
  let h := putBits (putBits (putBits h 55 48 (min 48 (fld h 55 48 + 1))) 63 63 1) 62 62 1
  let part := if k.holder = 0 then (partOf s x).getD 0 else (k.holder - 1) / 64
  let ctx := if k.holder = 0 then 0 else (k.holder - 1) % 64
  let moved := (k.groups.filter fun g => g.1 < 64).length
  let s := putHealth s x h
  let s := logError s x 0x48 0 0 part ctx c (detail source 15 3 moved)
  let s := modCore s c fun k => { k with off := true }
  if k.holder = 0 then s else leaveCore 2 reclaimLimit c s

/-- CORE_DISABLED (22 R388). -/
def execCoreDisabled (core source : Nat) (s : State) : Host.Outcome State Fault Refusal :=
  .next (if core < 192 && !(coreOf s core).off then disableCore core source s else s)

end Sys2Proof.Machine
end

