-- ==== Sys2Proof/Machine/Tenancy.lean ====
section
/-! DEFINITION. Partitions and contexts: enabling, resizing, saving, running, resetting, slices and reclaims (21 R366-R373,
22 R396, 23 R407, R413, 24 R429, R433). -/

namespace Sys2Proof.Machine

/-! ### Context records and switch-in (21 R370-R372) -/

/-- Run a read of a context's record, or of its checkpoint, that may wait on a page request. -/
def runCtx {α : Type} (ctx : Nat) (m : M α) (s : State) : Engine α :=
  let x := ctxOf s ctx
  if x.wait.isSome then .wait none
  else if x.failed then .failed (modCtx s ctx fun x => { x with failed := false })
  else match m s with
  | .ok a s => .done a s
  | .error (.page x r _) _ =>
    let (n, s) := postPage s x r
    .wait (some (modCtx s ctx fun k => { k with wait := some (x, n) }))
  | .error (.fail _ _) s => .failed s

/-- HOME of a context, 48 bits. -/
def homeBits (s : State) (ctx : Nat) : Nat := recField s ctx 495 448

/-- The HOME cores of a context that are in service in sectors its partition keeps. -/
def homeCores (s : State) (ctx : Nat) : List Nat :=
  (List.range 192).filter fun c => bitAt (homeBits s ctx) (clusterBit c) && !(coreOf s c).off && sectorStays s ctx c

/-- Its HOME cores that it does not hold. -/
def lacking (s : State) (ctx : Nat) : List Nat := (homeCores s ctx).filter fun c => (coreOf s c).holder != ctx + 1

/-- The other runnable contexts that share a HOME cluster with a context and lack cores of their own. -/
def rivals (s : State) (ctx : Nat) : List Nat :=
  (s.ctxs.filter fun e => e.1 != ctx && e.1 / 64 == ctx / 64 && e.2.saving == 0 && (!e.2.in_ || !(lacking s e.1).isEmpty)
    && runnable s e.1 && homeBits s e.1 &&& homeBits s ctx != 0).map (·.1)

/-- How far a context stands behind another in the rotation: ascending, wrapping. -/
def behind (after c : Nat) : Nat := (c % 64 + 127 - after % 64) % 64

/-- The first of some contexts in the rotation after one. -/
def nextOf (after : Nat) (cs : List Nat) : Option Nat :=
  cs.foldl (fun (b : Option Nat) c => match b with
    | some y => if behind after c < behind after y then some c else b
    | none => some c) none

/-- Is it a context's turn, on the first HOME cluster of which it lacks a core? -/
def itsTurn (s : State) (ctx : Nat) : Bool :=
  let b := ((lacking s ctx).head?.map clusterBit).getD 0
  let prev := mget 0 (partAt s (ctx / 64)).lastOut b
  let after := if prev = 0 then 63 else prev - 1
  nextOf after (ctx :: rivals s ctx) == some ctx

/-- May a context want to run: it is in rotation and has an entry or saved work? -/
def wants (s : State) (ctx : Nat) : Bool :=
  let x := ctxOf s ctx
  (partAt s (ctx / 64)).en && !x.stopped && !x.ckpt.busy
  && (x.queues.any (fun e => queueHolds e.2) || !x.saved.isEmpty || !x.savedCores.isEmpty)

/-- Switch a context in on its HOME cores: the shadows of its queues act before any arbiter reads (23 R412). -/
def switchIn (ctx : Nat) (s : State) : State :=
  let s := (homeCores s ctx).foldl (fun s c => modCore s c fun k => { k with holder := ctx + 1 }) s
  let s := retime ctx (modCtx s ctx fun x => { x with in_ := true, retired := false, sliceStart := s.clk })
  (ctxOf s ctx).queues.foldl (fun s q => applyShadow ctx q.1 s) s

/-- All cores of a context begin to leave it. -/
def leaveCtx (mode ctx : Nat) (s : State) : State :=
  let s := (heldCores s ctx).foldl (fun s c => leaveCore mode (ownLimit s ctx) c s) s
  finishSave ctx (modCtx s ctx fun x => { x with saving := mode, saveSince := s.clk })

/-- Every other context that holds a HOME cluster of a due context leaves those clusters: as home under its own timeout, as
borrower under that of a reclaim.  One that would keep none of its own clusters is switched out (21 R371, R373). -/
def evict (r : Nat) (s : State) : State :=
  (s.ctxs.filter fun e => e.1 != r && e.1 / 64 == r / 64 && e.2.in_ && e.2.saving == 0).foldl (fun s e =>
    let (cs, rest) := (heldCores s e.1).partition fun c => bitAt (homeBits s r) (clusterBit c)
    if cs.isEmpty then s
    else if rest.all (borrows s e.1) && !cs.all (borrows s e.1) then leaveCtx 2 e.1 s
    else cs.foldl (fun s c => leaveCore 2 (if borrows s e.1 c then reclaimLimit else ownLimit s e.1) c s) s) s

/-- A context takes the HOME cores that it lacks, once they are free and it is its turn. -/
def enter (ctx : Nat) (s : State) : Option State :=
  match runCtx ctx (readRecord ctx) s with
  | .wait o => o
  | .failed s => some s
  | .done r s1 =>
    let s2 := takeRecord ctx r s1
    let cs := lacking s2 ctx
    let free := !cs.isEmpty && cs.all fun c => (coreOf s2 c).holder == 0
    if runnable s2 ctx && free && itsTurn s2 ctx then some (switchIn ctx s2)
    else if s2 = s then none else some s2

/-- SLICE_END's step.  Past a context's slice, the next one that waits for clusters of its HOME is due, and they are left to it; a
context whose record has turned malformed leaves all of its own.  A context that lacks HOME cores takes them in its turn. -/
def sliceStep (ctx : Nat) (s : State) : Option State :=
  let x := ctxOf s ctx
  let p := partAt s (ctx / 64)
  let past := x.in_ && decide (x.sliceStart + recField s ctx 439 424 * 1400 ≤ s.clk)
  if !p.en || p.busy || x.ckpt.busy || x.saving != 0 then none
  else if past && x.badrec then some (leaveCtx 2 ctx s)
  else match if past then nextOf ctx (rivals s ctx) else none with
    | some r => let t := evict r s; if t = s then none else some t
    | none => if (x.in_ || wants s ctx) && !(lacking s ctx).isEmpty then enter ctx s else none

/-- SLICE_END (21 R371). -/
def execSliceEnd (ctx : Nat) (s : State) : Host.Outcome State Fault Refusal := .next (orSame (sliceStep ctx) s)

/-! ### Borrowed clusters (21 R373) -/

/-- CLUSTER_RECLAIM's step: the cores of a borrowed cluster leave when its owner is due. -/
def reclaimStep (ctx cluster : Nat) (s : State) : Option State :=
  match (heldCores s ctx).filter fun c => clusterBit c == cluster && borrows s ctx c && (coreOf s c).leaving == 0
      && ownedElsewhere s ctx c with
  | [] => none
  | cs => some (cs.foldl (fun s c => leaveCore 2 reclaimLimit c s) s)

/-- CLUSTER_RECLAIM (21 R373). -/
def execClusterReclaim (ctx cluster : Nat) (s : State) : Host.Outcome State Fault Refusal := .next (orSame (reclaimStep ctx cluster) s)

/-- RECLAIM_TIMEOUT (21 R373): 40 µs. -/
def execReclaimTimeout (ctx cluster : Nat) (s : State) : Host.Outcome State Fault Refusal :=
  .next (orSame (expire ctx fun c => clusterBit c == cluster && borrows s ctx c) s)

/-! ### CTXCTL (21 R371, 22 R396) -/

/-- A write of SAVE: the context leaves at once and stays out of rotation; one that is already saved has nothing to do
(21 R383). -/
def saveOrder (ctx : Nat) (s : State) : State :=
  let s := modCtx s ctx fun x => { x with stopped := true }
  if (ctxOf s ctx).in_ then leaveCtx 1 ctx (modCtx s ctx fun x => { x with deadline := !x.ckpt.busy }) else s

/-- CTXCTL_SAVE (21 R371). -/
def execCtxctlSave (ctx : Nat) (s : State) : Host.Outcome State Fault Refusal := .next (whenReady s (saveOrder ctx))

/-- A write of RUN: back in rotation; the record is read (21 R372). -/
def runOrder (ctx : Nat) (s : State) : State :=
  let s := modCtx s ctx fun x => { x with stopped := false }
  match runCtx ctx (readRecord ctx) s with
  | .wait o => o.getD s
  | .failed s => s
  | .done r s => takeRecord ctx r s

/-- CTXCTL_RUN (21 R371, R372). -/
def execCtxctlRun (ctx : Nat) (s : State) : Host.Outcome State Fault Refusal := .next (whenReady s (runOrder ctx))

/-- CTXCTL_RETRAP (22 R396). -/
def execCtxctlRetrap (ctx : Nat) (s : State) : Host.Outcome State Fault Refusal := .next (whenReady s (retrap ctx))

/-- The 64 KiB physical pages of an intermediate range, if stage 2 maps them and, where asked, lets them be written. -/
def physPages (w : Who) (s : State) (ipa n : Nat) (write : Bool) : List Nat :=
  ((List.range ((n + 65535) / 65536)).filterMap fun i =>
    match quiet s (walk2 w (ipa + 65536 * i) levels2 (s2root s w.ctx)) with
    | some (.ok pa _ e _) => if !write || bitAt e 2 then some (pa / 65536) else none
    | _ => none).eraseDups

/-- The physical pages that a stage-1 table's writable leaves reach. -/
def writablePages (w : Who) (s : State) : List (Nat × Nat × Nat) → Nat → List Nat
  | [], _ => []
  | (sh, bits, lf) :: t, base =>
    (List.range (2 ^ bits)).flatMap fun i =>
      match quiet s (do return (← walkRead w (← ipaRead w (base + 8 * i) 0)).1) with
      | none => []
      | some e =>
        if e % 2 == 0 || !entryOk e sh lf false then []
        else if bitAt e 1 then (if bitAt e 2 then physPages w s (e % 2 ^ 52 / 2 ^ sh * 2 ^ sh) (2 ^ sh) true else [])
        else writablePages w s t (e % 2 ^ 52 / 256 * 256)

/-- The pages of a context's save area, by walks that its retirement does not stop. -/
def savePages (w : Who) (s : State) : List Nat :=
  (List.range (192 * 256)).filterMap fun i =>
    match quiet s (do
        let (ipa, _, _) ← walk1 w (.ofNat 64 (recField s w.ctx 127 64 + 65536 * i)) 0 levels1 (recField s w.ctx 51 12 * 4096)
        ipaRead w ipa 0) with
    | some pa => if backed pa then some (pa / 65536) else none
    | none => none

/-- A reset cuts a running RREDUCE: one record for each (24 R429). -/
def logCuts (ctx c : Nat) (s : State) : State :=
  (coreOf s c).queues.foldl (fun s q =>
    let e := q.2.entry.toNat
    if q.2.started && !q.2.landed && eOp e == 9 then
      logCore s c ctx 0x49 (eDst e) (detail 15 2 2 (min q.2.prog0 (2 ^ 32 - 1)))
    else s) s

/-- What a context keeps over a reset: the registers that its host configures, its place outside the rotation after a SAVE, and
the pages that an earlier reset has left pending (21 R371, 23 R413). -/
def resetCtx (x : Ctx) (pages : List Nat) : Ctx :=
  { gen := x.gen % 65535 + 1, retired := true, fpflags := x.fpflags, mode := x.mode, sampleLog := x.sampleLog,
    numRing := x.numRing, numTail := x.numTail, numHead := x.numHead, numDrop := x.numDrop, badrec := x.badrec,
    record := x.record, heads := x.heads, stopped := x.stopped, ckpt := { x.ckpt with busy := false, phase := 0, own := [] },
    queues := x.queues.filterMap fun q =>
      let y : LQueue := { base := q.2.base, en := q.2.en }
      if y = {} then none else some (q.1, y),
    scrubbing := (x.scrubbing ++ pages).eraseDups }

/-- Discard every matrix command of a core (14 R294). -/
def discardAll (c : Nat) (s : State) : State := (List.range (cmdsOf s c).length).foldl (fun s _ => discardCmd c 0 s) s

/-- CTXCTL RESET (21 R371, 22 R396, R402, 23 R407, R413, 24 R429): everything that the context runs or has saved goes, its
page requests are freed, its windows released, its writable pages are marked. -/
def resetOrder (ctx : Nat) (s : State) : State :=
  let s := deliverAll s
  let w : Who := ctxWho s ctx 7
  let pages := (writablePages w s levels1 (recField s ctx 51 12 * 4096) ++ savePages w s).eraseDups.filter fun p => backed (p * 65536)
  let cores := heldCores s ctx
  let s := cores.foldl (fun s c => modCore (discardAll c (logCuts ctx c s)) c clearCore) s
  let s := { s with
    cores := s.cores.map (fun e => (e.1, { e.2 with arena := e.2.arena.filter (·.1 != ctx) })),
    steals := s.steals.filter (·.ctx != ctx),
    received := s.received.filter (·.ctx != ctx) }
  let s := [0, 1, 2, 3].foldl (fun s x =>
    let mine := (sectorOf s x).posted.filter fun e => e.2.ctx == ctx
    let s := modSector s x fun k => { k with
      requests := k.requests.filter (·.ctx != ctx), held := k.held.filter (·.ctx != ctx),
      rwin := (List.range 32).foldl (fun m v =>
        let c := mget 0 m (2 * v + 1)
        if (partAt s (ctx / 64)).sectors.getLsbD x && fld c.toNat 61 56 == ctx % 64 then mput 0 m (2 * v + 1) (c &&& ~~~(1#64 <<< 63)) else m) k.rwin,
      scrub := (k.scrub ++ pages.filter fun p => homeSector (p * 65536) == x).eraseDups }
    mine.foldl (fun s e => freePage s x e.1 false) (setWaiting s x ((sectorOf s x).waiting.filter (·.ctx != ctx)))) s
  dropStale ctx (modCtx s ctx fun x => resetCtx x pages)

/-- CTXCTL_RESET (21 R371). -/
def execCtxctlReset (ctx : Nat) (s : State) : Host.Outcome State Fault Refusal := .next (whenReady s (resetOrder ctx))

/-! ### Partitions (21 R366-R369) -/

/-- The sets of sectors that no edges connect (21 R366). -/
def brokenSectors (x : BitVec 4) : Bool := x == 6 || x == 9

/-- The connected sets of sectors (21 R366). -/
def legalSectors (x : BitVec 4) : Bool := x != 0 && x != 6 && x != 9

/-- Does no other enabled slot hold one of these sectors? -/
def disjointSectors (s : State) (p : Nat) (x : BitVec 4) : Bool :=
  (List.range 4).all fun q => q == p || !(partAt s q).en ||
    (((partAt s q).sectors ||| (if (partAt s q).busy then (partAt s q).target else 0)) &&& x) == 0

/-- A partition record: S2ROOT and CTXTAB, none when it is malformed (21 R367). -/
def partRecord (s : State) (x prec : Nat) : Option (Nat × Nat) × State :=
  match readPhys ⟨sectorUnit x, 0, 15⟩ (prec * 4096) 64 0 s with
  | .ok bs s =>
    let v := ofBytes bs
    let w0 := v % 2 ^ 64
    let w1 := v / 2 ^ 64 % 2 ^ 64
    (if v / 2 ^ 128 == 0 && fld w0 11 0 == 0 && fld w0 63 52 == 0 && fld w1 6 0 == 0 && fld w1 63 52 == 0
      then some (w0, w1) else none, s)
  | .error _ s => (none, s)

/-- The sectors of a set. -/
def sectorList (x : BitVec 4) : List Nat := [0, 1, 2, 3].filter fun i => x.getLsbD i

/-- Sectors that become one partition see one memory: of each address, what its home sector holds (05 R93, log 14). -/
def mergeSectors (x : BitVec 4) (s : State) : State :=
  let ls := sectorList x
  let s := deliverAll s
  let a := ls.foldl (fun v i => v.join (sectorOf s i).a) {}
  let homed (k : Nat) (e : Nat) : Bool := homeSector e == k
  let inside (e : Nat) : Bool := ls.contains (homeSector e)
  let merge (m : List Host.Cell) (all : List Host.Cell) : List Host.Cell :=
    all.foldl (fun m b => mput (0 : Byte) m b.1 b.2) (m.filter fun e => !inside e.1)
  let mergeK (m : Map Nat) (all : Map Nat) : Map Nat := all.foldl (fun m b => mput 0 m b.1 b.2) (m.filter fun e => !inside e.1)
  let mem := ls.flatMap fun i => (sectorOf s i).mem.filter fun e => homed i e.1
  let keys := ls.flatMap fun i => (sectorOf s i).keys.filter fun e => homed i e.1
  ls.foldl (fun s i => modSector s i fun k => { k with mem := merge k.mem mem, keys := mergeK k.keys keys, a := a }) s

/-- SECTORS and PREC of a write. -/
def partSectors (v : Word) : BitVec 4 := .ofNat 4 (fld v.toNat 55 52)
def partPrec (v : Word) : BitVec 40 := .ofNat 40 (fld v.toNat 51 12)

/-- ERR after a write: W1C, or set by a refusal. -/
def partErr (p : Nat) (v : Word) (refused : Bool) (s : State) : State :=
  modPart s p fun k => { k with err := (k.err && !v.getLsbD 61) || refused }

/-- A write that sets EN. -/
def enablePart (p : Nat) (v : Word) (s : State) : State :=
  let x := partSectors v
  if (partAt s p).busy || (partAt s p).en || !legalSectors x || !disjointSectors s p x then partErr p v true s
  else match partRecord s ((sectorList x).headD 0) (partPrec v).toNat with
    | (none, s) => partErr p v true s
    | (some (root, tab), s) =>
      mergeSectors x (partErr p v false (modPart s p fun k =>
        { k with en := true, sectors := x, prec := partPrec v, s2root := root, ctxtab := tab }))

/-- PARTCTL_ENABLE (21 R366, R367). -/
def execPartctlEnable (p : Nat) (v : Word) (s : State) : Host.Outcome State Fault Refusal := .next (whenReady s (enablePart p v))

/-- A write that changes SECTORS while EN is 1: BUSY until the departing cores are left. -/
def resizePart (p : Nat) (v : Word) (s : State) : State :=
  let x := partSectors v
  let k := partAt s p
  if k.busy || !k.en || !legalSectors x || !disjointSectors s p x then partErr p v true s
  else match partRecord s ((sectorList x).headD 0) (partPrec v).toNat with
    | (none, s) => partErr p v true s
    | (some (root, tab), s) => partErr p v false (modPart s p fun k =>
        { k with busy := true, target := x, prec := partPrec v, s2root := root, ctxtab := tab })

/-- PARTITION_RESIZE (21 R368). -/
def execPartitionResize (p : Nat) (v : Word) (s : State) : Host.Outcome State Fault Refusal := .next (whenReady s (resizePart p v))

/-- The cores of departing sectors that a partition's contexts hold. -/
def departing (s : State) (p : Nat) : List Nat :=
  let k := partAt s p
  (s.cores.filter fun e => e.2.holder != 0 && (e.2.holder - 1) / 64 == p && !k.target.getLsbD (secOf e.1)).map (·.1)

/-- The cores of some sectors join with empty caches (21 R368). -/
def emptyCaches (xs : List Nat) (s : State) : State :=
  let s := (s.cores.filter fun e => xs.contains (secOf e.1)).foldl (fun s e =>
    modCore s e.1 fun k => { k with cache := [], icache := [], tlb := [] }) s
  xs.foldl (fun s x => modSector s x fun k => { k with tlb := [] }) s

/-- PARTITION_RESIZE_COMPLETE's step: a checkpoint delays the start, a deadline save goes first (21 R369); departing cores
leave by reconvergence; then the sectors change, windows of departing sectors are disabled, joining sectors merge. -/
def resizeDone (p : Nat) (s : State) : Option State :=
  let k := partAt s p
  if !k.busy || (s.ctxs.any fun e => e.1 / 64 == p && (e.2.ckpt.busy || e.2.deadline)) then none
  else
    let cores := departing s p
    match cores.filter fun c => (coreOf s c).leaving == 0 with
    | c :: t => some ((c :: t).foldl (fun s c => leaveCore 2 (ownLimit s ((coreOf s c).holder - 1)) c s) s)
    | [] =>
      if !cores.isEmpty then none
      else
        let out := sectorList (k.sectors &&& ~~~k.target)
        let s := out.foldl (fun s x => modSector s x fun y =>
          { y with rwin := (List.range 32).foldl (fun m v => mput 0 m (2 * v + 1) (mget 0 m (2 * v + 1) &&& ~~~(1#64 <<< 63))) y.rwin }) s
        let s := emptyCaches (sectorList (k.target &&& ~~~k.sectors)) s
        let s := modPart (deliverAll s) p fun k => { k with busy := false, sectors := k.target, target := 0 }
        let s := mergeSectors k.target s
        -- HOME cores of joining sectors are the contexts' own from now on
        some (s.ctxs.foldl (fun s e => if e.1 / 64 == p && e.2.in_ && e.2.saving == 0 then
          ((homeCores s e.1).filter fun c => (coreOf s c).holder == 0).foldl (fun s c => modCore s c fun k => { k with holder := e.1 + 1 }) s
          else s) s)

/-- PARTITION_RESIZE_COMPLETE (21 R368, R369). -/
def execPartitionResizeComplete (p : Nat) (s : State) : Host.Outcome State Fault Refusal := .next (orSame (resizeDone p) s)

/-- Is work of a partition still resident? -/
def workResident (s : State) (p : Nat) : Bool := s.ctxs.any fun e => e.1 / 64 == p && e.2.in_

/-- A write that clears EN; a set of sectors that is not connected is refused with EN = 0 too, the empty one is not (21 R366,
R369, log 43). -/
def disablePart (p : Nat) (v : Word) (s : State) : State :=
  if (partAt s p).busy || workResident s p || brokenSectors (partSectors v) then partErr p v true s
  else partErr p v false (modPart (deliverAll s) p fun k => { k with en := false, sectors := partSectors v, prec := partPrec v })

/-- PARTCTL_DISABLE (21 R369). -/
def execPartctlDisable (p : Nat) (v : Word) (s : State) : Host.Outcome State Fault Refusal := .next (whenReady s (disablePart p v))

end Sys2Proof.Machine
end

