-- ==== Sys2Proof/Machine/Services.lean ====
section
/-! DEFINITION. Display heads, time, boot, attestation, checkpoints and power states (21 R376-R383, 22 R388, 01 R23). -/

namespace Sys2Proof.Machine

/-! ### Display heads (21 R376, R377) -/

/-- Change a display head. -/
def modHead (s : State) (ctx h : Nat) (f : DHead → DHead) : State :=
  modCtx s ctx fun x => { x with heads := mput {} x.heads h (f (mget {} x.heads h)) }

/-- The encoder that a configuration names, and its load. -/
def headEnc (v : Word) : Nat := fld v.toNat 59 56
def headLoad (v : Word) : Nat := fld v.toNat 55 42 * fld v.toNat 41 28 * fld v.toNat 26 20
/-- Are a configuration's fields in their ranges, its encoder in the partition? -/
def headFieldsOk (s : State) (ctx : Nat) (v : Word) : Bool :=
  let w := fld v.toNat 55 42
  let h := fld v.toNat 41 28
  let fps := fld v.toNat 26 20
  let rate := fld v.toNat 19 0
  (partAt s (ctx / 64)).sectors.getLsbD (headEnc v / 4)
  && 64 ≤ w && w ≤ 3840 && w % 8 == 0 && 64 ≤ h && h ≤ 2160 && h % 8 == 0 && 1 ≤ fps && fps ≤ 60 && 1 ≤ rate && rate ≤ 10000

/-- The configurations of the other enabled heads of the package. -/
def otherHeads (s : State) (ctx h : Nat) : List Word :=
  s.ctxs.flatMap fun x => x.2.heads.filterMap fun e =>
    if e.2.cfg.getLsbD 63 && !(x.1 == ctx && e.1 == h) then some e.2.cfg else none

/-- A write of HEADCFG: an enable that does not fit stores EN = 0 and sets ERR. -/
def headCfg (ctx h : Nat) (v : Word) (s : State) : State :=
  let fields : Word := v &&& 0x0FFFFFFFFFFFFFFF
  let others := otherHeads s ctx h
  let load := (others.filter fun c => headEnc c == headEnc v).foldl (fun n c => n + headLoad c) (headLoad v)
  let good := headFieldsOk s ctx v && decide (load ≤ 497664000) && decide (others.length < 64)
  let refused := v.getLsbD 63 && !good
  modHead s ctx h fun k => { k with
    cfg := fields ||| (if v.getLsbD 63 && good then 1#64 <<< 63 else 0),
    err := (k.err && !v.getLsbD 62) || refused, waiting := if v.getLsbD 63 && good then k.waiting else none }

/-- HEADCFG_WRITE (21 R376). -/
def execHeadcfgWrite (ctx head : Nat) (v : Word) (s : State) : Host.Outcome State Fault Refusal :=
  .next (whenReady s fun s => if head < 2 then headCfg ctx head v s else s)

/-- A write of HEADSURF presents a surface: it is encoded at once, or it replaces the waiting frame. -/
def present (ctx h : Nat) (v : Word) (s : State) : State :=
  modHead s ctx h fun k =>
    let f := some (v.toNat, fabtime s)
    let k := { k with surf := v }
    if !k.cfg.getLsbD 63 then k
    else if k.encoding.isNone then { k with encoding := f } else { k with waiting := f }

/-- HEADSURF_WRITE (21 R377). -/
def execHeadsurfWrite (ctx head : Nat) (v : Word) (s : State) : Host.Outcome State Fault Refusal :=
  .next (whenReady s fun s => if head < 2 then present ctx head v s else s)

/-- Write a frame at a position of a ring, around its end. -/
def ringWrite (w : Who) (base size pos : Nat) (bs : List Byte) : M Unit := do
  let p := pos % size
  let n := min bs.length (size - p)
  vwrite w (base + p) (bs.take n)
  if n < bs.length then vwrite w base (bs.drop n)

/-- AV1's levels up to 5.1: level index, samples of a picture, width, height, samples shown in a second.  They are the standard's,
which 00 R2 names (log 15). -/
def av1Levels : List (Nat × Nat × Nat × Nat × Nat) :=
  [(0, 147456, 2048, 1152, 4423680), (1, 278784, 2816, 1584, 8363520), (4, 665856, 4352, 2448, 19975680),
   (5, 1065024, 5504, 3096, 31950720), (8, 2359296, 6144, 3456, 70778880), (9, 2359296, 6144, 3456, 141557760),
   (12, 8912896, 8192, 4352, 267386880), (13, 8912896, 8192, 4352, 534773760)]

/-- The lowest level that fits a picture and its rate, at most 5.1 (21 R376). -/
def av1Level (w h fps : Nat) : Nat :=
  ((av1Levels.find? fun l => decide (w * h ≤ l.2.1) && decide (w ≤ l.2.2.1) && decide (h ≤ l.2.2.2.1)
    && decide (w * h * fps ≤ l.2.2.2.2)).map (·.1)).getD 13

/-- A temporal unit in the low-overhead format: the temporal delimiter, then what the encoder makes of the surface (21 R377). -/
def temporalUnit (cfg : Word) (frame : Nat) (surface : List Byte) : List Byte :=
  let n := cfg.toNat
  let (w, h, fps) := (fld n 55 42, fld n 41 28, fld n 26 20)
  [0x12, 0x00] ++ Config.av1Unit 0 (av1Level w h fps) (fld n 19 0) (cfg.getLsbD 27) w h fps frame surface

/-- Bytes of a surface: a luma plane, and chroma of half its size, 1 or 2 bytes to a sample (21 R377). -/
def surfaceBytes (cfg : Word) : Nat :=
  fld cfg.toNat 55 42 * fld cfg.toNat 41 28 * 3 / 2 * (if cfg.getLsbD 27 then 2 else 1)

/-- A frame as it stands in a ring: header, temporal unit, padding to 64 bytes. -/
def frameBytes (frame time : Nat) (unit_ : List Byte) : List Byte :=
  let bs := leBytes 16 (frame % 2 ^ 32 + unit_.length % 2 ^ 32 * 2 ^ 32 + time % 2 ^ 64 * 2 ^ 64) ++ unit_
  bs ++ List.replicate ((64 - bs.length % 64) % 64) 0

/-- Encode a surface and write its frame; the bytes written, none when they do not fit in the ring. -/
def encodeFrame (w : Who) (k : DHead) (surf time : Nat) : M (Option Nat) := do
  let pixels ← vread w surf (surfaceBytes k.cfg)
  let bs := frameBytes k.frames time (temporalUnit k.cfg k.frames pixels)
  let log := k.out.toNat % 32
  if log < 16 || 30 < log || 2 ^ log < bs.length then return none
  ringWrite w (fld k.out.toNat 56 12 * 4096) (2 ^ log) k.pos bs
  return some bs.length

/-- FRAME_ENCODE_COMPLETE's step: the surface is read, the frame written, then HEADSEQ as a release at .package; a frame that does
not fit, or whose surface or ring cannot be accessed, is dropped (log 15). -/
def frameStep (ctx h : Nat) (s : State) : Option State :=
  let k := headOf s ctx h
  let next (k : DHead) : DHead := { k with encoding := k.waiting, waiting := none }
  let drop (s : State) : State := modHead s ctx h fun k => next { k with drops := k.drops + 1 }
  match k.encoding with
  | none => none
  | some (surf, t) =>
    match runCtx ctx (encodeFrame (ctxWho s ctx 15) k surf t) s with
    | .wait o => o
    | .failed s => some (drop s)
    | .done none s => some (drop s)
    | .done (some n) s => some (modHead (deliverAll s) ctx h fun k => next { k with frames := k.frames + 1, pos := k.pos + n })

/-- FRAME_ENCODE_COMPLETE (21 R377). -/
def execFrameEncodeComplete (ctx head : Nat) (s : State) : Host.Outcome State Fault Refusal := .next (orSame (frameStep ctx head) s)

/-! ### Time (21 R378, 23 R417) -/

/-- Has any context of the package a launch bound to fabric? -/
def fabricLaunch (s : State) : Bool := s.ctxs.any fun e => e.2.launches.any fun l => !l.2.done && fabricBound l.2

/-- A write of PTPCTL; a value out of its range leaves its field (log 16). -/
def ptpCtl (v : Word) (s : State) : State :=
  let n := v.toNat
  let win := n % 64
  let refused := win != s.mgmt.winLen.toNat && fabricLaunch s
  let sync := fld n 47 40
  let port := fld n 39 32
  { s with mgmt := { s.mgmt with
    ptpEn := v.getLsbD 63, winErr := (s.mgmt.winErr && !v.getLsbD 62) || refused, ptpDomain := .ofNat 8 (fld n 55 48),
    logSync := if sync = 0 || 0xF9 ≤ sync then .ofNat 8 sync else s.mgmt.logSync,
    ptpPort := if port < 24 then .ofNat 8 port else s.mgmt.ptpPort,
    winLen := if !refused && 1 ≤ win && win ≤ 32 then .ofNat 6 win else s.mgmt.winLen,
    locked := s.mgmt.locked && v.getLsbD 63 } }

/-- PTPCTL_WRITE (21 R378). -/
def execPtpctlWrite (v : Word) (s : State) : Host.Outcome State Fault Refusal := .next (whenReady s (ptpCtl v))

/-- FABTIME takes the disciplined time: by one step at the first lock, and at later ones by following it, at the rate that the
master has kept since (21 R378, log 16). -/
def discipline (time : Nat) (s : State) : State :=
  let s := if s.mgmt.everLocked && s.fabClk < s.clk && s.fabBase < time
    then { s with fabNum := time - s.fabBase, fabDen := s.clk - s.fabClk } else s
  { s with fabBase := time, fabClk := s.clk }

/-- PTP_LOCK (21 R378). -/
def execPtpLock (time : Nat) (offset : BitVec 32) (s : State) : Host.Outcome State Fault Refusal :=
  .next (if !s.mgmt.ptpEn then s
    else
      let s := discipline time s
      { s with mgmt := { s.mgmt with locked := true, everLocked := true, offset := offset } })

/-- PTP_LOCK_LOSS (23 R417): FABTIME runs on at its last rate. -/
def execPtpLockLoss (s : State) : Host.Outcome State Fault Refusal := .next { s with mgmt := { s.mgmt with locked := false } }

/-- Bytes with the greatest first, as IEEE 1588 lays its fields out. -/
def netBytes (n v : Nat) : List Byte := (leBytes n v).reverse
/-- The field of `n` bytes at a place of a message. -/
def netField (m : List Byte) (at_ n : Nat) : Nat := ofBytes ((m.drop at_).take n).reverse
/-- A timestamp of a message: 48 bits of seconds and 32 of nanoseconds. -/
def netTime (m : List Byte) : Nat := netField m 34 6 * 1000000000 + netField m 40 4
/-- Its correction in nanoseconds. -/
def netCorrection (m : List Byte) : Int := signed 64 (netField m 8 8) / 65536
/-- The port's identity: the clock's, and the port's number, counted from 1. -/
def portIdentity (s : State) : List Byte := (List.range 8).map Config.clockIdentity ++ netBytes 2 (s.mgmt.ptpPort.toNat + 1)

/-- A Delay_Req: the common header of IEEE 1588-2019 and an origin timestamp (21 R364, R378, log 16). -/
def delayReq (s : State) : List Byte :=
  [0x01, 0x12] ++ netBytes 2 44 ++ [s.mgmt.ptpDomain, 0] ++ List.replicate 14 0 ++ portIdentity s ++ netBytes 2 s.mgmt.ptpSeq
    ++ [1, 0x7F] ++ netBytes 6 (fabtime s / 1000000000) ++ netBytes 4 (fabtime s % 1000000000)

/-- SYNC_INTERVAL (21 R378): the package, a clock that follows its master, sends its next Delay_Req on PTPCTL.PORT, and notes when
it left. -/
def execSyncInterval (s : State) : Host.Outcome State Fault Refusal :=
  .next (if !s.mgmt.ptpEn then s
    else
      let t := postPacket s.mgmt.ptpPort.toNat 2 0 (0x20 * 2 ^ 248 + 44 * 2 ^ 64) (delayReq s) s
      { t with mgmt := { t.mgmt with ptpReq := some (s.mgmt.ptpSeq, fabtime s), ptpSeq := (s.mgmt.ptpSeq + 1) % 65536 } })

/-- What an accepted IEEE 1588 message does: of a Sync the receipt is taken, its Follow_Up gives the master's time of it, and the
Delay_Resp to the last Delay_Req ends the measurement of the offset from the master; one of another domain does nothing. -/
def ptpMessage (m : List Byte) (s : State) : State :=
  let g := s.mgmt
  let seq := netField m 30 2
  if netField m 4 1 != g.ptpDomain.toNat || m.length < 44 then s else
  match netField m 0 1 % 16 with
  | 0 => { s with mgmt := { g with ptpSync := some (seq, fabtime s - netCorrection m), ptpPath := none } }
  | 8 => match g.ptpSync with
    | some (n, t2) => if n = seq then { s with mgmt := { g with ptpPath := some (t2 - netTime m - netCorrection m) } } else s
    | none => s
  | 9 => match g.ptpPath, g.ptpReq with
    | some d, some (n, t3) =>
      if n = seq && (m.drop 44).take 10 == portIdentity s then
        let back := (netTime m : Int) - netCorrection m - t3
        { s with mgmt := { g with ptpReq := none, offset := .ofInt 32 ((d - back) / 2) } }
      else s
    | _, _ => s
  | _ => s

/-! ### Boot (21 R379, 22 R388) -/

/-- A write of 1 to BOOTCTL bit 0. -/
def bootOrder (s : State) : State :=
  if s.mgmt.ready || s.mgmt.fail then s else { s with mgmt := { s.mgmt with bootCtl := 1, booting := true } }

/-- BOOT_START (21 R379). -/
def execBootStart (s : State) : Host.Outcome State Fault Refusal := .next (bootOrder s)

/-- The firmware image at the start of the second tier. -/
def firmware (s : State) : List Byte := (List.range Config.firmwareLength).map fun i => readByte s 0 (2 ^ 40 + i)

/-- The header that firmware writes in a sector's error ring before READY (22 R388). -/
def bootRing (s : State) (x : Nat) : State :=
  let h := Config.fusedSpares x % 65536 * 2 ^ 32 + Config.fusedCoresOff x % 49 * 2 ^ 48
    + (if Config.fusedFlags x % 2 = 1 then 2 ^ 62 else 0) + (if Config.fusedFlags x / 2 % 2 = 1 then 2 ^ 63 else 0)
  applyWrite s x (errRing x) (leBytes 64 (h * 2 ^ 128))

/-- BOOT_COMPLETE's step: the trailer of 64 bytes is a signature, r then s, over the rest of the image. -/
def bootStep (s : State) : Option State :=
  if !s.mgmt.booting then none else
  let img := firmware s
  let body := img.take (img.length - 64)
  let sig := img.drop (img.length - 64)
  let digest := sha256 body
  let good := decide (64 ≤ img.length) && ecdsaOk Config.vendorKey (ofBE digest) (ofBE (sig.take 32)) (ofBE (sig.drop 32))
  if good then
    let s := { s with mgmt := { s.mgmt with
      booting := false, ready := true, version := Config.firmwareVersion img, measurement := digest } }
    some ([0, 1, 2, 3].foldl bootRing s)
  else some { s with mgmt := { s.mgmt with booting := false, fail := true } }

/-- BOOT_COMPLETE (21 R379). -/
def execBootComplete (s : State) : Host.Outcome State Fault Refusal := .next (orSame bootStep s)

/-! ### Attestation (21 R380) -/

/-- A write of 1 to ATTCTL bit 0. -/
def attestOrder (s : State) : State := { s with mgmt := { s.mgmt with attBusy := true } }

/-- ATTEST_REQUEST (21 R380). -/
def execAttestRequest (s : State) : Host.Outcome State Fault Refusal := .next (whenReady s attestOrder)

/-- Bytes 0 to 127 of a report. -/
def reportBody (s : State) : List Byte :=
  let nonce := (List.range 4).flatMap fun i => leBytes 8 (mget 0 s.mgmt.nonce i).toNat
  let regs := (List.range 4).flatMap (fun x => leBytes 8 (pglim s x)) ++ (List.range 4).flatMap fun p => leBytes 8 (partValue (partAt s p))
  nonce ++ s.mgmt.measurement ++ sha256 regs ++ (List.range 16).map Config.serial ++ leBytes 8 (s.mgmt.reports + 1) ++ List.replicate 8 0

/-- ATTEST_COMPLETE's step. -/
def attestStep (s : State) : Option State :=
  if !s.mgmt.attBusy then none else
  let b := reportBody s
  let sig := (Config.attSignature b s.choice ++ List.replicate 64 0).take 64
  some { s with choice := s.choice + 1, mgmt := { s.mgmt with
    attBusy := false, attDone := true, report := b ++ sig, reports := s.mgmt.reports + 1 } }

/-- ATTEST_COMPLETE (21 R380). -/
def execAttestComplete (s : State) : Host.Outcome State Fault Refusal := .next (orSame attestStep s)

/-- A write of a word of ATTNONCE clears ATTCTL bit 63. -/
def nonceWrite (idx : Nat) (v : Word) (s : State) : State :=
  { s with mgmt := { s.mgmt with nonce := mput 0 s.mgmt.nonce idx v, attDone := false } }

/-- ATTNONCE_WRITE (21 R380). -/
def execAttnonceWrite (idx : Nat) (v : Word) (s : State) : Host.Outcome State Fault Refusal :=
  .next (whenReady s fun s => if idx < 4 then nonceWrite idx v s else s)

/-! ### Checkpoints (21 R381-R383) -/

/-- Change a context's checkpoint state. -/
def modCkpt (s : State) (ctx : Nat) (f : Ckpt → Ckpt) : State := modCtx s ctx fun x => { x with ckpt := f x.ckpt }

/-- A trigger: discarded while BUSY; without a descriptor it does nothing (log 17).  The context is saved at once. -/
def ckptTrigger (ctx : Nat) (s : State) : State :=
  let x := ctxOf s ctx
  let s := modCkpt s ctx fun k => { k with count := 0, last := s.clk }
  if x.ckpt.busy || recField s ctx 639 576 = 0 then s
  else
    let s := modCkpt s ctx fun k => { k with busy := true, phase := 0, alone := false }
    if x.in_ then leaveCtx 1 ctx s else s

/-- CKPT_NOW (21 R381). -/
def execCkptNow (ctx : Nat) (s : State) : Host.Outcome State Fault Refusal :=
  .next (whenReady s fun s => if (ctxOf s ctx).ckpt.en then ckptTrigger ctx s else s)

/-- CKPT_PERIOD_EXPIRY's step: PERIOD ms of 1,400,000 clk. -/
def periodStep (ctx : Nat) (s : State) : Option State :=
  let k := (ctxOf s ctx).ckpt
  if k.en && k.period != 0 && decide (k.last + k.period.toNat * 1400000 ≤ s.clk) then some (ckptTrigger ctx s) else none

/-- CKPT_PERIOD_EXPIRY (21 R381). -/
def execCkptPeriodExpiry (ctx : Nat) (s : State) : Host.Outcome State Fault Refusal := .next (orSame (periodStep ctx) s)

/-- CKPT_STEPS_REACHED's step. -/
def stepsStep (ctx : Nat) (s : State) : Option State :=
  let k := (ctxOf s ctx).ckpt
  if k.en && k.steps != 0 && decide (k.steps.toNat ≤ k.count) then some (ckptTrigger ctx s) else none

/-- CKPT_STEPS_REACHED (21 R381). -/
def execCkptStepsReached (ctx : Nat) (s : State) : Host.Outcome State Fault Refusal := .next (orSame (stepsStep ctx) s)

/-- A checkpoint descriptor (21 R382). -/
structure CkptDesc where
  group : Nat
  rank : Nat
  nrep : Nat
  pkg : Nat
  store : Nat
  manifest : Nat
  ranges : List (Nat × Nat)

/-- Read a context's descriptor. -/
def ckptDesc (w : Who) : M CkptDesc := do
  let v ← vreadN w (recField (← get) w.ctx 639 576) 288
  let word (i : Nat) : Nat := v / 2 ^ (64 * i) % 2 ^ 64
  -- NREP is 1 to 256 in eight bits: 256 stands as 0 (log 17)
  let n := fld (word 0) 31 24
  return { group := fld (word 0) 15 0, rank := fld (word 0) 23 16, nrep := if n = 0 then 256 else n, pkg := word 1 % 256, store := word 2, manifest := word 3,
           ranges := (List.range 16).map fun i => (word (4 + 2 * i), word (5 + 2 * i)) }

/-- Bytes of a chunk. -/
def chunkLen : Nat := 2097152

/-- The addresses of the chunks: the save area first, then the ranges in order. -/
def ckptChunks (s : State) (ctx : Nat) (d : CkptDesc) : List Nat :=
  (List.range 1536).map (fun i => recField s ctx 127 64 + chunkLen * i)
  ++ d.ranges.flatMap fun r => (List.range (r.2 / chunkLen)).map fun i => r.1 + chunkLen * i

/-- The hash of a chunk as a number. -/
def chunkHash (w : Who) (a : Nat) : M Nat := do return ofBE (sha256 (← vread w a chunkLen))

/-- Put a chunk in the store: remote writes of 512 bytes, or plain writes when the store is in this package. -/
def storeChunk (w : Who) (d : CkptDesc) (a off : Nat) : M Unit := do
  let bs ← vread w a chunkLen
  let s ← get
  if recField s w.ctx 575 560 = 0 || d.pkg = recField s w.ctx 447 440 then vwrite w (d.store + off) bs
  else
    for i in List.range (chunkLen / 512) do
      modify (sendRemote (48 * ctxSector s w.ctx) 0 { ctx := w.ctx } d.pkg ((d.store + off + 512 * i) % 2 ^ 57)
        ((bs.drop (512 * i)).take 512) 0 false)

/-- Write the owned chunks and the manifest's entries: `place` gives each chunk its store offset and its owner's rank. -/
def ckptWrite (w : Who) (d : CkptDesc) (chunks hashes : List Nat) (place : Nat → Nat × Nat × Bool) : M Unit := do
  for (a, k) in chunks.zipIdx do
    let (off, owner, mine) := place k
    if mine then storeChunk w d a off
    vwrite w (d.manifest + 64 + 48 * k) (beBytes 32 (hashes.getD k 0) ++ leBytes 8 off ++ leBytes 8 owner)

/-- The chunks of a context whose checkpoint is in progress, and their hashes. -/
def ckptOwn (w : Who) : M (CkptDesc × List Nat) := do
  let d ← ckptDesc w
  return (d, ← (ckptChunks (← get) w.ctx d).mapM (chunkHash w))

/-- Is the context of a checkpoint saved? -/
def ckptSaved (s : State) (ctx : Nat) : Bool :=
  let x := ctxOf s ctx
  x.ckpt.busy && !x.in_ && x.saving == 0

/-- Once its context is saved, a rank forms its hashes and sends them to every rank of its group: the messages' form is not given,
so what is sent stands in the state (21 R382, log 17). -/
def ckptSend (ctx : Nat) (s : State) : Option State :=
  match runCtx ctx (ckptOwn (ctxWho s ctx 15)) s with
  | .wait o => o
  | .failed s => some (modCkpt s ctx fun k => { k with busy := false, phase := 0 })
  | .done (d, own) s => some (modCkpt s ctx fun k => { k with phase := 1, since := s.clk, own := own, group := d.group })

/-- A checkpoint's end: once its remote writes are known applied, the count word is written and the context resumes. -/
def ckptEnd (ctx : Nat) (s : State) : Option State :=
  let x := ctxOf s ctx
  if x.ckpt.phase != 2 || s.sent.any (fun r => r.ctx == ctx) then none
  else
    let act : M Unit := do
      let w := ctxWho s ctx 15
      let d ← ckptDesc w
      let n := (ckptChunks (← get) ctx d).length
      vwrite w d.manifest (leBytes 8 (n + if x.ckpt.alone then 2 ^ 63 else 0))
    match runCtx ctx act (deliverAll s) with
    | .wait o => o
    | .failed s => some (modCkpt s ctx fun k => { k with busy := false, phase := 0 })
    | .done _ s => some (modCkpt s ctx fun k => { k with busy := false, phase := 0 })

/-- Run the writing part of a checkpoint. -/
def ckptRun (ctx : Nat) (alone : Bool) (m : M (List Nat)) (s : State) : Option State :=
  match runCtx ctx m s with
  | .wait o => o
  | .failed s => some (modCkpt s ctx fun k => { k with busy := false, phase := 0 })
  | .done hs s => some (modCkpt s ctx fun k => { k with phase := 2, hashes := hs, alone := alone })

/-- The first pair, rank-major, that holds a hash: rank and chunk. -/
def firstPair (all : List (List Nat)) (h : Nat) : Nat × Nat :=
  ((all.zipIdx.findSome? fun r => (r.1.findIdx? (· == h)).map fun k => (r.2, k))).getD (0, 0)

/-- The hashes of all ranks are known: a rank writes the chunks that it owns, and its manifest. -/
def ckptAgree (ctx : Nat) (peers : List (List Nat)) (s : State) : Option State :=
  let w := ctxWho s ctx 15
  let own := (ctxOf s ctx).ckpt.own
  ckptRun ctx false (do
    let d ← ckptDesc w
    let all := (List.range d.nrep).map fun r => if r = d.rank then own else peers.getD r []
    let distinct := all.flatten.eraseDups
    ckptWrite w d (ckptChunks (← get) ctx d) own fun k =>
      let h := own.getD k 0
      let o := firstPair all h
      (chunkLen * (distinct.idxOf h), o.1, o == (d.rank, k))
    return distinct) s

/-- CKPT_HASHES_RECEIVED's step. -/
def hashesStep (ctx : Nat) (peers : List (List Nat)) (s : State) : Option State :=
  match (ctxOf s ctx).ckpt.phase with
  | 2 => ckptEnd ctx s
  | 1 => ckptAgree ctx peers s
  | _ =>
    if !ckptSaved s ctx then none
    else (ckptSend ctx s).map fun s => if (ctxOf s ctx).ckpt.phase == 1 then (ckptAgree ctx peers s).getD s else s

/-- CKPT_HASHES_RECEIVED (21 R382). -/
def execCkptHashesReceived (ctx : Nat) (hashes : List (List Nat)) (s : State) : Host.Outcome State Fault Refusal :=
  .next (orSame (hashesStep ctx hashes) s)

/-- CKPT_PEER_TIMEOUT's step: 10 ms after its own save a rank writes all its chunks behind the agreed offsets. -/
def timeoutStep (ctx : Nat) (s : State) : Option State :=
  let k := (ctxOf s ctx).ckpt
  match k.phase with
  | 2 => ckptEnd ctx s
  | 1 =>
    if s.clk < k.since + 14000000 then none
    else
      let w := ctxWho s ctx 15
      ckptRun ctx true (do
        let d ← ckptDesc w
        ckptWrite w d (ckptChunks (← get) ctx d) k.own fun i => (chunkLen * (k.hashes.length + i), d.rank, true)
        return k.hashes) s
  | _ => if ckptSaved s ctx then ckptSend ctx s else none

/-- CKPT_PEER_TIMEOUT (21 R383). -/
def execCkptPeerTimeout (ctx : Nat) (s : State) : Host.Outcome State Fault Refusal := .next (orSame (timeoutStep ctx) s)

/-! ### Power states (01 R23) -/

/-- POWER_ON: from OFF a cold reset; in ON nothing happens. -/
def execPowerOn (s : State) : Host.Outcome State Fault Refusal :=
  .next (if s.on then s else { State.reset with choice := s.choice, agenda := s.agenda })

/-- POWER_OFF: all work ends at once and nothing is kept. -/
def execPowerOff (s : State) : Host.Outcome State Fault Refusal :=
  .next { State.reset with on := false, choice := s.choice, agenda := s.agenda }

end Sys2Proof.Machine
end

