-- ==== Sys2Proof/Machine/Links.lean ====
section
/-! DEFINITION. Device registers (21 R359, R360) and FloxLink: blocks, packets, credits (21 R361-R365, 23 R416, 24 R419,
R430). -/

namespace Sys2Proof.Machine

/-! ### Writing a register (21 R359, 00 R8) -/

/-- A write of PARTCTL (21 R366-R369). -/
def partWrite (p : Nat) (v : Word) (s : State) : State :=
  let k := partAt s p
  if k.busy then partErr p v true s
  else if v.getLsbD 63 then
    if !k.en then enablePart p v s
    else if k.sectors != partSectors v then resizePart p v s
    else partErr p v false (modPart s p fun k => { k with prec := partPrec v })
  else if k.en then disablePart p v s
  else if brokenSectors (partSectors v) then partErr p v true s
  else partErr p v false (modPart s p fun k => { k with sectors := partSectors v, prec := partPrec v })

/-- A write of the management page. -/
def writeMgmt (o : Nat) (v : Word) (s : State) : State :=
  if o < 0x20 then refuseAll (o / 8) { s with power := setLimit s.power (o / 8) (v.toNat % 65536) }
  else if o < 0x40 then
    if v.getLsbD 31 then { s with power := { s.power with clamped := s.power.clamped &&& ~~~(1#4 <<< (o / 8 - 4)) } } else s
  else if o < 0x60 then partWrite (o / 8 - 8) v s
  else if o = 0x100 then ptpCtl v s
  else if 0x300 ≤ o && o < 0x320 then nonceWrite (o / 8 - 0x60) v s
  else if o = 0x320 then (if v.getLsbD 0 then attestOrder s else s)
  else s

/-- A write of a sector's page. -/
def writeSector (x o : Nat) (v : Word) (s : State) : State :=
  if o < 0x200 then
    if o % 16 = 0 then modSector s x fun k => { k with rwin := mput 0 k.rwin (o / 8) (v &&& 0x000FFFFFFFE00000) }
    else rwinStep x (o / 16) v s
  else if 0x400 ≤ o && o < 0x420 then
    let n := 2 * x + (o - 0x400) / 16
    if o % 16 = 0 then modStack s n fun k => { k with en := v.getLsbD 31, interval := min 1000 (max 1 (v.toNat % 65536)) }
    else if v.getLsbD 31 then modStack s n fun k => { k with deferred := false } else s
  else s

/-- A write of CTXCTL: SAVE, RUN, RESET and RETRAP in this order (log 18). -/
def ctxCtl (ctx : Nat) (v : Word) (s : State) : State :=
  let s := if v.getLsbD 63 then saveOrder ctx s else s
  let s := if v.getLsbD 62 then runOrder ctx s else s
  let s := if v.getLsbD 61 then resetOrder ctx s else s
  if v.getLsbD 60 then retrap ctx s else s

/-- A write of a context's page. -/
def writeCtx (ctx o : Nat) (v : Word) (s : State) : State :=
  let n := v.toNat
  if o = 0 then (if v.getLsbD 31 then bump ctx s else s)
  else if o = 0x08 then modCtx s ctx fun x => { x with fpflags := x.fpflags &&& ~~~(v.truncate 6) }
  else if o = 0x10 then modCtx s ctx fun x => { x with mode := n % 4, sampleLog := min 16 (max 4 (fld n 19 16)) }
  else if o = 0x18 then modCtx s ctx fun x => { x with numRing := v &&& 0x01FFFFFFFFFFF00F }
  else if o = 0x20 then modCtx s ctx fun x => { x with numTail := .ofNat 32 (n / 2 ^ 32) }
  else if o = 0x28 then (if n % 2 ^ 32 = 0xFFFFFFFF then modCtx s ctx fun x => { x with numDrop := 0 } else s)
  else if o = 0x48 then ctxCtl ctx v s
  else if 0x80 ≤ o && o < 0x100 then
    let h := (o - 0x80) / 0x40
    match o % 0x40 with
    | 0 => headCfg ctx h v s
    | 8 => present ctx h v s
    | 16 => modHead s ctx h fun k => { k with out := v &&& 0x01FFFFFFFFFFF01F }
    | _ => s
  else if o = 0x100 then
    let s := modCkpt s ctx fun k => { k with
      en := v.getLsbD 63, steps := .ofNat 24 (fld n 55 32), period := .ofNat 32 n, last := if k.en then k.last else s.clk }
    if v.getLsbD 61 && v.getLsbD 63 then ckptTrigger ctx s else s
  else s

/-- A write of a queue page (21 R375). -/
def writeQueue (ctx q o : Nat) (v : Word) (s : State) : State :=
  match o with
  | 0 => modQueue s ctx q fun k => { k with base := v &&& 0x01FFFFFFFFFFF01F }
  | 8 => modQueue s ctx q fun k => { k with reserve := v }
  | 16 => tailWrite ctx q v s
  | 32 => ctlWrite ctx q v s
  | _ => s

/-- A write of a device register takes effect; before READY only BOOTCTL listens (21 R359, R379). -/
def writeRegister (a : Nat) (v : Word) (s : State) : State :=
  let o := a - deviceBase
  if a < deviceBase || a % 8 ≠ 0 then s
  else if o = 0x200 then (if v.getLsbD 0 then bootOrder s else s)
  else if !s.mgmt.ready then s
  else if o < 0x10000 then writeMgmt o v s
  else if o < 0x50000 then writeSector (o / 0x10000 - 1) (o % 0x10000) v s
  else if 0x100000 ≤ o && o < 0x1100000 then writeCtx ((o - 0x100000) / 0x10000) (o % 0x10000) v s
  else if 0x2000000 ≤ o && o < 0x6000000 then
    let n := (o - 0x2000000) / 4096
    writeQueue (n / 64) (n % 64) (o % 4096) v s
  else s

/-- REGISTER_WRITE (21 R359). -/
def execRegisterWrite (addr : Nat) (v : Word) (s : State) : Host.Outcome State Fault Refusal := .next (writeRegister addr v s)

/-! ### Blocks (21 R361, R362) -/

/-- A port. -/
def portAt (s : State) (p : Nat) : Port := mget {} s.ports p
/-- Change it. -/
def modPort (s : State) (p : Nat) (f : Port → Port) : State := { s with ports := mput {} s.ports p (f (portAt s p)) }

/-- Was one of the last 128 blocks sent after another, modulo 256? -/
def sentAfter (back seq : BitVec 8) : Bool := seq != back && decide ((seq - back).toNat ≤ 128)

/-- BACK has come: the blocks up to it have arrived.  A remote write that has arrived has yet to be applied (log 9). -/
def takeBack (p : Nat) (back : BitVec 8) (s : State) : State :=
  modPort s p fun k => { k with unacked := if back == k.back then k.unacked else 0, back := back,
                                kept := k.kept.filter fun b => sentAfter back b.1 }

/-- BLOCK_RECEIVE's step: a block that the FEC cannot correct, or out of sequence, is discarded and BNAK sets. -/
def receiveStep (p : Nat) (good : Bool) (hdr : BitVec 20) (s : State) : Option State :=
  let k := portAt s p
  if !k.up then none
  else if !good || BitVec.ofNat 8 (fld hdr.toNat 19 12) != k.rx + 1 then some (modPort s p fun k => { k with bnak := true })
  else
    let s := takeBack p (.ofNat 8 (fld hdr.toNat 11 4)) (modPort s p fun k => { k with rx := k.rx + 1 })
    some (if hdr.getLsbD 3 then modPort s p fun k => { k with resend := (k.kept.map (·.1)).reverse } else s)

/-- BLOCK_RECEIVE (21 R361). -/
def execBlockReceive (port : Nat) (good : Bool) (hdr : BitVec 20) (s : State) : Host.Outcome State Fault Refusal :=
  .next (orSame (receiveStep port good hdr) s)

/-- Choose packets for a block of 20 flits: in order within a virtual channel, under its credit (21 R362). -/
def fillBlock : Nat → Nat → Nat → Nat → List Nat → List (Nat × Nat × Nat × Nat) →
    List (Nat × Nat × Nat × Nat) × List (Nat × Nat × Nat × Nat)
  | _, _, _, _, _, [] => ([], [])
  | room, c0, c1, c2, stop, x :: t =>
    let (vc, n, _) := x
    let credit := match vc with | 0 => c0 | 1 => c1 | 2 => c2 | _ => n
    if stop.contains vc || room < n || credit < n then
      let (a, b) := fillBlock room c0 c1 c2 (vc :: stop) t
      (a, x :: b)
    else
      let (a, b) := fillBlock (room - n) (if vc = 0 then c0 - n else c0) (if vc = 1 then c1 - n else c1)
        (if vc = 2 then c2 - n else c2) stop t
      (x :: a, b)

/-- Flits of one channel among some packets. -/
def flitsOf (vc : Nat) (ps : List (Nat × Nat × Nat × Nat)) : Nat := (ps.filter (·.1 == vc)).foldl (fun n x => n + x.2.1) 0

/-- Have remote writes left on another port of the sector that are not known to have arrived?  Those of this port wait for them,
so that window queues keep their order (23 R416, log 9). -/
def remoteElsewhere (s : State) (p : Nat) : Bool :=
  (sectorPorts (p / 6)).any fun r => r != p && (portAt s r).kept.any fun b => b.2.any (·.1 == 1)

/-- BLOCK_SEND's step: the next block, kept for a resend among the last 128. -/
def sendStep (p : Nat) (s : State) : Option State :=
  let k := portAt s p
  if !k.up || !k.resend.isEmpty || 128 ≤ k.unacked then none
  else
    let (out, rest) := fillBlock 20 k.credit0 k.credit1 k.credit2 (if remoteElsewhere s p then [1] else []) k.outbox
    some (modPort s p fun k => { k with
      bseq := k.bseq + 1, bnak := false, kept := ((k.bseq, out) :: k.kept).take 128, unacked := k.unacked + 1, outbox := rest,
      credit0 := k.credit0 - flitsOf 0 out, credit1 := k.credit1 - flitsOf 1 out, credit2 := k.credit2 - flitsOf 2 out })

/-- BLOCK_SEND (21 R361). -/
def execBlockSend (port : Nat) (s : State) : Host.Outcome State Fault Refusal := .next (orSame (sendStep port) s)

/-- BLOCK_RESEND's step: the next kept block after BACK. -/
def resendStep (p : Nat) (s : State) : Option State :=
  let k := portAt s p
  match k.resend with
  | [] => none
  | _ :: t => if !k.up || 128 ≤ k.unacked then none else
      some (modPort s p fun k => { k with resend := t, bnak := false, unacked := k.unacked + 1 })

/-- BLOCK_RESEND (21 R361). -/
def execBlockResend (port : Nat) (s : State) : Host.Outcome State Fault Refusal := .next (orSame (resendStep port) s)

/-- The remote writes that wait on the other ports of a sector are carried on a port, in their order (23 R416). -/
def carryRemote (p : Nat) (s : State) : State :=
  let others := (sectorPorts (p / 6)).filter (· != p)
  let moved := others.flatMap fun r => (portAt s r).outbox.filter (·.1 == 1)
  if moved.isEmpty then s else
  let s := others.foldl (fun s r =>
    if (portAt s r).outbox.any (·.1 == 1) then modPort s r fun k => { k with outbox := k.outbox.filter (·.1 != 1) } else s) s
  modPort s p fun k => { k with outbox := moved ++ k.outbox }

/-- The lowest port of a sector that is up carries its remote writes (23 R416). -/
def carryAll (x : Nat) (s : State) : State := if (portAt s (sendPort s x)).up then carryRemote (sendPort s x) s else s

/-- LINK_DOWN's step: what was not known to arrive is to be sent again, remote writes on the lowest port of the sector that
is up (23 R416). -/
def downStep (p : Nat) (s : State) : Option State :=
  let k := portAt s p
  if !k.up then none
  else
    let all := (k.kept.reverse.flatMap (·.2)) ++ k.outbox
    some (carryAll (p / 6) (modPort s p fun k => { k with up := false, kept := [], resend := [], outbox := all.filter (·.1 != 3) }))

/-- LINK_DOWN (21 R361, 23 R416). -/
def execLinkDown (port : Nat) (s : State) : Host.Outcome State Fault Refusal := .next (orSame (downStep port) s)

/-- LINK_RETRAIN_COMPLETE's step: the port restarts at BSEQ 0 with fresh credit. -/
def upStep (p : Nat) (s : State) : Option State :=
  if (portAt s p).up then none
  else some (carryAll (p / 6) (modPort s p fun k => { ({} : Port) with outbox := k.outbox }))

/-- LINK_RETRAIN_COMPLETE (21 R361). -/
def execLinkRetrainComplete (port : Nat) (s : State) : Host.Outcome State Fault Refusal := .next (orSame (upStep port) s)

/-! ### Packets (21 R363-R365) -/

def pKind (h : Nat) : Nat := fld h 255 248
def pFlits (h : Nat) : Nat := fld h 247 243
def pVc (h : Nat) : Nat := fld h 242 241
def pSrc (h : Nat) : Nat := fld h 239 232
def pDst (h : Nat) : Nat := fld h 231 224
def pDomain (h : Nat) : Nat := fld h 223 208
def pTag (h : Nat) : Nat := fld h 207 192
def pAddr (h : Nat) : Nat := fld h 191 128
def pWindow (h : Nat) : Nat := fld h 127 96
def pSendq (h : Nat) : Nat := fld h 90 80
def pLen (h : Nat) : Nat := fld h 79 64
def pRop (h : Nat) : Nat := fld h 63 60
def pDet (h : Nat) : Bool := bitAt h 59

/-- A discarded packet writes REMOTE_DROPPED in the ring of the receiving port's sector (24 R419). -/
def dropPacket (p h kind addr reason : Nat) (s : State) : State :=
  logError s (p / 6) 0x4D addr 0 ((partOf s (p / 6)).getD 0) 0 255
    (detail 15 2 kind (pSrc h * 2 ^ 24 + pKind h * 2 ^ 16 + reason * 2 ^ 8 + p))

/-- Return credit for a packet's flits (21 R362). -/
def returnCredit (p vc flits : Nat) (s : State) : State :=
  if 3 ≤ vc then s else postPacket p 3 0 (0x30 * 2 ^ 248 + flits * 2 ^ (128 + 16 * vc)) [] s

/-- The rules every packet keeps: reserved bits zero, its channel, its data flits, its LEN, fields it does not use zero.  TAG
may stand in any request (log 19). -/
def packetForm (h vc : Nat) (data : List Byte) (payload : Bool) (fabric : Bool) : Bool :=
  !bitAt h 240 && fld h 95 91 == 0 && fld h 58 0 == 0 && pVc h == vc
  && pFlits h == (if payload then (pLen h + 31) / 32 else 0) && data.length == (if payload then pLen h else 0)
  && (fabric || (pSrc h == 0 && pDst h == 0 && pDomain h == 0 && pWindow h == 0 && pSendq h == 0 && pRop h == 0 && !pDet h))
  && (!fabric || (pTag h == 0 && pSendq h < 1536 && pDomain h != 0))

/-- The address that a discarded packet's record gives: none for a TIME or a CREDIT packet (24 R419). -/
def dropAddr (h : Nat) : Nat := if pKind h = 0x20 || pKind h = 0x30 then 0 else pAddr h

/-- Receive a packet of a kind: its flits return credit on its own channel; one of another kind is not this event's, one of a
reserved kind is discarded. -/
def receive (p kind vc : Nat) (h : BitVec 256) (data : List Byte) (payload fabric : Bool) (logKind : Nat)
    (act : Nat → State → State) (s : State) : State :=
  let n := h.toNat
  let known := [0x01, 0x02, 0x03, 0x04, 0x05, 0x06, 0x10, 0x11, 0x20, 0x30].contains (pKind n)
  let freed := returnCredit p (pVc n) (pFlits n + 1)
  if !known then dropPacket p n 3 0 2 (freed s)
  else if pKind n ≠ kind then s
  else
    let s := freed s
    if !packetForm n vc data payload fabric then dropPacket p n logKind (dropAddr n) 3 s else act n s

/-- Is an address a register that an access may name? -/
def registerAddr (a : Nat) : Bool := deviceBase ≤ a && a < 2 ^ 52 && a % 8 == 0

/-- RDREQ: the value goes back on the same port with the request's TAG. -/
def execRdreq (port : Nat) (hdr : BitVec 256) (data : List Byte) (s : State) : Host.Outcome State Fault Refusal :=
  .next (receive port 0x01 0 hdr data false false 3 (fun h s =>
    if pLen h ≠ 8 || !registerAddr (pAddr h) then dropPacket port h 3 (pAddr h) 3 s
    else postPacket port 0 0 (0x02 * 2 ^ 248 + pTag h * 2 ^ 192 + 8 * 2 ^ 64) (leBytes 8 (readRegister s (pAddr h)).toNat)
      (afterRead (pAddr h) s)) s)

/-- WRREQ. -/
def execWrreq (port : Nat) (hdr : BitVec 256) (data : List Byte) (s : State) : Host.Outcome State Fault Refusal :=
  .next (receive port 0x03 0 hdr data true false 3 (fun h s =>
    if pLen h ≠ 8 || !registerAddr (pAddr h) then dropPacket port h 3 (pAddr h) 3 s
    else writeRegister (pAddr h) (.ofNat 64 (ofBytes data)) s) s)

/-- The rules of a memory request at a physical address (21 R365, R379). -/
def memoryRequestOk (s : State) (a n : Nat) : Bool :=
  a % 8 == 0 && n % 8 == 0 && n != 0 && n ≤ 512 && a % 4096 + n ≤ 4096 && (s.mgmt.ready || inTier2 a)

/-- Why a memory request is discarded: 3 for an address out of its range, else 4 (24 R419). -/
def memoryReason (a : Nat) : Nat := if a < 2 ^ 52 then 4 else 3

/-- The unit that a host's memory request is made by: it reaches memory through the home slice. -/
def hostWho (a : Nat) : Who := ⟨sectorUnit (homeSector a), 0, 15⟩

/-- MRDREQ. -/
def execMrdreq (port : Nat) (hdr : BitVec 256) (data : List Byte) (s : State) : Host.Outcome State Fault Refusal :=
  .next (receive port 0x04 0 hdr data false false 3 (fun h s =>
    if 2 ^ 52 ≤ pAddr h || !memoryRequestOk s (pAddr h) (pLen h) then dropPacket port h 3 (pAddr h) (memoryReason (pAddr h)) s
    else match readPhys (hostWho (pAddr h)) (pAddr h) (pLen h) 0 s with
      | .ok bs s => postPacket port 0 0 (0x05 * 2 ^ 248 + pTag h * 2 ^ 192 + pLen h * 2 ^ 64) bs s
      | .error _ s => s) s)

/-- The slot whose status word lies at a physical address (23 R404). -/
def statusSlot (a : Nat) : Option (Nat × Nat) :=
  [0, 1, 2, 3].findSome? fun x =>
    let b := pageArea x + 0x10040
    if b ≤ a && a < b + 8 * 4096 then some (x, (a - b) / 8) else none

/-- One word that the host writes: a status word only takes 2 or 3 while its slot is posted (23 R406). -/
def hostWord (a : Nat) (bs : List Byte) (s : State) : State :=
  match statusSlot a with
  | some (x, n) => if isPosted s x n && (ofBytes bs == 2 || ofBytes bs == 3) then storeAt s (homeSector a) a bs else s
  | none => storeAt s (homeSector a) a bs

/-- The host's words in ascending order. -/
def hostWords : Nat → Nat → List Byte → State → State
  | 0, _, _, s => s
  | n + 1, a, bs, s => hostWords n (a + 8) (bs.drop 8) (hostWord a (bs.take 8) s)

/-- MWRREQ. -/
def execMwrreq (port : Nat) (hdr : BitVec 256) (data : List Byte) (s : State) : Host.Outcome State Fault Refusal :=
  .next (receive port 0x06 0 hdr data true false 3 (fun h s =>
    if 2 ^ 52 ≤ pAddr h || !memoryRequestOk s (pAddr h) (pLen h) then dropPacket port h 3 (pAddr h) (memoryReason (pAddr h)) s
    else if !backed (pAddr h) then logError s (port / 6) 0x45 (pAddr h) 0 0 0 255 (detail 15 15 1 0)
    else hostWords (pLen h / 8) (pAddr h) data s) s)

/-- The context that a fabric packet names: FABDOM and FABIDX of a valid record, not reset since it was last switched in (21 R365,
24 R430). -/
def fabricCtx (s : State) (h : Nat) : Option Nat :=
  (s.ctxs.find? fun e => (partAt s (e.1 / 64)).en && bitAt e.2.record 384 && !e.2.badrec && !e.2.retired && fld e.2.record 575 560 == pDomain h
    && fld e.2.record 447 440 == pDst h).map (·.1)

/-- Accept a remote write or reduce, or discard it. -/
def acceptRemote (p rop logKind : Nat) (data : List Byte) (h : Nat) (s : State) : State :=
  let bad := pAddr h ≥ 2 ^ 57 || pLen h < 1 || 512 < pLen h
    || (if rop = 0 then pRop h != 0 || pDet h else 6 ≤ pRop h || pLen h % ropSize (pRop h) != 0 || pAddr h % ropSize (pRop h) != 0)
  if bad then dropPacket p h logKind (pAddr h) 3 s
  else match fabricCtx s h with
    | none => dropPacket p h logKind (pAddr h) 1 s
    | some ctx => { s with received := s.received ++ [{
        core := pSendq h / 8, q := pSendq h % 8, pkg := pSrc h, ctx := ctx, va := pAddr h, bytes := data, window := pWindow h,
        rop := if rop = 0 then 0 else pRop h + 1, det := pDet h, sector := p / 6, src := p }] }

/-- RWRITE packet (21 R365). -/
def execRwritePacket (port : Nat) (hdr : BitVec 256) (data : List Byte) (s : State) : Host.Outcome State Fault Refusal :=
  .next (receive port 0x10 1 hdr data true true 1 (acceptRemote port 0 1 data) s)

/-- RREDUCE packet (21 R365). -/
def execRreducePacket (port : Nat) (hdr : BitVec 256) (data : List Byte) (s : State) : Host.Outcome State Fault Refusal :=
  .next (receive port 0x11 1 hdr data true true 2 (acceptRemote port 1 2 data) s)

/-- TIME packet: accepted on PTPCTL.PORT while EN is 1; the message acts on the protocol's state (21 R364, R378). -/
def execTimePacket (port : Nat) (hdr : BitVec 256) (data : List Byte) (s : State) : Host.Outcome State Fault Refusal :=
  .next (receive port 0x20 2 hdr data true false 3 (fun h s =>
    if pLen h < 1 || 64 < pLen h || pAddr h ≠ 0 then dropPacket port h 3 0 3 s
    else if !s.mgmt.ptpEn || s.mgmt.ptpPort.toNat ≠ port then dropPacket port h 3 0 5 s else ptpMessage data s) s)

/-- CREDIT packet (21 R362, R364). -/
def execCreditPacket (port : Nat) (hdr : BitVec 256) (s : State) : Host.Outcome State Fault Refusal :=
  .next (receive port 0x30 3 hdr [] false false 3 (fun h s =>
    let a := pAddr h
    if a / 2 ^ 48 ≠ 0 || pLen h ≠ 0 || pTag h ≠ 0 then dropPacket port h 3 0 3 s
    else modPort s port fun k => { k with
      credit0 := k.credit0 + a % 65536, credit1 := k.credit1 + a / 65536 % 65536, credit2 := k.credit2 + a / 2 ^ 32 % 65536 }) s)

end Sys2Proof.Machine
end

