-- ==== Sys2Proof/Machine/Vector.lean ====
section
/-! DEFINITION. Vector floating point, conversions, special functions and cross-lane words: majors 0x20 to 0x2A
(13 R272-R290). -/

namespace Sys2Proof.Machine

/-- A word that computes a register and flags for each thread (13 R272). -/
def issueV (i : Instr) (g : BitVec 3) (d lat : Nat) (f : State → Nat → Word × Nat) (s : State) : State :=
  issueWord i g noCheck noCheck (fun ls s =>
    let rs := ls.map fun l => (l, f s l)
    iFlags (rs.foldl (fun n r => n ||| r.2.2) 0) (putX s d lat (rs.map fun r => (r.1, r.2.1)))) s

/-- Every sub-element of a format on its own: codes packed, flags merged. -/
def packF (f : Fmt) (h : Nat → Nat × Nat) : Word × Nat :=
  (packW f.width fun k => (h k).1, (List.range (64 / f.width)).foldl (fun n k => n ||| (h k).2) 0)

/-- The format of majors 0x20 to 0x22 (13 R273). -/
def arithFmt (w : BitVec 2) : Fmt := match w.toNat with | 0 => f32 | 1 => f16 | _ => bf16
/-- The format of majors 0x24 and 0x25 (13 R275). -/
def halfFmt (w : BitVec 1) : Fmt := if w = 0 then f16 else bf16

/-- FADD, FSUB, FMUL and FFMA: each sub-element exact and rounded once (13 R274). -/
def fArith (i : Instr) (g : BitVec 3) (d a b : BitVec 6) (f : Fmt) (op mode : Nat) (s : State) : State :=
  issueV i g (rD s d) 6 (fun s l => packF f fun k =>
    arith f op mode (sub_ (getX (iLane s l) (rA s a)) f.width k) (sub_ (getX (iLane s l) (rB s b)) f.width k)
      (sub_ (getX (iLane s l) (rD s d)) f.width k)) s

/-- FMIN and FMAX (13 R276). -/
def fMinMax (i : Instr) (g : BitVec 3) (d a b : BitVec 6) (f : Fmt) (mx : Bool) (s : State) : State :=
  issueX i g (rD s d) 6 (fun s l => packW f.width fun k =>
    minMax f mx (sub_ (getX (iLane s l) (rA s a)) f.width k) (sub_ (getX (iLane s l) (rB s b)) f.width k)) s

/-- FABS, FNEG and FCLASS: one sub-element at a time (13 R276, R278). -/
def fUnary (i : Instr) (g : BitVec 3) (d a : BitVec 6) (f : Fmt) (h : Nat → Nat) (s : State) : State :=
  issueX i g (rD s d) 6 (fun s l => packW f.width fun k => h (sub_ (getX (iLane s l) (rA s a)) f.width k)) s

/-- The magnitude of a code, or the default NaN. -/
def absOf (f : Fmt) (x : Nat) : Nat := if f.decode x == .nan then f.dnan else x % 2 ^ (f.width - 1)
/-- The code with its sign inverted, or the default NaN. -/
def negOf (f : Fmt) (x : Nat) : Nat := if f.decode x == .nan then f.dnan else x ^^^ 2 ^ (f.width - 1)

/-- FCMP's conditions and NV (13 R277). -/
def fcmpHolds (e : Nat) (x y : Num) : Bool × Nat :=
  let un := x == .nan || y == .nan
  let nv := if un then flNV else 0
  match e with
  | 0 => (eqNum x y, 0)
  | 1 => (un || !eqNum x y, 0)
  | 2 => (ltNum x y, nv)
  | 3 => (!un && !ltNum x y, nv)
  | 4 => (ltNum y x, nv)
  | 5 => (!un && !ltNum y x, nv)
  | 6 => (un, 0)
  | _ => (!un, 0)

/-- FCMP: sub-element 0 of each operand (13 R277). -/
def fCompare (i : Instr) (g e p : BitVec 3) (a b : BitVec 6) (f : Fmt) (s : State) : State :=
  issueWord i g noCheck noCheck (fun ls s =>
    let rs := ls.map fun l => (l, fcmpHolds e.toNat (f.decode (sub_ (getX (iLane s l) (rA s a)) f.width 0))
      (f.decode (sub_ (getX (iLane s l) (rB s b)) f.width 0)))
    iFlags (rs.foldl (fun n r => n ||| r.2.2) 0) (putP s p.toNat 6 (rs.map fun r => (r.1, r.2.1)))) s

/-- FADD (13 R274). -/
def execFadd (c : BitVec 1) (w : BitVec 2) (g : BitVec 3) (r : BitVec 2) (d a b : BitVec 6) (s : State) : Host.Outcome State Fault Refusal :=
  .next (fArith (.fadd c w g r d a b) g d a b (arithFmt w) 0 r.toNat s)

/-- FSUB (13 R274). -/
def execFsub (c : BitVec 1) (w : BitVec 2) (g : BitVec 3) (r : BitVec 2) (d a b : BitVec 6) (s : State) : Host.Outcome State Fault Refusal :=
  .next (fArith (.fsub c w g r d a b) g d a b (arithFmt w) 1 r.toNat s)

/-- FMUL (13 R274). -/
def execFmul (c : BitVec 1) (w : BitVec 2) (g : BitVec 3) (r : BitVec 2) (d a b : BitVec 6) (s : State) : Host.Outcome State Fault Refusal :=
  .next (fArith (.fmul c w g r d a b) g d a b (arithFmt w) 2 r.toNat s)

/-- FFMA (13 R274). -/
def execFfma (c : BitVec 1) (w : BitVec 2) (g : BitVec 3) (r : BitVec 2) (d a b : BitVec 6) (s : State) : Host.Outcome State Fault Refusal :=
  .next (fArith (.ffma c w g r d a b) g d a b (arithFmt w) 3 r.toNat s)

/-- FMIN.f32 (13 R276). -/
def execFminS (c : BitVec 1) (g : BitVec 3) (d a b : BitVec 6) (s : State) : Host.Outcome State Fault Refusal :=
  .next (fMinMax (.fminS c g d a b) g d a b f32 false s)

/-- FMIN.f16 and .bf16 (13 R276). -/
def execFminH (c w : BitVec 1) (g : BitVec 3) (d a b : BitVec 6) (s : State) : Host.Outcome State Fault Refusal :=
  .next (fMinMax (.fminH c w g d a b) g d a b (halfFmt w) false s)

/-- FMAX.f32 (13 R276). -/
def execFmaxS (c : BitVec 1) (g : BitVec 3) (d a b : BitVec 6) (s : State) : Host.Outcome State Fault Refusal :=
  .next (fMinMax (.fmaxS c g d a b) g d a b f32 true s)

/-- FMAX.f16 and .bf16 (13 R276). -/
def execFmaxH (c w : BitVec 1) (g : BitVec 3) (d a b : BitVec 6) (s : State) : Host.Outcome State Fault Refusal :=
  .next (fMinMax (.fmaxH c w g d a b) g d a b (halfFmt w) true s)

/-- FABS.f32 (13 R276). -/
def execFabsS (c : BitVec 1) (g : BitVec 3) (d a : BitVec 6) (s : State) : Host.Outcome State Fault Refusal :=
  .next (fUnary (.fabsS c g d a) g d a f32 (absOf f32) s)

/-- FABS.f16 and .bf16 (13 R276). -/
def execFabsH (c w : BitVec 1) (g : BitVec 3) (d a : BitVec 6) (s : State) : Host.Outcome State Fault Refusal :=
  .next (fUnary (.fabsH c w g d a) g d a (halfFmt w) (absOf (halfFmt w)) s)

/-- FNEG.f32 (13 R276). -/
def execFnegS (c : BitVec 1) (g : BitVec 3) (d a : BitVec 6) (s : State) : Host.Outcome State Fault Refusal :=
  .next (fUnary (.fnegS c g d a) g d a f32 (negOf f32) s)

/-- FNEG.f16 and .bf16 (13 R276). -/
def execFnegH (c w : BitVec 1) (g : BitVec 3) (d a : BitVec 6) (s : State) : Host.Outcome State Fault Refusal :=
  .next (fUnary (.fnegH c w g d a) g d a (halfFmt w) (negOf (halfFmt w)) s)

/-- FCLASS.f32 (13 R278). -/
def execFclassS (c : BitVec 1) (g : BitVec 3) (d a : BitVec 6) (s : State) : Host.Outcome State Fault Refusal :=
  .next (fUnary (.fclassS c g d a) g d a f32 (classOf f32) s)

/-- FCLASS.f16 and .bf16 (13 R278). -/
def execFclassH (c w : BitVec 1) (g : BitVec 3) (d a : BitVec 6) (s : State) : Host.Outcome State Fault Refusal :=
  .next (fUnary (.fclassH c w g d a) g d a (halfFmt w) (classOf (halfFmt w)) s)

/-- FCMP.f32 (13 R277). -/
def execFcmpS (c : BitVec 1) (g e p : BitVec 3) (a b : BitVec 6) (s : State) : Host.Outcome State Fault Refusal :=
  .next (fCompare (.fcmpS c g e p a b) g e p a b f32 s)

/-- FCMP.f16 and .bf16 (13 R277). -/
def execFcmpH (c w : BitVec 1) (g e p : BitVec 3) (a b : BitVec 6) (s : State) : Host.Outcome State Fault Refusal :=
  .next (fCompare (.fcmpH c w g e p a b) g e p a b (halfFmt w) s)

/-! ### Conversions (13 R279-R281) -/

/-- Convert field by field, ascending, stepping SEED once per field under SR: the register, the flags, the seed. -/
def convFields (sr : Bool) (ws wd : Nat) (h : Nat → Nat → Nat × Nat) (x : Word) (seed : Word) : Word × Nat × Word :=
  let w := max ws wd
  let r := (List.range (64 / w)).foldl (fun (acc : Nat × Nat × Word) k =>
    let seed := if sr then stepSeed acc.2.2 else acc.2.2
    let v := x.toNat / 2 ^ (w * k) % 2 ^ ws
    let (c, f) := h (seed.toNat / 2 ^ 32) v
    (acc.1 + c % 2 ^ wd * 2 ^ (w * k), acc.2.1 ||| f, seed)) (0, 0, seed)
  (.ofNat 64 r.1, r.2)

/-- A conversion word: SR reads and steps the thread's SEED in slot order (10 R217). -/
def issueConv (i : Instr) (g : BitVec 3) (d a : BitVec 6) (mode ws wd : Nat) (h : Nat → Nat → Nat × Nat) (s : State) : State :=
  issueWord i g noCheck noCheck (fun ls s =>
    let rs := ls.map fun l =>
      (l, convFields (mode == 4) ws wd h (getX (iLane s l) (rA s a)) (laneOf (iWarp s) l).seed)
    let s := rs.foldl (fun s r => iModLane s r.1 fun x => { x with seed := r.2.2.2 }) s
    iFlags (rs.foldl (fun n r => n ||| r.2.2.1) 0) (putX s (rD s d) 6 (rs.map fun r => (r.1, r.2.1)))) s

/-- FCVT: `e` the destination format, `t` .sat, `f` the source format (13 R280). -/
def execFcvt (c : BitVec 1) (g e : BitVec 3) (t : BitVec 1) (d a : BitVec 6) (f r : BitVec 3) (s : State) : Host.Outcome State Fault Refusal :=
  .next (issueConv (.fcvt c g e t d a f r) g d a r.toNat (fltFmt f.toNat).width (fltFmt e.toNat).width
    (fun n v => (fltFmt e.toNat).round r.toNat (t == 1) n ((fltFmt f.toNat).decode v)) s)

/-- ICVT (13 R281). -/
def execIcvt (c : BitVec 1) (g f : BitVec 3) (d a : BitVec 6) (i r : BitVec 3) (s : State) : Host.Outcome State Fault Refusal :=
  .next (issueConv (.icvt c g f d a i r) g d a r.toNat (fltFmt f.toNat).width (intFmt i.toNat).1
    (fun n v => roundInt (intFmt i.toNat).1 (intFmt i.toNat).2 r.toNat n ((fltFmt f.toNat).decode v)) s)

/-- The number an integer code holds. -/
def intNum (w : Nat) (sgn : Bool) (v : Nat) : Num :=
  let x : Int := if sgn then signed w v else v
  .fin (decide (x < 0)) x.natAbs 0

/-- FCVTI (13 R281). -/
def execFcvti (c : BitVec 1) (g f : BitVec 3) (d a : BitVec 6) (i r : BitVec 3) (s : State) : Host.Outcome State Fault Refusal :=
  .next (issueConv (.fcvti c g f d a i r) g d a r.toNat (intFmt i.toNat).1 (fltFmt f.toNat).width
    (fun n v => (fltFmt f.toNat).round r.toNat false n (intNum (intFmt i.toNat).1 (intFmt i.toNat).2 v)) s)

/-! ### PACK and UNPK (13 R282, R283) -/

/-- One narrowed sub-element: truncated, or saturated from its signed or unsigned reading. -/
def narrow (sat sgn : Bool) (w v : Nat) : Nat :=
  if !sat then v % 2 ^ w
  else if sgn then
    truncI (max (-(2 ^ (w - 1) : Nat) : Int) (min ((2 ^ (w - 1) : Nat) - 1) (signed (2 * w) v))) w
  else min v (2 ^ w - 1)

/-- PACK: `x` SIGNED, `t` SAT (13 R283). -/
def execPack (c : BitVec 1) (g : BitVec 3) (d a : BitVec 6) (x t : BitVec 1) (w : BitVec 2) (s : State) : Host.Outcome State Fault Refusal :=
  .next (issueX (.pack c g d a x t w) g (rD s d) 6 (fun s l =>
    let k := 32 / 2 ^ w.toNat
    let n := 32 / k
    packW k fun j =>
      let src := getX (iLane s l) (if j < n then rA s a else rA s a + 1)
      narrow (t == 1) (x == 1) k (sub_ src (2 * k) (j % n))) s)

/-- UNPK: `x` SIGNED, `h` HI (13 R283). -/
def execUnpk (c : BitVec 1) (g : BitVec 3) (d a : BitVec 6) (x h : BitVec 1) (w : BitVec 2) (s : State) : Host.Outcome State Fault Refusal :=
  .next (issueX (.unpk c g d a x h w) g (rD s d) 6 (fun s l =>
    let k := 32 / 2 ^ w.toNat
    packW (2 * k) fun j =>
      let v := sub_ (getX (iLane s l) (rA s a)) k (h.toNat * (32 / k) + j)
      if x == 1 then truncI (signed k v) (2 * k) else v) s)

/-! ### Special functions (13 R284, 06 R123) -/

/-- Both FP32 sub-elements. -/
def fSpecial (i : Instr) (g : BitVec 3) (d a : BitVec 6) (fn : Nat) (s : State) : State :=
  issueV i g (rD s d) 32 (fun s l => packF f32 fun k => special fn (sub_ (getX (iLane s l) (rA s a)) 32 k)) s

/-- FRCP (13 R284). -/
def execFrcp (c : BitVec 1) (g : BitVec 3) (d a : BitVec 6) (s : State) : Host.Outcome State Fault Refusal :=
  .next (fSpecial (.frcp c g d a) g d a 0 s)

/-- FRSQ (13 R284). -/
def execFrsq (c : BitVec 1) (g : BitVec 3) (d a : BitVec 6) (s : State) : Host.Outcome State Fault Refusal :=
  .next (fSpecial (.frsq c g d a) g d a 1 s)

/-- FSQRT (13 R284). -/
def execFsqrt (c : BitVec 1) (g : BitVec 3) (d a : BitVec 6) (s : State) : Host.Outcome State Fault Refusal :=
  .next (fSpecial (.fsqrt c g d a) g d a 2 s)

/-- FEXP2 (13 R284). -/
def execFexp2 (c : BitVec 1) (g : BitVec 3) (d a : BitVec 6) (s : State) : Host.Outcome State Fault Refusal :=
  .next (fSpecial (.fexp2 c g d a) g d a 3 s)

/-- FLOG2 (13 R284). -/
def execFlog2 (c : BitVec 1) (g : BitVec 3) (d a : BitVec 6) (s : State) : Host.Outcome State Fault Refusal :=
  .next (fSpecial (.flog2 c g d a) g d a 4 s)

/-- FSIN (13 R284). -/
def execFsin (c : BitVec 1) (g : BitVec 3) (d a : BitVec 6) (s : State) : Host.Outcome State Fault Refusal :=
  .next (fSpecial (.fsin c g d a) g d a 5 s)

/-- FCOS (13 R284). -/
def execFcos (c : BitVec 1) (g : BitVec 3) (d a : BitVec 6) (s : State) : Host.Outcome State Fault Refusal :=
  .next (fSpecial (.fcos c g d a) g d a 6 s)

/-! ### Cross-lane (13 R286-R289) -/

/-- X(L,A) of any lane of the warp, as it stands at issue. -/
def crossX (s : State) (lane : Nat) (a : BitVec 6) : Word := getX (iLane s lane) (rA s a)

/-- One field of PERM's result (13 R287). -/
def permField (s : State) (a : BitVec 6) (ctl : Nat) : Nat :=
  let v := crossX s (fld ctl 8 4) a
  let k := fld ctl 3 0
  match fld ctl 10 9 with
  | 0 => sub_ v 16 (k % 4)
  | 1 => sub_ v 8 (k % 8)
  | 2 => sub_ v 4 k
  | _ => 0

/-- PERM (13 R287). -/
def execPerm (c : BitVec 1) (g : BitVec 3) (d a b : BitVec 6) (s : State) : Host.Outcome State Fault Refusal :=
  .next (issueX (.perm c g d a b) g (rD s d) 8 (fun s l =>
    packW 16 fun j => permField s a (sub_ (getX (iLane s l) (rB s b)) 16 j)) s)

/-- SHFL (13 R288). -/
def execShfl (c : BitVec 1) (g : BitVec 3) (d a b : BitVec 6) (s : State) : Host.Outcome State Fault Refusal :=
  .next (issueX (.shfl c g d a b) g (rD s d) 8 (fun s l => crossX s (fld (getX (iLane s l) (rB s b)).toNat 8 4) a) s)

/-- LBCAST (13 R289). -/
def execLbcast (c : BitVec 1) (g : BitVec 3) (d a : BitVec 6) (l : BitVec 5) (s : State) : Host.Outcome State Fault Refusal :=
  .next (issueX (.lbcast c g d a l) g (rD s d) 8 (fun s _ => crossX s l.toNat a) s)

end Sys2Proof.Machine
end

