-- ==== Sys2Proof/Machine/Dispatch.lean ====
section
/-! DEFINITION. One arm per constructor of Instr. -/

namespace Sys2Proof.Machine

def exec (i : Instr) (s : State) : Host.Outcome State Fault Refusal :=
  match i with
  | .add c w g d a b => Sys2Proof.Machine.execAdd c w g d a b s
  | .sub c w g d a b => Sys2Proof.Machine.execSub c w g d a b s
  | .minS c w g d a b => Sys2Proof.Machine.execMinS c w g d a b s
  | .minZ c w g d a b => Sys2Proof.Machine.execMinZ c w g d a b s
  | .maxS c w g d a b => Sys2Proof.Machine.execMaxS c w g d a b s
  | .maxZ c w g d a b => Sys2Proof.Machine.execMaxZ c w g d a b s
  | .abs c w g d a => Sys2Proof.Machine.execAbs c w g d a s
  | .and c w g d a b => Sys2Proof.Machine.execAnd c w g d a b s
  | .or c w g d a b => Sys2Proof.Machine.execOr c w g d a b s
  | .xor c w g d a b => Sys2Proof.Machine.execXor c w g d a b s
  | .andn c w g d a b => Sys2Proof.Machine.execAndn c w g d a b s
  | .shl c w g d a b => Sys2Proof.Machine.execShl c w g d a b s
  | .shr c w g d a b => Sys2Proof.Machine.execShr c w g d a b s
  | .sra c w g d a b => Sys2Proof.Machine.execSra c w g d a b s
  | .rot c w g d a b => Sys2Proof.Machine.execRot c w g d a b s
  | .mul c w g d a b => Sys2Proof.Machine.execMul c w g d a b s
  | .mulhS c w g d a b => Sys2Proof.Machine.execMulhS c w g d a b s
  | .mulhZ c w g d a b => Sys2Proof.Machine.execMulhZ c w g d a b s
  | .mad c w g d a b => Sys2Proof.Machine.execMad c w g d a b s
  | .divS c w g d a b => Sys2Proof.Machine.execDivS c w g d a b s
  | .divZ c w g d a b => Sys2Proof.Machine.execDivZ c w g d a b s
  | .remS c w g d a b => Sys2Proof.Machine.execRemS c w g d a b s
  | .remZ c w g d a b => Sys2Proof.Machine.execRemZ c w g d a b s
  | .clz c w g d a => Sys2Proof.Machine.execClz c w g d a s
  | .popc c w g d a => Sys2Proof.Machine.execPopc c w g d a s
  | .brev c w g d a => Sys2Proof.Machine.execBrev c w g d a s
  | .bfx c w g d a b => Sys2Proof.Machine.execBfx c w g d a b s
  | .bfi c w g d a b => Sys2Proof.Machine.execBfi c w g d a b s
  | .addi c g h d a v5 => Sys2Proof.Machine.execAddi c g h d a v5 s
  | .andi c g h d a v5 => Sys2Proof.Machine.execAndi c g h d a v5 s
  | .ori c g h d a v5 => Sys2Proof.Machine.execOri c g h d a v5 s
  | .xori c g h d a v5 => Sys2Proof.Machine.execXori c g h d a v5 s
  | .shli c g d a v4 => Sys2Proof.Machine.execShli c g d a v4 s
  | .shri c g d a v4 => Sys2Proof.Machine.execShri c g d a v4 s
  | .srai c g d a v4 => Sys2Proof.Machine.execSrai c g d a v4 s
  | .movi c g h d j v5 => Sys2Proof.Machine.execMovi c g h d j v5 s
  | .cmpi c g h e p a v6 => Sys2Proof.Machine.execCmpi c g h e p a v6 s
  | .cmp c g w e p a b => Sys2Proof.Machine.execCmp c g w e p a b s
  | .pand c g p q r => Sys2Proof.Machine.execPand c g p q r s
  | .por c g p q r => Sys2Proof.Machine.execPor c g p q r s
  | .pxor c g p q r => Sys2Proof.Machine.execPxor c g p q r s
  | .pnot c g p q => Sys2Proof.Machine.execPnot c g p q s
  | .sel c g d a b => Sys2Proof.Machine.execSel c g d a b s
  | .mov c g d a => Sys2Proof.Machine.execMov c g d a s
  | .lea c g d a b => Sys2Proof.Machine.execLea c g d a b s
  | .ixget c g d a => Sys2Proof.Machine.execIxget c g d a s
  | .ixput c g a b => Sys2Proof.Machine.execIxput c g a b s
  | .gets c g d a => Sys2Proof.Machine.execGets c g d a s
  | .puts c g b => Sys2Proof.Machine.execPuts c g b s
  | .bra c g o => Sys2Proof.Machine.execBra c g o s
  | .call c g o => Sys2Proof.Machine.execCall c g o s
  | .brx c g a => Sys2Proof.Machine.execBrx c g a s
  | .ret c g a => Sys2Proof.Machine.execRet c g a s
  | .exit c g => Sys2Proof.Machine.execExit c g s
  | .nop c g => Sys2Proof.Machine.execNop c g s
  | .yield c g => Sys2Proof.Machine.execYield c g s
  | .mjoin c g a => Sys2Proof.Machine.execMjoin c g a s
  | .mleave c g a => Sys2Proof.Machine.execMleave c g a s
  | .mwait c g a => Sys2Proof.Machine.execMwait c g a s
  | .mset c g d a => Sys2Proof.Machine.execMset c g d a s
  | .mget c g d a => Sys2Proof.Machine.execMget c g d a s
  | .voteBallot c g d a => Sys2Proof.Machine.execVoteBallot c g d a s
  | .voteAll c g d a => Sys2Proof.Machine.execVoteAll c g d a s
  | .voteAny c g d a => Sys2Proof.Machine.execVoteAny c g d a s
  | .voteUni c g d a => Sys2Proof.Machine.execVoteUni c g d a s
  | .ldg c g v2 o d a k => Sys2Proof.Machine.execLdg c g v2 o d a k s
  | .stg c g v2 o d a k => Sys2Proof.Machine.execStg c g v2 o d a k s
  | .lds c g v2 o d a k => Sys2Proof.Machine.execLds c g v2 o d a k s
  | .sts c g v2 o d a k => Sys2Proof.Machine.execSts c g v2 o d a k s
  | .atomAdd c g v2 o d a e p => Sys2Proof.Machine.execAtomAdd c g v2 o d a e p s
  | .atomMinS c g v2 o d a e p => Sys2Proof.Machine.execAtomMinS c g v2 o d a e p s
  | .atomMaxS c g v2 o d a e p => Sys2Proof.Machine.execAtomMaxS c g v2 o d a e p s
  | .atomAnd c g v2 o d a e p => Sys2Proof.Machine.execAtomAnd c g v2 o d a e p s
  | .atomOr c g v2 o d a e p => Sys2Proof.Machine.execAtomOr c g v2 o d a e p s
  | .atomXor c g v2 o d a e p => Sys2Proof.Machine.execAtomXor c g v2 o d a e p s
  | .atomExch c g v2 o d a e p => Sys2Proof.Machine.execAtomExch c g v2 o d a e p s
  | .atomInc c g v2 o d a e p => Sys2Proof.Machine.execAtomInc c g v2 o d a e p s
  | .atomfAdd c g v2 o d a e p => Sys2Proof.Machine.execAtomfAdd c g v2 o d a e p s
  | .cas c g v2 o d a p => Sys2Proof.Machine.execCas c g v2 o d a p s
  | .nibins c g o d a n p => Sys2Proof.Machine.execNibins c g o d a n p s
  | .redAdd c g v2 o d a e p => Sys2Proof.Machine.execRedAdd c g v2 o d a e p s
  | .redMinS c g v2 o d a e p => Sys2Proof.Machine.execRedMinS c g v2 o d a e p s
  | .redMaxS c g v2 o d a e p => Sys2Proof.Machine.execRedMaxS c g v2 o d a e p s
  | .redAnd c g v2 o d a e p => Sys2Proof.Machine.execRedAnd c g v2 o d a e p s
  | .redOr c g v2 o d a e p => Sys2Proof.Machine.execRedOr c g v2 o d a e p s
  | .redXor c g v2 o d a e p => Sys2Proof.Machine.execRedXor c g v2 o d a e p s
  | .redFadd c g v2 o d a e p => Sys2Proof.Machine.execRedFadd c g v2 o d a e p s
  | .redInc c g v2 o d a e p => Sys2Proof.Machine.execRedInc c g v2 o d a e p s
  | .waitv c g v2 o d a e => Sys2Proof.Machine.execWaitv c g v2 o d a e s
  | .fence c g o => Sys2Proof.Machine.execFence c g o s
  | .fenceEng c g => Sys2Proof.Machine.execFenceEng c g s
  | .barArrive c g d n => Sys2Proof.Machine.execBarArrive c g d n s
  | .barSync c g d n => Sys2Proof.Machine.execBarSync c g d n s
  | .barWait c g d n => Sys2Proof.Machine.execBarWait c g d n s
  | .barSyncEng c g d n => Sys2Proof.Machine.execBarSyncEng c g d n s
  | .barWaitEng c g d n => Sys2Proof.Machine.execBarWaitEng c g d n s
  | .cbinit c g v2 a b => Sys2Proof.Machine.execCbinit c g v2 a b s
  | .cbwait c g d a => Sys2Proof.Machine.execCbwait c g d a s
  | .cbtest c g p a => Sys2Proof.Machine.execCbtest c g p a s
  | .cbadd c g a b => Sys2Proof.Machine.execCbadd c g a b s
  | .pref c g a b => Sys2Proof.Machine.execPref c g a b s
  | .flushl c g a b => Sys2Proof.Machine.execFlushl c g a b s
  | .fadd c w g r d a b => Sys2Proof.Machine.execFadd c w g r d a b s
  | .fsub c w g r d a b => Sys2Proof.Machine.execFsub c w g r d a b s
  | .fmul c w g r d a b => Sys2Proof.Machine.execFmul c w g r d a b s
  | .ffma c w g r d a b => Sys2Proof.Machine.execFfma c w g r d a b s
  | .fminS c g d a b => Sys2Proof.Machine.execFminS c g d a b s
  | .fminH c w g d a b => Sys2Proof.Machine.execFminH c w g d a b s
  | .fmaxS c g d a b => Sys2Proof.Machine.execFmaxS c g d a b s
  | .fmaxH c w g d a b => Sys2Proof.Machine.execFmaxH c w g d a b s
  | .fabsS c g d a => Sys2Proof.Machine.execFabsS c g d a s
  | .fabsH c w g d a => Sys2Proof.Machine.execFabsH c w g d a s
  | .fnegS c g d a => Sys2Proof.Machine.execFnegS c g d a s
  | .fnegH c w g d a => Sys2Proof.Machine.execFnegH c w g d a s
  | .fcmpS c g e p a b => Sys2Proof.Machine.execFcmpS c g e p a b s
  | .fcmpH c w g e p a b => Sys2Proof.Machine.execFcmpH c w g e p a b s
  | .fclassS c g d a => Sys2Proof.Machine.execFclassS c g d a s
  | .fclassH c w g d a => Sys2Proof.Machine.execFclassH c w g d a s
  | .fcvt c g e t d a f r => Sys2Proof.Machine.execFcvt c g e t d a f r s
  | .icvt c g f d a v5 r => Sys2Proof.Machine.execIcvt c g f d a v5 r s
  | .fcvti c g f d a v5 r => Sys2Proof.Machine.execFcvti c g f d a v5 r s
  | .pack c g d a x t w => Sys2Proof.Machine.execPack c g d a x t w s
  | .unpk c g d a x h w => Sys2Proof.Machine.execUnpk c g d a x h w s
  | .frcp c g d a => Sys2Proof.Machine.execFrcp c g d a s
  | .frsq c g d a => Sys2Proof.Machine.execFrsq c g d a s
  | .fsqrt c g d a => Sys2Proof.Machine.execFsqrt c g d a s
  | .fexp2 c g d a => Sys2Proof.Machine.execFexp2 c g d a s
  | .flog2 c g d a => Sys2Proof.Machine.execFlog2 c g d a s
  | .fsin c g d a => Sys2Proof.Machine.execFsin c g d a s
  | .fcos c g d a => Sys2Proof.Machine.execFcos c g d a s
  | .perm c g d a b => Sys2Proof.Machine.execPerm c g d a b s
  | .shfl c g d a b => Sys2Proof.Machine.execShfl c g d a b s
  | .lbcast c g d a l => Sys2Proof.Machine.execLbcast c g d a l s
  | .tidset c g a b => Sys2Proof.Machine.execTidset c g a b s
  | .tidget c g d a => Sys2Proof.Machine.execTidget c g d a s
  | .wload c g a => Sys2Proof.Machine.execWload c g a s
  | .wloadsp c g a => Sys2Proof.Machine.execWloadsp c g a s
  | .wswap c g => Sys2Proof.Machine.execWswap c g s
  | .mstream c g a => Sys2Proof.Machine.execMstream c g a s
  | .mdrain c g a => Sys2Proof.Machine.execMdrain c g a s
  | .episet c g k a => Sys2Proof.Machine.execEpiset c g k a s
  | .accz c g t => Sys2Proof.Machine.execAccz c g t s
  | .accrd c g d a t => Sys2Proof.Machine.execAccrd c g d a t s
  | .accwr c g d a t => Sys2Proof.Machine.execAccwr c g d a t s
  | .spcmp c g d a f => Sys2Proof.Machine.execSpcmp c g d a f s
  | .kick c g n a t => Sys2Proof.Machine.execKick c g n a t s
  | .qstat c g d n => Sys2Proof.Machine.execQstat c g d n s
  | .evset c g n => Sys2Proof.Machine.execEvset c g n s
  | .evclr c g n => Sys2Proof.Machine.execEvclr c g n s
  | .fetch c g d a b => Sys2Proof.Machine.execFetch c g d a b s
  | .eref c g d a p => Sys2Proof.Machine.execEref c g d a p s
  | .ecol c g d a b => Sys2Proof.Machine.execEcol c g d a b s
  | .espan c g d a b => Sys2Proof.Machine.execEspan c g d a b s
  | .enew c g d a b => Sys2Proof.Machine.execEnew c g d a b s
  | .edel c g a => Sys2Proof.Machine.execEdel c g a s
  | .eadd c g d a b => Sys2Proof.Machine.execEadd c g d a b s
  | .erem c g a b => Sys2Proof.Machine.execErem c g a b s
  | .vopen c g d a => Sys2Proof.Machine.execVopen c g d a s
  | .vclose c g a => Sys2Proof.Machine.execVclose c g a s
  | .beamq c g a => Sys2Proof.Machine.execBeamq c g a s
  | .rayq c g a => Sys2Proof.Machine.execRayq c g a s
  | .spawn c g a => Sys2Proof.Machine.execSpawn c g a s
  | .join c g v2 a => Sys2Proof.Machine.execJoin c g v2 a s
  | .tdone c g => Sys2Proof.Machine.execTdone c g s
  | .lqpub c g a b => Sys2Proof.Machine.execLqpub c g a b s
  | .trap c g v2 => Sys2Proof.Machine.execTrap c g v2 s
  | .bkpt c g v2 => Sys2Proof.Machine.execBkpt c g v2 s
  | .resumeReplay c g a => Sys2Proof.Machine.execResumeReplay c g a s
  | .resumeSkip c g a => Sys2Proof.Machine.execResumeSkip c g a s
  | .resumeEnd c g a => Sys2Proof.Machine.execResumeEnd c g a s
  | .extWord v0 => Sys2Proof.Machine.execExtWord v0 s
  | .repWord d a b n => Sys2Proof.Machine.execRepWord d a b n s
  | .powerOn => Sys2Proof.Machine.execPowerOn s
  | .powerOff => Sys2Proof.Machine.execPowerOff s
  | .pglimWrite sector v => Sys2Proof.Machine.execPglimWrite sector v s
  | .leaveRequest core unit_ => Sys2Proof.Machine.execLeaveRequest core unit_ s
  | .leaveGrant sector => Sys2Proof.Machine.execLeaveGrant sector s
  | .pcTableResort core slot => Sys2Proof.Machine.execPcTableResort core slot s
  | .threadWake core slot lane => Sys2Proof.Machine.execThreadWake core slot lane s
  | .warpLoadComplete core slot => Sys2Proof.Machine.execWarpLoadComplete core slot s
  | .warpDrainComplete core slot => Sys2Proof.Machine.execWarpDrainComplete core slot s
  | .warpSaveComplete core slot => Sys2Proof.Machine.execWarpSaveComplete core slot s
  | .warpExitComplete core slot => Sys2Proof.Machine.execWarpExitComplete core slot s
  | .instructionBoundarySave ctx => Sys2Proof.Machine.execInstructionBoundarySave ctx s
  | .reconvergencePreemption ctx => Sys2Proof.Machine.execReconvergencePreemption ctx s
  | .reconvergenceTimeout ctx => Sys2Proof.Machine.execReconvergenceTimeout ctx s
  | .warpRestore ctx idx core slot => Sys2Proof.Machine.execWarpRestore ctx idx core slot s
  | .publicationArrival ctx q => Sys2Proof.Machine.execPublicationArrival ctx q s
  | .lqtailWrite ctx q v => Sys2Proof.Machine.execLqtailWrite ctx q v s
  | .lqctlErrClear ctx q => Sys2Proof.Machine.execLqctlErrClear ctx q s
  | .lqctlReset ctx q => Sys2Proof.Machine.execLqctlReset ctx q s
  | .lqctlEnable ctx q en => Sys2Proof.Machine.execLqctlEnable ctx q en s
  | .queueNop ctx q => Sys2Proof.Machine.execQueueNop ctx q s
  | .queueLaunch ctx q => Sys2Proof.Machine.execQueueLaunch ctx q s
  | .queueWsync ctx q => Sys2Proof.Machine.execQueueWsync ctx q s
  | .queueFence ctx q => Sys2Proof.Machine.execQueueFence ctx q s
  | .workgroupPlacement ctx launch => Sys2Proof.Machine.execWorkgroupPlacement ctx launch s
  | .gridEnd ctx launch => Sys2Proof.Machine.execGridEnd ctx launch s
  | .taskDispatch core => Sys2Proof.Machine.execTaskDispatch core s
  | .deckRefill core => Sys2Proof.Machine.execDeckRefill core s
  | .stealRequest core => Sys2Proof.Machine.execStealRequest core s
  | .stealRoundBackoff core => Sys2Proof.Machine.execStealRoundBackoff core s
  | .stealServe core => Sys2Proof.Machine.execStealServe core s
  | .stealFrameArrival core => Sys2Proof.Machine.execStealFrameArrival core s
  | .stealAck core => Sys2Proof.Machine.execStealAck core s
  | .stealNack core => Sys2Proof.Machine.execStealNack core s
  | .storeDrain core slot lane idx => Sys2Proof.Machine.execStoreDrain core slot lane idx s
  | .loadPerform core slot lane idx => Sys2Proof.Machine.execLoadPerform core slot lane idx s
  | .atomicPerform core slot lane idx => Sys2Proof.Machine.execAtomicPerform core slot lane idx s
  | .causalDelivery src dst => Sys2Proof.Machine.execCausalDelivery src dst s
  | .fenceComplete core slot lane => Sys2Proof.Machine.execFenceComplete core slot lane s
  | .pageRequestRetry sector n => Sys2Proof.Machine.execPageRequestRetry sector n s
  | .pageRequestFail sector n => Sys2Proof.Machine.execPageRequestFail sector n s
  | .generationRejectReplay core slot lane => Sys2Proof.Machine.execGenerationRejectReplay core slot lane s
  | .asgenBump ctx => Sys2Proof.Machine.execAsgenBump ctx s
  | .asgenBumpComplete ctx => Sys2Proof.Machine.execAsgenBumpComplete ctx s
  | .rwinctlWrite sector window v => Sys2Proof.Machine.execRwinctlWrite sector window v s
  | .hbmrtctlWrite stack v => Sys2Proof.Machine.execHbmrtctlWrite stack v s
  | .hbmRetrain stack => Sys2Proof.Machine.execHbmRetrain stack s
  | .remoteWriteApply idx => Sys2Proof.Machine.execRemoteWriteApply idx s
  | .numctlWrite ctx v => Sys2Proof.Machine.execNumctlWrite ctx v s
  | .numdropClear ctx v => Sys2Proof.Machine.execNumdropClear ctx v s
  | .syncPoint ctx q => Sys2Proof.Machine.execSyncPoint ctx q s
  | .syncPointResume ctx q => Sys2Proof.Machine.execSyncPointResume ctx q s
  | .beamQueryStart core => Sys2Proof.Machine.execBeamQueryStart core s
  | .weightLoadStart core idx => Sys2Proof.Machine.execWeightLoadStart core idx s
  | .swapStart core idx => Sys2Proof.Machine.execSwapStart core idx s
  | .streamStart core idx => Sys2Proof.Machine.execStreamStart core idx s
  | .drainStart core idx => Sys2Proof.Machine.execDrainStart core idx s
  | .episetStart core idx => Sys2Proof.Machine.execEpisetStart core idx s
  | .matrixCommandComplete core idx => Sys2Proof.Machine.execMatrixCommandComplete core idx s
  | .tidsetComplete core => Sys2Proof.Machine.execTidsetComplete core s
  | .flushlComplete core => Sys2Proof.Machine.execFlushlComplete core s
  | .chainCopy core q => Sys2Proof.Machine.execChainCopy core q s
  | .chainStrided core q => Sys2Proof.Machine.execChainStrided core q s
  | .chainGather core q => Sys2Proof.Machine.execChainGather core q s
  | .chainScatter core q => Sys2Proof.Machine.execChainScatter core q s
  | .chainNmgather core q => Sys2Proof.Machine.execChainNmgather core q s
  | .chainMaskrow core q => Sys2Proof.Machine.execChainMaskrow core q s
  | .chainInstar core q => Sys2Proof.Machine.execChainInstar core q s
  | .rwrite core q => Sys2Proof.Machine.execRwrite core q s
  | .rreduce core q => Sys2Proof.Machine.execRreduce core q s
  | .chainLoop core q => Sys2Proof.Machine.execChainLoop core q s
  | .chainCond core q => Sys2Proof.Machine.execChainCond core q s
  | .condPoll core q => Sys2Proof.Machine.execCondPoll core q s
  | .chainQfence core q => Sys2Proof.Machine.execChainQfence core q s
  | .chainFollow core q => Sys2Proof.Machine.execChainFollow core q s
  | .chainSignal core q => Sys2Proof.Machine.execChainSignal core q s
  | .chainEntryComplete core q => Sys2Proof.Machine.execChainEntryComplete core q s
  | .chainAccessFailed core q => Sys2Proof.Machine.execChainAccessFailed core q s
  | .partctlEnable p v => Sys2Proof.Machine.execPartctlEnable p v s
  | .partitionResize p v => Sys2Proof.Machine.execPartitionResize p v s
  | .partitionResizeComplete p => Sys2Proof.Machine.execPartitionResizeComplete p s
  | .partctlDisable p v => Sys2Proof.Machine.execPartctlDisable p v s
  | .ctxctlSave ctx => Sys2Proof.Machine.execCtxctlSave ctx s
  | .ctxctlRun ctx => Sys2Proof.Machine.execCtxctlRun ctx s
  | .ctxctlReset ctx => Sys2Proof.Machine.execCtxctlReset ctx s
  | .ctxctlRetrap ctx => Sys2Proof.Machine.execCtxctlRetrap ctx s
  | .sliceEnd ctx => Sys2Proof.Machine.execSliceEnd ctx s
  | .clusterReclaim ctx cluster => Sys2Proof.Machine.execClusterReclaim ctx cluster s
  | .reclaimTimeout ctx cluster => Sys2Proof.Machine.execReclaimTimeout ctx cluster s
  | .blockReceive port good hdr => Sys2Proof.Machine.execBlockReceive port good hdr s
  | .blockResend port => Sys2Proof.Machine.execBlockResend port s
  | .linkDown port => Sys2Proof.Machine.execLinkDown port s
  | .linkRetrainComplete port => Sys2Proof.Machine.execLinkRetrainComplete port s
  | .rdreq port hdr data => Sys2Proof.Machine.execRdreq port hdr data s
  | .wrreq port hdr data => Sys2Proof.Machine.execWrreq port hdr data s
  | .mrdreq port hdr data => Sys2Proof.Machine.execMrdreq port hdr data s
  | .mwrreq port hdr data => Sys2Proof.Machine.execMwrreq port hdr data s
  | .rwritePacket port hdr data => Sys2Proof.Machine.execRwritePacket port hdr data s
  | .rreducePacket port hdr data => Sys2Proof.Machine.execRreducePacket port hdr data s
  | .timePacket port hdr data => Sys2Proof.Machine.execTimePacket port hdr data s
  | .creditPacket port hdr => Sys2Proof.Machine.execCreditPacket port hdr s
  | .headcfgWrite ctx head v => Sys2Proof.Machine.execHeadcfgWrite ctx head v s
  | .headsurfWrite ctx head v => Sys2Proof.Machine.execHeadsurfWrite ctx head v s
  | .frameEncodeComplete ctx head => Sys2Proof.Machine.execFrameEncodeComplete ctx head s
  | .ptpctlWrite v => Sys2Proof.Machine.execPtpctlWrite v s
  | .ptpLock time offset => Sys2Proof.Machine.execPtpLock time offset s
  | .bootStart => Sys2Proof.Machine.execBootStart s
  | .bootComplete => Sys2Proof.Machine.execBootComplete s
  | .attestRequest => Sys2Proof.Machine.execAttestRequest s
  | .attestComplete => Sys2Proof.Machine.execAttestComplete s
  | .attnonceWrite idx v => Sys2Proof.Machine.execAttnonceWrite idx v s
  | .ckptNow ctx => Sys2Proof.Machine.execCkptNow ctx s
  | .ckptPeriodExpiry ctx => Sys2Proof.Machine.execCkptPeriodExpiry ctx s
  | .ckptStepsReached ctx => Sys2Proof.Machine.execCkptStepsReached ctx s
  | .ckptHashesReceived ctx hashes => Sys2Proof.Machine.execCkptHashesReceived ctx hashes s
  | .ckptPeerTimeout ctx => Sys2Proof.Machine.execCkptPeerTimeout ctx s
  | .handlerDispatch core group => Sys2Proof.Machine.execHandlerDispatch core group s
  | .handlerResourceTimeout core group => Sys2Proof.Machine.execHandlerResourceTimeout core group s
  | .watchdog core group => Sys2Proof.Machine.execWatchdog core group s
  | .coreDisabled core source => Sys2Proof.Machine.execCoreDisabled core source s
  | .pageScrub page => Sys2Proof.Machine.execPageScrub page s
  | .registerWrite addr v => Sys2Proof.Machine.execRegisterWrite addr v s
  | .softError where_ hard => Sys2Proof.Machine.execSoftError where_ hard s
  | .blockSend port => Sys2Proof.Machine.execBlockSend port s
  | .ptpLockLoss => Sys2Proof.Machine.execPtpLockLoss s
  | .syncInterval => Sys2Proof.Machine.execSyncInterval s
  | .throttled sector => Sys2Proof.Machine.execThrottled sector s
  | .resultDelivered core slot => Sys2Proof.Machine.execResultDelivered core slot s

end Sys2Proof.Machine
end

