-- ==== Sys2Proof/Machine/Group.lean ====
section
/-! DEFINITION. One issue slot: the bundle, its group, the scoreboard, the checks of the group's words, their effects,
and the scheduler's choice of a warp (02 R26-R35, 10 R216-R221, R227, 13 R285, 22 R389, R399). -/

namespace Sys2Proof.Machine

/-! ### The group at an address (10 R216-R221) -/

/-- The slot of a code address in its packet. -/
def packetSlot (pc : Nat) : Nat := pc % 12 / 4

/-- A chain from an address with some words of its packet left. -/
def chainWords (w : Who) : Nat → Nat → M (List Nat)
  | 0, _ => return []
  | n + 1, pc => do
    let x ← fetchWord w pc
    if bitAt x 31 then return x :: (← chainWords w n (pc + 4)) else return [x]

/-- The words of the group at an address: a chain, a prefix with its word, or a lone word. -/
def groupWords (w : Who) (pc : Nat) : M (List Nat) := do
  let x ← fetchWord w pc
  if isPrefix x then
    if packetSlot pc < 2 then return [x, ← fetchWord w (pc + 4)] else return [x]
  else if bitAt x 31 then return x :: (← chainWords w (2 - packetSlot pc) (pc + 4))
  else return [x]

/-- The instruction of a word; an EXT or REP with C = 1 is one, misplaced (10 R219, R221). -/
def groupInstr (x : Nat) : Option Instr := decodeWord (if isPrefix x then x % 2 ^ 31 else x)

/-- May this word follow EXT? -/
def extMajor (x : Nat) : Bool := [0x06, 0x07, 0x09, 0x0A, 0x0C, 0x0D, 0x10, 0x11, 0x12, 0x13].contains (fld x 30 25)
/-- May this word follow REP? -/
def repMajor (x : Nat) : Bool :=
  let m := fld x 30 25
  decide (m ≤ 0x0B) || (decide (0x10 ≤ m) && decide (m ≤ 0x18)) || (decide (0x20 ≤ m) && decide (m ≤ 0x2A))
/-- A word without its D, A and B fields. -/
def noNames (x : Nat) : Nat := x / 2 ^ 18 * 2 ^ 18
/-- Does a REP step a field that its word does not use as a general-register name?  A word that is reserved for what stands
in such a field names its instruction all the same: the REP is checked before it (10 R221, R227). -/
def badStep (x nx : Nat) : Bool :=
  match (groupInstr nx).or (groupInstr (noNames nx)) with
  | none => false
  | some i =>
    let u := uses 0 0 0 i
    (fld x 11 10 != 0 && !u.fd) || (fld x 9 8 != 0 && !u.fa) || (fld x 7 6 != 0 && !u.fb)

/-- Is a prefix in slot `sl`, before `nx`, misplaced? -/
def badPrefix (sl x : Nat) (nx : Option Nat) : Bool :=
  match nx with
  | none => true
  | some n => decide (2 ≤ sl) || bitAt x 31 || bitAt n 31 || isPrefix n ||
      (if fld x 30 25 == 0x3E then !extMajor n else !repMajor n || badStep x n)

/-- Do two words of a chain run on one pipe or write one register, predicate or mask (10 R217)? -/
def clash (i j : Instr) : Bool :=
  let u := uses 0 0 0 i
  let v := uses 0 0 0 j
  pipeOf i == pipeOf j || u.xw.any (fun n => n != 0 && v.xw.contains n)
    || u.pw.any (fun n => n != 7 && v.pw.contains n) || u.mw.any v.mw.contains

/-- The fault of the word in place `k` of a group, of those that belong to the words alone (10 R227). -/
def wordFault (pc : Nat) (ws : List Nat) (k : Nat) : Option Nat :=
  let x := ws.getD k 0
  let sl := packetSlot pc + k
  match groupInstr x with
  | none => some 0x01
  | some i =>
    if isPrefix x then (if badPrefix sl x ws[k + 1]? then some 0x03 else none)
    else if isPrefix (ws.headD 0) || !(bitAt x 31 || decide (0 < k)) then none
    else if bitAt x 31 && (match ws[k + 1]? with | some n => isPrefix n | none => false) then some 0x03
    else if bitAt x 31 && decide (2 ≤ sl) then some 0x02
    else if (ws.take k).any fun y => match groupInstr y with | some j => clash j i | none => false then some 0x02
    else none

/-! ### The scoreboard (02 R34, 13 R285, R286) -/

/-- Is a result pending? -/
def pendingOn (s : State) (kind num : Nat) (lanes : W32) : Bool :=
  (iWarp s).board.any fun p => p.kind == kind && p.num == num && (kind == 2 || p.lanes &&& lanes != 0)
    && (p.due == 0 || decide (s.clk < p.due))

/-- The scheduler of a slot. -/
def schedOf (slot : Nat) : Nat := slot / 16

/-- The register that PERM, SHFL and LBCAST read across the warp. -/
def farReg (i : Instr) : Option Nat :=
  match i with
  | .perm _ _ _ a _ => some a.toNat
  | .shfl _ _ _ a _ => some a.toNat
  | .lbcast _ _ _ a _ => some a.toNat
  | _ => none
/-- The lanes whose register a lane reads across the warp (13 R287-R289). -/
def farLanes (s : State) (i : Instr) (l : Nat) : List Nat :=
  match i with
  | .perm _ _ _ _ b => (List.range 4).map fun j => fld (sub_ (getX (iLane s l) (rB s b)) 16 j) 8 4
  | .shfl _ _ _ _ b => [fld (getX (iLane s l) (rB s b)).toNat 8 4]
  | .lbcast _ _ _ _ k => [k.toNat]
  | _ => []
/-- The register that holds the index of IXGET or IXPUT. -/
def indexReg (i : Instr) : Option Nat :=
  match i with
  | .ixget _ _ _ a => some a.toNat
  | .ixput _ _ a _ => some a.toNat
  | _ => none

/-- Must a word wait on the scoreboard? -/
def wordWaits (s : State) (i : Instr) : Bool :=
  let b := s.issue.lanes
  let u := uses s.issue.stepD s.issue.stepA s.issue.stepB i
  (u.xr ++ u.xw).any (pendingOn s 0 · b)
  || (guardOf i :: (u.pr ++ u.pw)).any (pendingOn s 1 · b)
  || (u.ms ++ u.mw).any (pendingOn s 2 · b)
  || (match farReg i with
    | some a => pendingOn s 0 (a + s.issue.stepA) 0xFFFFFFFF
    | none => false)
  || (match indexReg i with
    | some a => (actLanes s (.ofNat 3 (guardOf i))).any fun l =>
        pendingOn s 0 ((getX (iLane s l) (a + s.issue.stepA)).toNat % 1024) (1#32 <<< l)
    | none => false)
  || (pipeOf i == .X && decide (s.clk < mget 0 (coreOf s s.issue.core).xfree (schedOf s.issue.slot)))

/-! ### Damaged state (22 R399) -/

/-- Does a word of the bundle read a damaged place?  A register counts for the lane that reads it, by name, by its index or
across the warp; predicates for a lane whose guard or operands are among them; a mask for a word that reads it; a PC-table
entry and a skip count for a bundle with their lane; a line of code for any word. -/
def readsHurt (s : State) (i : Instr) (e : Nat × Nat × Nat) : Bool :=
  let (kind, lane, n) := e
  let u := uses s.issue.stepD s.issue.stepA s.issue.stepB i
  let ls := actLanes s (.ofNat 3 (guardOf i))
  match kind with
  | 0 => (ls.contains lane && (u.xr.contains n || match i with
      | .ixget _ _ _ a => (getX (iLane s lane) (rA s a)).toNat % 1024 == n
      | _ => false))
    || (match farReg i with
      | some a => a + s.issue.stepA == n && ls.any fun l => (farLanes s i l).contains lane
      | none => false)
  | 1 => (guardOf i != 7 && s.issue.lanes.getLsbD lane) || (ls.contains lane && u.pr.any (· != 7))
  | 3 => !ls.isEmpty && u.ms.contains n
  | 2 => true
  | _ => s.issue.lanes.getLsbD lane

/-- Does a word overwrite a damaged register? -/
def writesHurt (s : State) (i : Instr) (e : Nat × Nat × Nat) : Bool :=
  e.1 == 0 && (uses s.issue.stepD s.issue.stepA s.issue.stepB i).xw.contains e.2.2
    && (actLanes s (.ofNat 3 (guardOf i))).contains e.2.1

/-- The threads that a word reads damaged state for: all of the bundle where it stands in the bundle's own state, else those
for which the word acts (22 R392). -/
def hurtLanes (s : State) (i : Instr) (kind : Nat) : W32 :=
  if kind == 0 || kind == 3 then maskOf (actLanes s (.ofNat 3 (guardOf i))) else s.issue.lanes

/-- UNCORRECTABLE for the first bundle that reads damaged state, at the word `k` that does: a register reads zero from then
on; a line of code is dropped. -/
def stopHurt (e : Nat × Nat × Nat) (k : Nat) (i : Instr) (s : State) : State :=
  let s := { s with issue := { s.issue with widx := k } }
  let s := iMod s fun w =>
    let w := { w with hurt := w.hurt.erase e }
    if e.1 == 0 then modLane w e.2.1 fun x => setX x e.2.2 0 else w
  let s := if e.1 == 2 then modCore s s.issue.core fun k => { k with icache := k.icache.filter fun l =>
      l.ctx != (iWarp s).ctx || l.va / 64 != s.issue.gpc / 64 } else s
  stopIssue 0x15 (if e.1 == 0 then .ofNat 64 e.2.2 else 0) (hurtLanes s i e.1) s

/-- The first word of the issuing group, in slot order, that meets damage of its warp. -/
def firstHurt (s : State) : Option ((Nat × Nat × Nat) × Nat × Instr) :=
  s.issue.words.zipIdx.findSome? fun x => (groupInstr x.1).bind fun i =>
    ((iWarp s).hurt.find? (readsHurt s i)).map fun e => (e, x.2, i)

/-- The damage that the issuing group meets first, if any: of its warp, or zeroed state of its work-group. -/
def meetDamage (s : State) : Option State :=
  match firstHurt s with
  | some (e, k, i) => some (stopHurt e k i s)
  | none =>
    let g := (iWarp s).group
    if (groupOf s s.issue.core g).damaged then
      some (stopIssue 0x15 0 s.issue.lanes (modGroup s s.issue.core g fun k => { k with damaged := false }))
    else none

/-! ### The words' effects -/

/-- Run the word in place `k` of the group. -/
def runWord (k : Nat) (s : State) : State :=
  match groupInstr (s.issue.words.getD k 0) with
  | none => s
  | some i =>
    match exec i { s with issue := { s.issue with widx := k } } with
    | .next t => t
    | .fault _ => s
    | .refused _ => s

/-- The first word of the group, in slot order from `k`, that faults at issue or must wait, tried by itself. -/
def groupStop (ws : List Nat) (s : State) : Nat → Nat → Option State
  | 0, _ => none
  | n + 1, k =>
    match wordFault s.issue.gpc ws k with
    | some c => some (stopIssue c 0 s.issue.lanes { s with issue := { s.issue with widx := k } })
    | none =>
      let t := runWord k s
      if t.issue.fault || t.issue.stall then some t else groupStop ws s n (k + 1)

/-- When a word of a chain acts: most in slot order, then B-pipe words, then IXPUT over every other word's registers, then
TDONE and EXIT, whose exits come after every word has acted (10 R217, 11 R242). -/
def actOrder (x : Nat) : Nat :=
  match groupInstr x with
  | some (.ixput _ _ _ _) => 2
  | some (.tdone _ _) => 3
  | some (.exit _ _) => 4
  | some i => if pipeOf i == .B then 1 else 0
  | none => 0

/-- Run every word of a chain. -/
def runChain (ws : List Nat) (s : State) : State :=
  [0, 1, 2, 3, 4].foldl (fun s o =>
    (List.range ws.length).foldl (fun s k => if actOrder (ws.getD k 0) == o then runWord k s else s) s) s

/-- Check and run the group: what it leaves, with the fault or the wait marked in `issue`. -/
def runGroup (ws : List Nat) (s : State) : State :=
  let pfx := isPrefix (ws.headD 0)
  match wordFault s.issue.gpc ws 0 with
  | some c => stopIssue c 0 s.issue.lanes s
  | none =>
    if pfx then
      let s := runWord 0 s
      match wordFault s.issue.gpc ws 1 with
      | some c => stopIssue c 0 s.issue.lanes s
      | none => runWord 1 s
    else if ws.length == 1 then runWord 0 s
    else match groupStop ws s ws.length 0 with
      | some t => t
      | none => runChain ws s

/-! ### After the group -/

/-- Move the bundle's threads past the group, unless a word has settled them (10 R218, R221, 02 R36, 22 R389). -/
def advanceLane (i : Issue) (count left : Nat) (rep : Bool) (l : Nat) (x : Lane) : Lane :=
  match x.st with
  | .exited => x
  | .parked => { x with pc := i.gpc }
  | .ready =>
    if x.stopped then { x with pc := i.gpc }
    else if i.moved.getLsbD l then x
    else if rep then { x with rep := left, pc := if left == 0 then (x.pc + 8) % 2 ^ 48 else x.pc }
    else { x with pc := (x.pc + 4 * count) % 2 ^ 48 }

/-- A bundle that has parted at a control transfer: new fragments by PC, in ascending order of their lowest lanes (02 R29). -/
def partBundle (old : Warp) (b : List Nat) (w : Warp) : Warp :=
  let all := b.filter fun l => (laneOf w l).st != .exited
  let on := all.filter fun l => !(laneOf w l).stopped
  let pcs := (on.map fun l => (laneOf w l).pc).eraseDups
  if pcs.length ≤ 1 then w
  else pcs.foldl (fun w p => newFragment old all (on.filter fun l => (laneOf w l).pc == p) w) w

/-- Skip counts after an issue (02 R27). -/
def countSkips (old : Warp) (b : List Nat) (w : Warp) : Warp :=
  (List.range 32).foldl (fun w l =>
    let x := laneOf w l
    if b.contains l then (if x.skip == 0 then w else setLane w l { x with skip := 0 })
    else if (laneOf old l).st == .ready && x.st == .ready then setLane w l { x with skip := min 255 (x.skip + 1) }
    else w) w

/-- The group has issued: PCs, fragments, skip counts, counters, the X and E pipes, and the warp's state. -/
def finishGroup (is : List Instr) (s : State) : State :=
  let i := s.issue
  let b := lanesOf i.lanes
  let old := i.pre.getD {}
  let n := iReps s
  let r := (laneOf old (b.headD 0)).rep
  let left := (if r == 0 then n else r) - 1
  let s := iMod s fun w =>
    let w := b.foldl (fun w l => modLane w l (advanceLane i i.words.length left (n != 0) l)) w
    let w := countSkips old b (partBundle old b w)
    { w with retired := w.retired + 1, skid := if old.halting then w.skid + 1 else w.skid,
             hurt := w.hurt.filter fun e => !(is.any fun j => writesHurt s j e) }
  let s := if is.any fun j => majorOf j == 0x29 then
      modCore s i.core fun k => { k with xfree := mput 0 k.xfree (schedOf i.slot) (s.clk + 8) }
    else s
  let s := if is.any fun j => pipeOf j == .E then modCore s i.core fun k => { k with ePipe := schedOf i.slot + 1 } else s
  settleAt i.core i.slot s

/-! ### One warp -/

/-- May a thread be in a bundle? -/
def canIssue (x : Lane) : Bool := x.st == .ready && !x.stopped && x.wait.isNone

/-- The bundle: the threads a mask release made so, else those whose PC and REPLEFT are the head's (02 R26, R31, 10 R221). -/
def bundleOf (w : Warp) : W32 :=
  let ok (l : Nat) : Bool := canIssue (laneOf w l)
  let pre := (lanesOf w.prefer).filter ok
  if !pre.isEmpty then maskOf pre
  else match (w.order ++ List.range 32).find? ok with
    | none => 0
    | some h =>
      let x := laneOf w h
      maskOf ((List.range 32).filter fun l => ok l && (laneOf w l).pc == x.pc && (laneOf w l).rep == x.rep)

/-- May the scheduler offer a warp its slot (02 R33, R37, 22 R389)? -/
def offered (w : Warp) : Bool :=
  (w.st == .ready || w.st == .current) && !(w.halting && w.skidLeft == 0)

/-- The bundle stands ready to issue. -/
def beginGroup (c slot : Nat) (s : State) : State :=
  let w := warpOf s c slot
  let lanes := bundleOf w
  let s := setWarp s c slot { w with prefer := 0 }
  { s with issue := {
      core := c, slot := slot, lanes := lanes, gpc := (laneOf w ((lanesOf lanes).headD 0)).pc, words := [0],
      pre := some { w with prefer := 0 } } }

/-- The group must wait: the warp stands as it did. -/
def unbegin (prefer : W32) (s : State) : State := iMod s fun w => { w with prefer := prefer }

/-- The instructions of a group's words. -/
def groupInstrs (ws : List Nat) : List Instr := ws.filterMap groupInstr

/-- The state in which a group's words stand for the scoreboard: the steps of a REP are known to it. -/
def stepped (s : State) : State := if isPrefix (s.issue.words.headD 0) then runWord 0 s else s

/-- Must the group wait on the scoreboard (02 R26, R34)? -/
def groupWaits (s : State) : Bool := (groupInstrs s.issue.words).any (wordWaits (stepped s))

/-- Does the group lose the E pipe to another scheduler of its core (02 R32)? -/
def losesE (s : State) : Bool :=
  let e := (coreOf s s.issue.core).ePipe
  e != 0 && e != schedOf s.issue.slot + 1 && (groupInstrs s.issue.words).any (pipeOf · == .E)

/-- Issue a fetched group: whether it took the slot, and what it leaves. -/
def issueGroup (prefer : W32) (ws : List Nat) (s : State) : Bool × State :=
  let s := { s with issue := { s.issue with words := ws } }
  if groupWaits s || losesE s then (false, unbegin prefer s)
  else match meetDamage { s with issue := { (stepped s).issue with widx := 0 } } with
    | some t => (true, settleAt s.issue.core s.issue.slot t)
    | none =>
      let t := runGroup ws s
      if t.issue.stall then (false, unbegin prefer t)
      else if t.issue.fault then (true, settleAt s.issue.core s.issue.slot t)
      else (true, finishGroup (groupInstrs ws) t)

/-- Offer a warp the slot: whether it took it, and what it leaves (02 R26). -/
def tryIssue (c slot : Nat) (s : State) : Bool × State :=
  let w := warpOf s c slot
  if !offered w || bundleOf w == 0 then (false, s)
  else
    let s := beginGroup c slot s
    match groupWords (iWho s 1) s.issue.gpc s with
    | .ok ws s => issueGroup w.prefer ws s
    | .error (.page x r va) s => (false, unbegin w.prefer (waitIssue x r va s.issue.lanes s))
    | .error (.fail cause va) s => (true, settleAt c slot (stopIssue cause va s.issue.lanes s))

/-! ### One issue slot of a scheduler (02 R32, R33) -/

/-- The warps of a scheduler in the order in which it would take them: the current one, then by age; one that it leaves by
YIELD or at the greedy limit comes last (02 R33, 11 R247). -/
def offerOrder (k : Core) (sched : Nat) : List Nat :=
  let ws := (k.warps.filter fun e => schedOf e.1 == sched && offered e.2).map (·.1)
  let ws := sortBy (fun sl => (mget {} k.warps sl).age) ws
  let cur := mget 0 k.cur sched
  let last (w : Nat) : List Nat := ws.filter (· != w) ++ ws.filter (· == w)
  if 64 < cur then last (cur - 65)
  else if cur == 0 || !ws.contains (cur - 1) then ws
  else if mget 0 k.run sched < 256 then (cur - 1) :: ws.filter (· != cur - 1)
  else last (cur - 1)

/-- Offer the slot to warp after warp until one takes it. -/
def offerAll (c : Nat) : List Nat → State → Option Nat × State
  | [], s => (none, s)
  | sl :: t, s =>
    match tryIssue c sl s with
    | (true, s) => (some sl, s)
    | (false, s) => offerAll c t s

/-- A warp's state as its scheduler takes or leaves it. -/
def chooseWarp (on : Bool) (w : Warp) : Warp :=
  if on then (if w.st == .ready then { w with st := .current } else w)
  else if w.st == .current then { w with st := .ready } else w

/-- Halting warps of a scheduler whose skid is over become HALTED; for the others a slot passes (22 R389). -/
def haltTick (c sched : Nat) (s : State) : State :=
  (coreOf s c).warps.foldl (fun s e =>
    if schedOf e.1 == sched && e.2.halting && (e.2.st == .ready || e.2.st == .current || e.2.st == .parked)
      && e.2.skidLeft == 0 then modWarp s c e.1 fun w => { w with st := .halted, halting := false } else s) s

/-- One slot less for the warps that were halting when it began. -/
def skidTick (c sched : Nat) (before : Core) (s : State) : State :=
  before.warps.foldl (fun s e =>
    if schedOf e.1 == sched && e.2.halting then modWarp s c e.1 fun w => { w with skidLeft := w.skidLeft - 1 } else s) s

/-- One issue slot of a scheduler (02 R32, R33). -/
def issueSlot (c sched : Nat) (s : State) : State :=
  let s := haltTick c sched s
  let k := coreOf s c
  let cur := mget 0 k.cur sched
  let (got, s) := offerAll c (offerOrder k sched) s
  let s := match got with
    | none => modCore s c fun k => { k with cur := mput 0 k.cur sched 0 }
    | some sl =>
      let run := if cur == sl + 1 then mget 0 k.run sched + 1 else 1
      modCore s c fun k => { k with cur := mput 0 k.cur sched (if s.issue.yielded then sl + 65 else sl + 1),
                                    run := mput 0 k.run sched run }
  let now := mget 0 (coreOf s c).cur sched
  let s := if 0 < cur && cur < 65 && cur != now then modWarp s c (cur - 1) (chooseWarp false) else s
  let s := if 0 < now && now < 65 then modWarp s c (now - 1) (chooseWarp true) else s
  let s := skidTick c sched k s
  let s := if (coreOf s c).draining then drainCore c s else s
  { s with issue := {} }

/-- Has a scheduler a warp that it could offer a slot, or that is halting? -/
def schedBusy (k : Core) (sched : Nat) : Bool :=
  k.warps.any fun e => schedOf e.1 == sched && (offered e.2 ||
    (e.2.halting && (e.2.st == .ready || e.2.st == .current || e.2.st == .parked)))

/-- The age of the warp for which a scheduler offers a group with an E word, if its slot comes to that: the first of its
warps whose group can be fetched and waits on no result. -/
def offersE (c sched : Nat) (s : State) : Option Int :=
  let group (sl : Nat) : Option (Nat × Bool) :=
    if bundleOf (warpOf s c sl) == 0 then none else
    let t := beginGroup c sl s
    (quiet t (groupWords (iWho t 1) t.issue.gpc)).bind fun ws =>
      if groupWaits { t with issue := { t.issue with words := ws } } then none
      else some (sl, (groupInstrs ws).any (pipeOf · == .E))
  match (offerOrder (coreOf s c) sched).findSome? group with
  | some (sl, true) => some (warpOf s c sl).age
  | _ => none

/-- The schedulers of a core that have work. -/
def busyScheds (s : State) (c : Nat) : List Nat :=
  if (coreOf s c).off then [] else [0, 1, 2, 3].filter (schedBusy (coreOf s c))

/-- Of the schedulers that offer E words in one clk, the one with the oldest current warp has the E pipe; on a tie the lower
one (02 R32). -/
def arbitrate (c : Nat) (s : State) : State :=
  let b := busyScheds s c
  let age (j : Nat) : Int := (offersE c j s).getD 0
  let won := if b.length ≤ 1 then 0
    else match sortBy age (b.filter fun j => (offersE c j s).isSome) with
      | j :: _ => j + 1
      | [] => 0
  modCore s c fun k => { k with ePipe := won }

/-- The slots of some schedulers of a core, in their order. -/
def issueSlots (c : Nat) (js : List Nat) (s : State) : State :=
  js.foldl (fun s j => if (busyScheds s c).contains j then issueSlot c j s else s) s

/-- One clk of a core's schedulers.  They issue in ascending order: where two write one byte of the scratchpad, the higher
scheduler's value stands (02 R32, 04 R73). -/
def issueCore (c : Nat) (s : State) : State := issueSlots c [0, 1, 2, 3] (arbitrate c s)

/-- The core served next: in rotation over those whose schedulers have work (log 5). -/
def nextCore (s : State) : Option Nat :=
  let b := (s.cores.map (·.1)).filter fun c => !(busyScheds s c).isEmpty
  match b.find? fun c => decide (s.focus ≤ c) with
  | some c => some c
  | none => b.head?

/-- The next core's issue slots. -/
def slotStep (s : State) : Option State :=
  match nextCore s with
  | none => none
  | some c => some (issueCore c { s with focus := c + 1 })

/-- Every resident warp's PC table is re-sorted at each fourth clk (02 R25). -/
def resortAll (s : State) : State :=
  if s.clk % 4 != 0 then s
  else s.cores.foldl (fun s e => e.2.warps.foldl (fun s f =>
    if f.2.st == .free then s else modWarp s e.1 f.1 resortWarp) s) s

end Sys2Proof.Machine
end

