-- ==== Sys2Proof/Machine/Auto.lean ====
section
/-! DEFINITION. The order in which the machine's own steps come about (log 5), and the placing of an instruction where the
next step fetches.  One step is one clk; at an even clk a scheduler has its issue slot, at an odd clk one of the other
steps that are enabled takes place, in rotation. -/

namespace Sys2Proof.Machine

/-- A step that may be enabled. -/
abbrev Maybe := State → Option State

/-- The steps of a warp and its threads. -/
def warpSteps (c slot : Nat) (w : Warp) : List Maybe :=
  [resultStep c slot, loadDone c slot, exitDone c slot, drainDone c slot, saveDone c slot, wakeAll c slot] ++
  w.lanes.flatMap fun e =>
    [fenceStep c slot e.1, replayStep c slot e.1] ++
    (List.range e.2.front.length).flatMap fun i =>
      [loadStep c slot e.1 i, storeStep c slot e.1 i, atomicStep c slot e.1 i, vopenStep c slot e.1 i, queryStep c slot e.1 i]

/-- Every warp's steps. -/
def allWarpSteps (s : State) : List Maybe := s.cores.flatMap fun k => k.2.warps.flatMap fun w => warpSteps k.1 w.1 w.2

/-- The steps of a copy queue. -/
def queueSteps (c q : Nat) : List Maybe :=
  (List.range 6).map (fun i => copyStep (i + 1) c q) ++
  [instarStep c q, remoteStep 8 c q, remoteStep 9 c q, loopStep c q, condStep c q, pollStep c q, qfenceStep c q,
   followStep c q, signalStep c q, entryDone c q, failStep c q]

/-- The steps of a core's units that hold something; where one event is due to several, the matrix engine comes before the
copy queues and they in rising order (09 R209). -/
def coreSteps (c : Nat) (k : Core) : List Maybe :=
  (List.range k.matrix.cmds.length).flatMap (fun i => [startStep [0, 1, 2, 3, 4, 5] c i, completeStep c i]) ++
  (if k.matrix.cmds.isEmpty then [] else [requestStep c 8]) ++
  k.queues.flatMap (fun q => queueSteps c q.1 ++ [requestStep c q.1]) ++
  (if k.beams.isEmpty then [] else [beamStep c]) ++
  (if k.tidset.isEmpty then [] else [tidsetStep c]) ++
  (if k.flush.isEmpty then [] else [flushStep c]) ++
  (if k.deck.isEmpty then [] else [dispatchStep c]) ++
  (if k.stocks.isEmpty then [] else [refillStep c]) ++
  k.groups.flatMap fun g => [dispatchHandlers c g.1, handlerTimeout c g.1, watchStep c g.1]

/-- Every core's steps. -/
def allCoreSteps (s : State) : List Maybe := s.cores.flatMap fun k => coreSteps k.1 k.2

/-- The steps of stealing: messages on their way, frames to be returned, and idle cores. -/
def stealSteps (s : State) : List Maybe :=
  s.steals.flatMap (fun m => [serveStep m.dst, arrivalStep m.dst, ackStep m.dst, nackStep m.dst]) ++
  s.cores.flatMap fun k => (if (nackedSlot k.2).isSome then [nackStep k.1] else []) ++ [backoffStep k.1, stealRequestStep k.1]

/-- A page request that the host has answered: its status word reads 2, RETRY, or 3, FAIL (23 R405). -/
def answerStep (x n : Nat) : Maybe := fun s =>
  match peek s x (pageArea x + 0x10040 + 8 * n) 8 with
  | 2 => pageRetry x n s
  | 3 => pageFail x n s
  | _ => none

/-- The background scrubber. -/
def scrubStep (page : Nat) : Maybe := fun s =>
  if (sectorOf s (homeSector (page * 65536))).scrub.contains page then some (scrubPage s page) else none

/-- The steps of the sectors. -/
def sectorSteps (s : State) : List Maybe :=
  (List.range 16).map (fun i => deliverStep (i / 4) (i % 4)) ++
  (List.range 4).flatMap (fun x => [grantStep x, throttleStep x]) ++
  (s.sectors.flatMap fun e => e.2.posted.map fun p => answerStep e.1 p.1) ++
  (List.range s.received.length).map remoteApply ++
  s.sectors.flatMap fun e => e.2.scrub.map scrubStep

/-- The steps of a context's launch queues. -/
def queueEntrySteps (ctx q : Nat) : List Maybe :=
  [arriveStep ctx q, nopStep ctx q, queueFenceStep ctx q, wsyncStep ctx q, launchStep ctx q, syncStep false ctx q, syncStep true ctx q]

/-- The restores that a context's saved warps and cores allow. -/
def restoreSteps (ctx : Nat) (x : Ctx) (s : State) : List Maybe :=
  if !x.in_ then [] else
  (List.range (x.saved.length + x.savedCores.length)).flatMap fun i =>
    (heldCores s ctx).flatMap fun c =>
      ((match x.saved[i]? with | some e => [e.slot] | none => []) ++ List.range 64).map fun sl => restoreStep ctx i c sl

/-- The steps of a context. -/
def ctxSteps (s : State) (ctx : Nat) (x : Ctx) : List Maybe :=
  x.queues.flatMap (fun q => queueEntrySteps ctx q.1) ++
  x.launches.flatMap (fun l => [placeStep ctx l.1, gridEndStep ctx l.1]) ++
  x.heads.map (fun h => frameStep ctx h.1) ++
  [bumpDone ctx, periodStep ctx, stepsStep ctx, ckptEnd ctx, saveOn 1 ctx, saveOn 2 ctx, sliceStep ctx] ++
  (if x.ckpt.busy then [timeoutStep ctx] else []) ++
  expire ctx (fun _ => true) :: (List.range 48).map (fun b => reclaimStep ctx b) ++ restoreSteps ctx x s

/-- Every context's steps. -/
def allCtxSteps (s : State) : List Maybe := s.ctxs.flatMap fun e => ctxSteps s e.1 e.2

/-- A port sends when it has packets or a loss to report, resends, and goes down after 128 blocks without an answer; idle
blocks and the far side are the outside world's. -/
def portSteps (p : Nat) (k : Port) : List Maybe :=
  [fun s => if k.outbox.isEmpty && !k.bnak then none else sendStep p s, resendStep p,
   fun s => if 128 ≤ k.unacked then downStep p s else none]

/-- The steps of the package. -/
def packageSteps (s : State) : List Maybe :=
  [bootStep, attestStep] ++ (List.range 8).map (fun n => retrainStep n) ++ s.parts.map (fun p => resizeDone p.1) ++
  s.ports.flatMap fun p => portSteps p.1 p.2

/-- A list from its place `n` on, around its end. -/
def rotate {α : Type} (n : Nat) (l : List α) : List α := l.drop (n % l.length) ++ l.take (n % l.length)

/-- The families of steps, in the order of their rotation. -/
def families : List (State → List Maybe) :=
  [allWarpSteps, allCoreSteps, sectorSteps, allCtxSteps, packageSteps, stealSteps]

/-- One step of the machine's own, the first that is enabled in this clk's rotation. -/
def autoStep (s : State) : Option State :=
  (rotate (s.clk / 2) families).findSome? fun f =>
    let steps := f s
    (rotate (s.clk / 2 / 6 * 7919) steps).findSome? fun g => g s

/-- The clk ends. -/
def tick (s : State) : State := { s with clk := s.clk + 1 }

/-- One clk of the running machine: an issue slot or one of its other steps. -/
def clockStep (s : State) : State :=
  let s := resortAll s
  tick (if s.clk % 2 == 0 then (match slotStep s with | some t => t | none => (autoStep s).getD s)
    else (match autoStep s with | some t => t | none => (slotStep s).getD s))

/-- Is a step one that a package that is OFF takes (01 R23)? -/
def isPower (i : Instr) : Bool :=
  match i with
  | .powerOn => true
  | .powerOff => true
  | _ => false

/-- The first plan of the agenda, done outside the clock; an instruction word has no bundle here and does nothing. -/
def planStep (p : Plan) (s : State) : Host.Outcome State Fault Refusal :=
  match p with
  | .event i => if i.isWord then .next s else exec i s
  | .slot c j => .next (tick (issueSlot c j (modCore (resortAll s) c fun k => { k with ePipe := 0 })))
  | .register a v => .next (writeRegister a v s)

/-! ### An instruction where the next step fetches it -/

/-- The physical address of the group that the next step issues, if there is one. -/
def nextFetch (s : State) : Option Nat :=
  if !s.on || !s.agenda.isEmpty || s.clk % 2 != 0 then none else
  let s := resortAll s
  match nextCore s with
  | none => none
  | some c =>
    match ((busyScheds s c).flatMap (offerOrder (coreOf s c))).find? fun sl => bundleOf (warpOf s c sl) != 0 with
    | none => none
    | some sl =>
      let t := beginGroup c sl s
      (quiet t (translate (iWho t 1) (.ofNat 64 t.issue.gpc) 2)).bind fun pa => if backed pa then some pa else none

/-- Bytes at a physical address, as every sector that can read them sees them. -/
def placeBytes (pa : Nat) (bs : List Byte) (s : State) : State :=
  [0, 1, 2, 3].foldl (fun s x => modSector s x fun k => { k with mem := memPuts k.mem pa bs }) s

/-- A one-thread warp of context 0 at address 0 of core 0, slot 0, with its page of code at physical address 0x10000. -/
def placeWarp (s : State) : State :=
  let code : TlbEntry := { ctx := 0, gen := (ctxOf s 0).gen, log := 16, vpn := 0, ppn := 1, ipn := 1, write := true, exec := true, dirty := true, hold := false }
  let lane : Lane := { st := .ready }
  let w : Warp := { st := .ready, lanes := [(0, lane)], serial := 1 }
  let k : Core := { warps := [(0, w)], tlb := [code], serial := 1, groups := [(0, { slots := [0], threads := 1 })] }
  { s with on := true, clk := 0, focus := 0, agenda := [], cores := [(0, k)],
           ctxs := mput {} s.ctxs 0 { ctxOf s 0 with retired := false } }

/-- The state with an instruction's bytes where its next step fetches. -/
def placeWord (s : State) (bs : List Byte) : State :=
  match nextFetch s with
  | some pa => placeBytes pa bs { s with cores := s.cores.map fun e => (e.1, { e.2 with icache := [] }) }
  | none => placeBytes 0x10000 bs (placeWarp s)

end Sys2Proof.Machine
end

