-- ==== Sys2Proof/Machine/Step.lean ====
section
/-! DEFINITION. One step of the machine: the agenda's first plan, or one clk (log 5). -/

namespace Sys2Proof.Machine

/-- One step.  A package that is OFF heeds power commands alone; with none before it, it stops (01 R23). -/
def step (s : State) : Host.Outcome State Fault Refusal :=
  match s.agenda with
  | [] => if s.on then .next (clockStep s) else .fault .off
  | p :: rest =>
    let s' := { s with agenda := rest }
    if s.on || (match p with | .event i => isPower i | _ => false) then planStep p s' else .next s'

/-- The state with the instruction whose bits are `w` where its next step fetches. -/
def State.withFetchWord (s : State) (_nbits w : Nat) : State := placeWord s (bytesOfWord w)

end Sys2Proof.Machine
end

