-- ==== Sys2Proof/Safety.lean ====
section
/-! DEFINITION. What counts as a safe run of the machine, and the frames of a step: what it leaves as it was, in the terms
that statements use. -/

namespace Sys2Proof

open Machine

/-! ### Runs -/

/-- The next step answers a state: the machine goes on. -/
def GoesOn (s : State) : Prop := ∃ t, step s = .next t

/-- Every state that `n` steps from `s` reach. -/
def reach : Nat → State → State → Prop
  | 0, s, t => s = t
  | n + 1, s, t => ∃ u, step s = .next u ∧ reach n u t

/-- A safe run: from every state that it reaches the machine goes on, or it stands OFF with nothing to do (01 R23). -/
def SafeRun (s : State) : Prop := ∀ n t, reach n s t → GoesOn t ∨ (t.on = false ∧ t.agenda = [])

/-- The four power limits together stay within the package's 3,800 W (01 R22). -/
def PowerWithin (s : State) : Prop := s.power.lim0 + s.power.lim1 + s.power.lim2 + s.power.lim3 ≤ 3800

/-- Every memory of the machine is in canonical form: addresses strictly rising, no byte equal to what an unlisted
address reads as. -/
def MemoriesCanonical (s : State) : Prop :=
  (∀ e ∈ s.sectors, Memory.wf e.2.mem = true) ∧ (∀ e ∈ s.cores, Memory.wf e.2.pad = true)

/-! ### Frames -/

/-- Every byte of memory, as every sector reads it, and every byte of every scratchpad is as it was. -/
def SameMemory (s t : State) : Prop :=
  (∀ x pa, readByte t x pa = readByte s x pa) ∧ ∀ c a, mget (0 : Byte) (coreOf t c).pad a = mget 0 (coreOf s c).pad a

/-- Nothing but the issuing warp has changed: no other warp, nothing else of any core, nothing outside the cores. -/
structure OnlyWarp (s t : State) : Prop where
  /-- everything that is not a core: memories, contexts, the machine's registers -/
  machine : { t with cores := [] } = { s with cores := [] }
  /-- everything of a core but its warps: scratchpad, engines, queues, events, groups -/
  core : ∀ c, { coreOf t c with warps := [] } = { coreOf s c with warps := [] }
  /-- every other warp -/
  warp : ∀ c w, ¬(c = s.issue.core ∧ w = s.issue.slot) → warpOf t c w = warpOf s c w
  /-- every byte of memory -/
  memory : SameMemory s t

/-- Nothing but the issuing warp's threads and pending results has changed. -/
structure OnlyThreads (s t : State) : Prop extends OnlyWarp s t where
  /-- the masks, the PC table, the counters of the warp itself -/
  mine : { iWarp t with lanes := [], board := [] } = { iWarp s with lanes := [], board := [] }

/-- Thread `l` as it was but for its general registers. -/
def SameButRegs (s t : State) (l : Nat) : Prop :=
  { laneOf (iWarp t) l with regs := [] } = { laneOf (iWarp s) l with regs := [] }

/-- Thread `l` as it was but for its predicates. -/
def SameButPreds (s t : State) (l : Nat) : Prop :=
  { laneOf (iWarp t) l with preds := 0 } = { laneOf (iWarp s) l with preds := 0 }

/-- A word has written general register `n` of the threads `ls`, a value of which `v` is true for each, to be delivered
`lat` clk after the issue (02 R35), and nothing else: x0 takes no value (00 R9), no other register or thread changes. -/
structure WritesX (s t : State) (n lat : Nat) (ls : List Nat) (v : Nat → Word → Prop) : Prop extends OnlyThreads s t where
  value : n ≠ 0 → ∀ l ∈ ls, v l (getX (laneOf (iWarp t) l) n)
  others : ∀ l m, ¬(l ∈ ls ∧ m = n ∧ n ≠ 0) → getX (laneOf (iWarp t) l) m = getX (laneOf (iWarp s) l) m
  rest : ∀ l, SameButRegs s t l
  pending : (iWarp t).board = if n = 0 then (iWarp s).board else (iWarp s).board ++ [⟨0, n, maskOf ls, s.clk + lat⟩]

/-- A word has written predicate `n` of the threads `ls`, to be delivered `lat` clk after the issue, and nothing else:
pt takes no value (00 R9). -/
structure WritesP (s t : State) (n lat : Nat) (ls : List Nat) (v : Nat → Bool → Prop) : Prop extends OnlyThreads s t where
  value : n ≠ 7 → ∀ l ∈ ls, v l (getP (laneOf (iWarp t) l) n)
  others : ∀ l m, m < 8 → ¬(l ∈ ls ∧ m = n ∧ n ≠ 7) → getP (laneOf (iWarp t) l) m = getP (laneOf (iWarp s) l) m
  rest : ∀ l, SameButPreds s t l
  pending : (iWarp t).board = if n = 7 then (iWarp s).board else (iWarp s).board ++ [⟨1, n, maskOf ls, s.clk + lat⟩]

/-- The threads of `ls` have gone to the code address that `f` gives each, and nothing else has changed: the issue marks
their PC as settled. -/
structure GoTo (s t : State) (ls : List Nat) (f : Nat → Nat) : Prop where
  only : OnlyThreads s { t with issue := s.issue }
  settled : t.issue = { s.issue with moved := s.issue.moved ||| maskOf ls }
  there : ∀ l ∈ ls, (laneOf (iWarp t) l).pc = f l
  rest : ∀ l, { laneOf (iWarp t) l with pc := 0 } = { laneOf (iWarp s) l with pc := 0 }
  others : ∀ l, l ∉ ls → laneOf (iWarp t) l = laneOf (iWarp s) l
  board : (iWarp t).board = (iWarp s).board

/-- The flags of a context have taken the bits of `f`, and nothing else of any context has changed (06 R124). -/
def MergesFlags (s t : State) (ctx f : Nat) : Prop :=
  ∀ x, ctxOf t x = if x = ctx then { ctxOf s x with fpflags := (ctxOf s x).fpflags ||| BitVec.ofNat 6 f } else ctxOf s x

/-! ### Issuing -/

/-- A word issues for the threads `ls`, at least one: those of its bundle whose guard `g` is true, and every register it
names is below the warp's REGS (10 R215, R227, 04 R69). -/
structure Issues (i : Instr) (g : BitVec 3) (ls : List Nat) (s : State) : Prop where
  acting : actLanes s g = ls
  some : ls ≠ []
  range : badReg s i = none

/-- An E-pipe word may issue: its threads' earlier accesses are done and no TIDSET holds them (05 R100, R103, 14 R296). -/
structure IssuesE (i : Instr) (g : BitVec 3) (ls : List Nat) (s : State) : Prop extends Issues i g ls s where
  done : frontsEmpty s ls = true
  free : tidHeld s ls = false

/-- The state in which an E-pipe word acts: its threads' earlier scratchpad writes are posted (05 R103). -/
abbrev posted (s : State) (ls : List Nat) : State := postLanes s s.issue.core s.issue.slot ls

/-- Each sub-element of `w` bits of a register is what `f` says of its place (10 R223). -/
def Each (w : Nat) (v : Word) (f : Nat → Nat → Prop) : Prop := ∀ k, k < 64 / w → f k (sub_ v w k)

end Sys2Proof
end

