-- ==== Sys2Proof/Certificates/Slice0/Obligations.lean ====
section
/-! DEFINITION. The statements about the model, as propositions: what each instruction does, what it leaves as it was, what
the decoder reads, and the rules that hold of every step.  A statement about a word's result has the form: whatever the
operands and the state, when the word issues for some threads, `exec` answers the state that its rule gives. -/

section

open Sys2Proof Sys2Proof.Machine

namespace Sys2Proof

/-! ## Encodings, the step, reset -/

end Sys2Proof

/-- 10 R217, R219, R220, R221, 11 R233-R248, 12 R253, 13 R274, 14 R306, 15 R326: words written out in the spec decode to
the instructions that they stand for (their fields in the order of the constructor). -/
def Obligations.DecodeGivesWrittenWords : Prop :=
  decodeWord 0x81C08209 = some (.add 1 0 7 8 8 9) ∧
  decodeWord 0xC1F05187 = some (.ffma 1 0 7 0 5 6 7) ∧
  decodeWord 0x25F05082 = some (.lds 0 7 3 0 10 4 2) ∧
  decodeWord 0x7C000001 = some (.extWord 1) ∧
  decodeWord 0x7E000503 = some (.repWord 1 1 0 3) ∧
  decodeWord 0x13C8B345 = some (.movi 0 7 2 11 13 5) ∧
  decodeWord 0x05C4924A = some (.sub 0 2 7 9 9 10) ∧
  decodeWord 0x0BD0C34E = some (.divS 0 1 7 12 13 14) ∧
  decodeWord 0x0DFC30F8 = some (.addi 0 7 15 3 3 56) ∧
  decodeWord 0x17C43146 = some (.cmp 0 7 1 0 3 5 6) ∧
  decodeWord 0x1BC00006 = some (.call 0 7 6) ∧
  decodeWord 0x1DC80000 = some (.exit 0 7) ∧
  decodeWord 0x1FD47040 = some (.voteBallot 0 7 7 1) ∧
  decodeWord 0x00000000 = none

/-- Encoding loses nothing: every well-formed instruction word decodes from its own encoding, with every field at every
value that R225 and R226 admit. -/
def Obligations.DecodeEncodeAgree : Prop := ∀ i : Instr, i.wf = true → i.isWord = true → decodeWord (encode i) = some i

/-- Decoding loses nothing: a 32-bit word that decodes is the encoding of what it decodes to, which is well-formed: no two
words mean one instruction, and no reserved field is ignored (10 R226). -/
def Obligations.EncodeDecodeAgree : Prop :=
  ∀ (w : Nat) (i : Instr), w < 2 ^ 32 → decodeWord w = some i → encode i = w ∧ i.wf = true ∧ i.isWord = true

namespace Sys2Proof

/-- The state in which scheduler `j` of the served core `c` has its turn: PC tables sorted where due, the E pipe given, the
lower schedulers' slots over. -/
def turnOf (s : State) (c j : Nat) : State := issueSlots c (List.range j) (arbitrate c { resortAll s with focus := c + 1 })

/-- The state in which scheduler `j` has its issue slot: halted warps settled. -/
def slotStart (s : State) (c j : Nat) : State := haltTick c j (turnOf s c j)

/-- The state in which the bundle of slot `sl` stands ready. -/
def bundleStart (s : State) (c j sl : Nat) : State := beginGroup c sl (slotStart s c j)

/-- The state `u` in which the lone word `x` acts. -/
def acting (u : State) (x : Nat) : State := { u with issue := { u.issue with words := [x], widx := 0 } }

/-- A step of `s` fetches the word `x`, which decodes to `i`, as a lone word and leaves `u`: the clk is even, core `c` is
served and scheduler `j` has work, the warp of slot `sl` stands first and has a bundle, and the word waits on no result, does
not lose the E pipe and meets no damage. -/
structure Fetches (s : State) (c j sl x : Nat) (i : Instr) (u : State) : Prop where
  running : s.on = true ∧ s.agenda = [] ∧ s.clk % 2 = 0
  served : nextCore (resortAll s) = some c
  busy : j < 4 ∧ (busyScheds (turnOf s c j) c).contains j = true
  first : (offerOrder (coreOf (slotStart s c j) c) j).head? = some sl
  bundle : offered (warpOf (slotStart s c j) c sl) = true ∧ bundleOf (warpOf (slotStart s c j) c sl) ≠ 0
  fetched : groupWords (iWho (bundleStart s c j sl) 1) (bundleStart s c j sl).issue.gpc (bundleStart s c j sl) = .ok [x] u
  decodes : decodeWord x = some i
  alone : isPrefix x = false ∧ bitAt x 31 = false
  waits : wordWaits { u with issue := { u.issue with words := [x] } } i = false
  piped : losesE { u with issue := { u.issue with words := [x] } } = false
  whole : meetDamage (acting u x) = none

/-- What an issue slot does once its group has issued: the scheduler's choice, the skid of halting warps, the state of a
draining core. -/
def afterIssue (before : Core) (c sched sl : Nat) (s : State) : State :=
  let cur := mget 0 before.cur sched
  let run := if cur == sl + 1 then mget 0 before.run sched + 1 else 1
  let s := modCore s c fun k => { k with cur := mput 0 k.cur sched (if s.issue.yielded then sl + 65 else sl + 1),
                                          run := mput 0 k.run sched run }
  let now := mget 0 (coreOf s c).cur sched
  let s := if 0 < cur && cur < 65 && cur != now then modWarp s c (cur - 1) (chooseWarp false) else s
  let s := if 0 < now && now < 65 then modWarp s c (now - 1) (chooseWarp true) else s
  let s := skidTick c sched before s
  let s := if (coreOf s c).draining then drainCore c s else s
  { s with issue := {} }

end Sys2Proof

/-- A step runs the decoded instruction: where the word at a warp's PC decodes to `i`, `step` is `exec i` on the state whose
bundle stands ready, with the moves of its PCs (`finishGroup`), the end of the slot (`afterIssue`), the slots of the core's
higher schedulers and the end of the clk around it. -/
def Obligations.StepRunsDecodedWord : Prop :=
  ∀ (s u t : State) (c j sl x : Nat) (i : Instr), Fetches s c j sl x i u → exec i (acting u x) = .next t →
    t.issue.stall = false → t.issue.fault = false →
    step s = .next (tick (issueSlots c (List.range' (j + 1) (3 - j))
      (afterIssue (coreOf (slotStart s c j) c) c j sl (finishGroup [i] t))))

/-- A step without an encoding that stands at the head of the agenda is `exec` of it, the rest of the agenda after it.  01 R23:
a package that is OFF and has nothing on its agenda does nothing, and heeds power commands alone. -/
def Obligations.StepRunsPlannedEvent : Prop :=
  (∀ (s : State) (i : Instr) (rest : List Plan), s.agenda = .event i :: rest → i.isWord = false →
    (s.on = true ∨ i = .powerOn ∨ i = .powerOff) → step s = exec i { s with agenda := rest }) ∧
  (∀ s : State, s.on = false → s.agenda = [] → step s = .fault .off) ∧
  ∀ (s : State) (p : Plan) (rest : List Plan), s.on = false → s.agenda = p :: rest →
    p ≠ .event .powerOn → p ≠ .event .powerOff → step s = .next { s with agenda := rest }

/-- 01 R22, R23, 04 R77, R86, R91, 05 R93, 06 R124, R127, R133, R135, 09 R193, R198, 21 R366, R375, R378, R379: what a
cold reset leaves in the registers whose reset value the spec states. -/
def Obligations.ResetValues : Prop :=
  let s := State.reset
  s.on = true ∧ s.clk = 0 ∧ fabtime s = 0
  ∧ PowerWithin s
  ∧ s.power = { lim0 := 950, lim1 := 950, lim2 := 950, lim3 := 950, clamped := 0, throttled := 0 }
  ∧ s.mgmt.ready = false ∧ s.mgmt.fail = false ∧ s.mgmt.version = 0 ∧ s.mgmt.locked = false ∧ s.mgmt.ptpEn = false
  ∧ s.mgmt.logSync = 0xFD ∧ s.mgmt.winLen = 4
  ∧ (∀ x, (ctxOf s x).gen = 1 ∧ (ctxOf s x).busy = false ∧ (ctxOf s x).mode = 1 ∧ (ctxOf s x).sampleLog = 10
      ∧ (ctxOf s x).fpflags = 0 ∧ (ctxOf s x).numDrop = 0)
  ∧ (∀ p, (partAt s p).en = false ∧ (partAt s p).busy = false)
  ∧ (∀ x, (mget {} s.hbm x).en = true ∧ (mget {} s.hbm x).interval = 100)
  ∧ (∀ c q, (queueOf s c q).en = false ∧ (queueOf s c q).err = false ∧ (queueOf s c q).tail = 0)
  ∧ (∀ x, (sectorOf s x).a = {} ∧ (∀ w, mget 0 (sectorOf s x).rwin w = 0) ∧ ∀ pa, mget 0 (sectorOf s x).keys pa = 0)
  ∧ (∀ c, (coreOf s c).matrix.wide = false ∧ (∀ k, (mget {} (coreOf s c).matrix.tiles k).int = false)
      ∧ (∀ k, mget 0 (coreOf s c).matrix.epi k = 0)
      ∧ ∀ p, (mget {} (coreOf s c).matrix.planes p).format = 0 ∧ (mget {} (coreOf s c).matrix.planes p).words = [])

/-! ## Words that compute a register or a predicate -/

namespace Sys2Proof

/-- What a word that computes one general register is to give: its guard, the number of its destination, the clk after
which the result arrives (02 R35), and what is true of the value that thread `l` gets. -/
structure XForm where
  g : BitVec 3
  dst : State → Nat
  lat : Nat
  value : State → Nat → Word → Prop

/-- Every word that `form` describes completes with the register that its form gives, and changes nothing else. -/
def XResult (form : Instr → Option XForm) : Prop :=
  ∀ (i : Instr) (F : XForm) (ls : List Nat) (s : State), form i = some F → Issues i F.g ls s →
    ∃ t, exec i s = .next t ∧ WritesX s t (F.dst s) F.lat ls (F.value s)

/-- What a word that computes one predicate is to give. -/
structure PForm where
  g : BitVec 3
  dst : Nat
  lat : Nat
  value : State → Nat → Bool → Prop

/-- Every word that `form` describes completes with the predicate that its form gives, and changes nothing else. -/
def PResult (form : Instr → Option PForm) : Prop :=
  ∀ (i : Instr) (F : PForm) (ls : List Nat) (s : State), form i = some F → Issues i F.g ls s →
    ∃ t, exec i s = .next t ∧ WritesP s t F.dst F.lat ls (F.value s)

/-- Source registers of thread `l` as the word reads them. -/
abbrev srcA (s : State) (a : BitVec 6) (l : Nat) : Word := getX (iLane s l) (rA s a)
/-- The register that field B names. -/
abbrev srcB (s : State) (b : BitVec 6) (l : Nat) : Word := getX (iLane s l) (rB s b)
/-- The register that field D names, where the word reads it. -/
abbrev srcD (s : State) (d : BitVec 6) (l : Nat) : Word := getX (iLane s l) (rD s d)

/-- A word whose result `r` holds, in each sub-element of `w` bits, what `ok a b d r` says of those of its sources. -/
def packed (g : BitVec 3) (d a b : BitVec 6) (w lat : Nat) (ok : Nat → Nat → Nat → Nat → Prop) : XForm :=
  ⟨g, fun s => rD s d, lat, fun s l v => Each w v fun k r =>
    ok (sub_ (srcA s a l) w k) (sub_ (srcB s b l) w k) (sub_ (srcD s d l) w k) r⟩

/-- A packed word whose exact result is an integer, truncated to `w` bits (00 R9). -/
def exact2 (g : BitVec 3) (d a b : BitVec 6) (w lat : Nat) (f : Nat → Nat → Int) : XForm :=
  packed g d a b w lat fun x y _ r => r = truncI (f x y) w

/-- The width that .w of majors 0x00 to 0x03 stands for (11 R232). -/
def widthOf (w : BitVec 2) : Nat := match w.toNat with | 0 => 64 | 1 => 32 | 2 => 16 | _ => 8
/-- The width of majors 0x04 and 0x05 (11 R235). -/
def widthOfMul (w : BitVec 1) : Nat := match w.toNat with | 0 => 64 | _ => 32

/-- The integer ALU, majors 0x00 to 0x03: each member's exact result (11 R233), 4 clk after issue. -/
def aluForm : Instr → Option XForm
  | .add _ w g d a b => some (exact2 g d a b (widthOf w) 4 fun x y => x + y)
  | .sub _ w g d a b => some (exact2 g d a b (widthOf w) 4 fun x y => x - y)
  | .minS _ w g d a b => some (exact2 g d a b (widthOf w) 4 fun x y => min (signed (widthOf w) x) (signed (widthOf w) y))
  | .minZ _ w g d a b => some (exact2 g d a b (widthOf w) 4 fun x y => min x y)
  | .maxS _ w g d a b => some (exact2 g d a b (widthOf w) 4 fun x y => max (signed (widthOf w) x) (signed (widthOf w) y))
  | .maxZ _ w g d a b => some (exact2 g d a b (widthOf w) 4 fun x y => max x y)
  | .abs _ w g d a => some (exact2 g d a 0 (widthOf w) 4 fun x _ => (signed (widthOf w) x).natAbs)
  | .and _ w g d a b => some (packed g d a b (widthOf w) 4 fun x y _ r => ∀ j < widthOf w, r.testBit j = (x.testBit j && y.testBit j))
  | .or _ w g d a b => some (packed g d a b (widthOf w) 4 fun x y _ r => ∀ j < widthOf w, r.testBit j = (x.testBit j || y.testBit j))
  | .xor _ w g d a b => some (packed g d a b (widthOf w) 4 fun x y _ r => ∀ j < widthOf w, r.testBit j = (x.testBit j ^^ y.testBit j))
  | .andn _ w g d a b => some (packed g d a b (widthOf w) 4 fun x y _ r => ∀ j < widthOf w, r.testBit j = (x.testBit j && !y.testBit j))
  | .shl _ w g d a b => some (exact2 g d a b (widthOf w) 4 fun x y => x * (2 ^ (y % widthOf w) : Nat))
  | .shr _ w g d a b => some (exact2 g d a b (widthOf w) 4 fun x y => (x / 2 ^ (y % widthOf w) : Nat))
  | .sra _ w g d a b => some (exact2 g d a b (widthOf w) 4 fun x y => signed (widthOf w) x / (2 ^ (y % widthOf w) : Nat))
  | .rot _ w g d a b => some (exact2 g d a b (widthOf w) 4 fun x y =>
      (x * 2 ^ (y % widthOf w) ||| x / 2 ^ (widthOf w - y % widthOf w) : Nat))
  | _ => none

/-- The field length L of BFX and BFI for a control sub-element (11 R237). -/
def fieldL (w y : Nat) : Nat := if fld y 5 0 < w then min (fld y 14 8) (w - fld y 5 0) else 0

/-- The multiply and bit family, majors 0x04 and 0x05 (11 R235, R236, R237). -/
def mulForm : Instr → Option XForm
  | .mul _ w g d a b => some (exact2 g d a b (widthOfMul w) 6 fun x y => x * y)
  | .mulhS _ w g d a b => some (exact2 g d a b (widthOfMul w) 6 fun x y =>
      signed (widthOfMul w) x * signed (widthOfMul w) y / (2 ^ widthOfMul w : Nat))
  | .mulhZ _ w g d a b => some (exact2 g d a b (widthOfMul w) 6 fun x y => (x * y / 2 ^ widthOfMul w : Nat))
  | .mad _ w g d a b => some (packed g d a b (widthOfMul w) 6 fun x y z r => r = (x * y + z) % 2 ^ widthOfMul w)
  | .divS _ w g d a b => some (exact2 g d a b (widthOfMul w) 36 fun x y =>
      if y = 0 then -1 else (signed (widthOfMul w) x).tdiv (signed (widthOfMul w) y))
  | .divZ _ w g d a b => some (exact2 g d a b (widthOfMul w) 36 fun x y => if y = 0 then -1 else (x / y : Nat))
  | .remS _ w g d a b => some (exact2 g d a b (widthOfMul w) 36 fun x y =>
      if y = 0 then x else (signed (widthOfMul w) x).tmod (signed (widthOfMul w) y))
  | .remZ _ w g d a b => some (exact2 g d a b (widthOfMul w) 36 fun x y => if y = 0 then x else (x % y : Nat))
  | .clz _ w g d a => some (packed g d a 0 (widthOfMul w) 4 fun x _ _ r =>
      r ≤ widthOfMul w ∧ x < 2 ^ (widthOfMul w - r) ∧ (r < widthOfMul w → 2 ^ (widthOfMul w - 1 - r) ≤ x))
  | .popc _ w g d a => some (packed g d a 0 (widthOfMul w) 4 fun x _ _ r =>
      r = ((List.range (widthOfMul w)).filter fun j => x.testBit j).length)
  | .brev _ w g d a => some (packed g d a 0 (widthOfMul w) 4 fun x _ _ r =>
      ∀ j < widthOfMul w, r.testBit j = x.testBit (widthOfMul w - 1 - j))
  | .bfx _ w g d a b => some (packed g d a b (widthOfMul w) 4 fun x y _ r =>
      ∀ j < widthOfMul w, r.testBit j = if j < fieldL (widthOfMul w) y then x.testBit (fld y 5 0 + j)
        else (bitAt y 15 && decide (0 < fieldL (widthOfMul w) y) && x.testBit (fld y 5 0 + fieldL (widthOfMul w) y - 1)))
  | .bfi _ w g d a b => some (packed g d a b (widthOfMul w) 4 fun x y z r =>
      ∀ j < widthOfMul w, r.testBit j = if fld y 5 0 ≤ j ∧ j < fld y 5 0 + fieldL (widthOfMul w) y
        then x.testBit (j - fld y 5 0) else z.testBit j)
  | _ => none

end Sys2Proof

/-- 11 R233, R236, R237: every member of the integer ALU gives each sub-element its exact result truncated to the width, as do
multiplies, divisions (by zero too: all ones, or the dividend), bit counts, field extract and insert; a sub-element never carries
into its neighbour, and nothing but the destination register changes. -/
def Obligations.IntegerArithmeticResult : Prop := XResult aluForm ∧ XResult mulForm

namespace Sys2Proof

/-- The exact value of an immediate field of `n` bits with a preceding EXT's IMM25 above it (10 R220). -/
def widened (s : State) (n v : Nat) : Nat × Nat :=
  match s.issue.ext with
  | none => (n, v)
  | some e => (n + 25, e.toNat * 2 ^ n + v)

/-- The immediate forms, majors 0x06 to 0x09 (11 R238, 10 R220): the immediate is widened by its sign or by zeros, alone or
with EXT. -/
def immForm : Instr → Option XForm
  | .addi _ g h d a i => some ⟨g, fun s => rD s d, 4, fun s l v =>
      (v.toNat : Int) = ((srcA s a l).toNat + signed (widened s 10 (h.toNat * 64 + i.toNat)).1 (widened s 10 (h.toNat * 64 + i.toNat)).2) % 2 ^ 64⟩
  | .andi _ g h d a i => some ⟨g, fun s => rD s d, 4, fun s l v =>
      ∀ j < 64, v.getLsbD j = ((srcA s a l).getLsbD j && (widened s 8 (h.toNat * 64 + i.toNat)).2.testBit j)⟩
  | .ori _ g h d a i => some ⟨g, fun s => rD s d, 4, fun s l v =>
      ∀ j < 64, v.getLsbD j = ((srcA s a l).getLsbD j || (widened s 8 (h.toNat * 64 + i.toNat)).2.testBit j)⟩
  | .xori _ g h d a i => some ⟨g, fun s => rD s d, 4, fun s l v =>
      ∀ j < 64, v.getLsbD j = ((srcA s a l).getLsbD j ^^ (widened s 8 (h.toNat * 64 + i.toNat)).2.testBit j)⟩
  | .shli _ g d a i => some ⟨g, fun s => rD s d, 4, fun s l v => v.toNat = (srcA s a l).toNat * 2 ^ i.toNat % 2 ^ 64⟩
  | .shri _ g d a i => some ⟨g, fun s => rD s d, 4, fun s l v => v.toNat = (srcA s a l).toNat / 2 ^ i.toNat⟩
  | .srai _ g d a i => some ⟨g, fun s => rD s d, 4, fun s l v => v.toInt = (srcA s a l).toInt / (2 ^ i.toNat : Nat)⟩
  | .movi _ g h d j i => some ⟨g, fun s => rD s d, 4, fun s _ v =>
      v.toInt = signed (widened s 16 ((h.toNat * 64 + j.toNat) * 64 + i.toNat)).1 (widened s 16 ((h.toNat * 64 + j.toNat) * 64 + i.toNat)).2⟩
  | _ => none

/-- The condition codes of 11 R239 on values of `w` bits. -/
def condTrue (e : BitVec 3) (w x y : Nat) : Prop :=
  match e.toNat with
  | 0 => x = y
  | 1 => x ≠ y
  | 2 => signed w x < signed w y
  | 3 => signed w x ≥ signed w y
  | 4 => x < y
  | 5 => x ≥ y
  | 6 => ∃ j, x.testBit j = true ∧ y.testBit j = true
  | _ => ¬∃ j, x.testBit j = true ∧ y.testBit j = true

/-- Compares and predicate operations (11 R239, R240), 4 clk after issue. -/
def predForm : Instr → Option PForm
  | .cmp _ g w e p a b => some ⟨g, p.toNat, 4, fun s l v => v = true ↔
      condTrue e (widthOf w) ((srcA s a l).toNat % 2 ^ widthOf w) ((srcB s b l).toNat % 2 ^ widthOf w)⟩
  | .cmpi _ g h e p a i => some ⟨g, p.toNat, 4, fun s l v => v = true ↔
      condTrue e 64 (srcA s a l).toNat (truncI (signed (widened s 10 (h.toNat * 64 + i.toNat)).1 (widened s 10 (h.toNat * 64 + i.toNat)).2) 64)⟩
  | .pand _ g p q r => some ⟨g, p.toNat, 4, fun s l v => v = true ↔ getP (iLane s l) q.toNat = true ∧ getP (iLane s l) r.toNat = true⟩
  | .por _ g p q r => some ⟨g, p.toNat, 4, fun s l v => v = true ↔ getP (iLane s l) q.toNat = true ∨ getP (iLane s l) r.toNat = true⟩
  | .pxor _ g p q r => some ⟨g, p.toNat, 4, fun s l v => v = true ↔ getP (iLane s l) q.toNat ≠ getP (iLane s l) r.toNat⟩
  | .pnot _ g p q => some ⟨g, p.toNat, 4, fun s l v => v = true ↔ getP (iLane s l) q.toNat = false⟩
  | _ => none

/-- Moves, address arithmetic, system values, mask reads and votes into a register (11 R241, R243, R249, R250, 10 R224). -/
def moveForm : Instr → Option XForm
  | .sel _ g d a b => some ⟨g, fun s => rD s d, 4, fun s l v =>
      ∀ j < 64, v.getLsbD j = if (srcD s d l).getLsbD j then (srcA s a l).getLsbD j else (srcB s b l).getLsbD j⟩
  | .mov _ g d a => some ⟨g, fun s => rD s d, 4, fun s l v => v = srcA s a l⟩
  | .lea _ g d a b => some ⟨g, fun s => rD s d, 4, fun s l v => v.toNat = ((srcA s a l).toNat + 8 * (srcB s b l).toNat) % 2 ^ 64⟩
  | .mget _ g d a => some ⟨g, fun s => rD s d, 4, fun s _ v => v.toNat = (mget 0 (iPre s).masks a.toNat).toNat⟩
  | .voteBallot _ g d a => some ⟨g, fun s => rD s d, 8, fun s _ v =>
      ∀ j < 64, v.getLsbD j = decide (j ∈ actLanes s g ∧ getP (iLane s j) a.toNat = true)⟩
  | _ => none

end Sys2Proof

/-- 11 R238, R241, 10 R220, and MGET and VOTE.ballot of R249, R250: the words with an immediate, with and without EXT, and the
moves into a register. -/
def Obligations.ImmediateAndMoveResult : Prop := XResult immForm ∧ XResult moveForm

namespace Sys2Proof

/-- Votes into a predicate (11 R250), 8 clk after issue: the voters are the threads that the word acts for. -/
def voteForm : Instr → Option PForm
  | .voteAll _ g d a => some ⟨g, d.toNat, 8, fun s _ v => v = true ↔ ∀ j ∈ actLanes s g, getP (iLane s j) a.toNat = true⟩
  | .voteAny _ g d a => some ⟨g, d.toNat, 8, fun s _ v => v = true ↔ ∃ j ∈ actLanes s g, getP (iLane s j) a.toNat = true⟩
  | .voteUni _ g d a => some ⟨g, d.toNat, 8, fun s _ v => v = true ↔
      ∀ j ∈ actLanes s g, ∀ k ∈ actLanes s g, getP (iLane s j) a.toNat = getP (iLane s k) a.toNat⟩
  | _ => none

end Sys2Proof

/-- 11 R240, the condition codes of R239, and R250: compares and predicate operations write one predicate of each thread, and
VOTE.all, .any and .uni one that the acting threads decide together. -/
def Obligations.PredicateAndVoteResult : Prop := PResult predForm ∧ PResult voteForm

/-- GETS (11 R243, 10 R224): the system value of each thread; the plain numbers are spelled out, and every other register
stands. -/
def Obligations.SystemValueResult : Prop :=
  ∀ (c : BitVec 1) (g : BitVec 3) (d a : BitVec 6) (ls : List Nat) (s : State), Issues (.gets c g d a) g ls s →
    ∃ t, exec (.gets c g d a) s = .next t ∧ WritesX s t (rD s d) 4 ls (fun l v =>
      v = .ofNat 64 (systemValue s a.toNat l)
      ∧ (a = 0 → v = .ofNat 64 l)
      ∧ (a = 1 → v = .ofNat 64 (if (iWarp s).kind = .grid then (iWarp s).windex else s.issue.slot))
      ∧ (a = 2 → v = .ofNat 64 s.issue.core)
      ∧ (a = 4 → s.issue.core < 192 → v = .ofNat 64 (s.issue.core / 48))
      ∧ (a = 29 → v = .ofNat 64 s.clk)
      ∧ (a = 30 → v = .ofNat 64 (fabtime s))
      ∧ (a = 31 → v = (iLane s l).seed)
      ∧ (a = 32 → v = (iLane s l).trapRec)
      ∧ (8 ≤ a.toNat ∧ a.toNat ≤ 23 → (iWarp s).kind ≠ .grid → v = 0))

namespace Sys2Proof

/-- What another word of the group would still deliver to register `n` is discarded. -/
def withoutLate (s : State) (n : Nat) (x : Lane) : Lane :=
  { x with
    front := x.front.map fun e => if e.seq = (iWarp s).retired ∧ e.pc = s.issue.gpc ∧ e.dst = n then { e with dst := 0 } else e
    park := if x.park.dst = n ∧ x.pc = s.issue.gpc then { x.park with dst := 0 } else x.park }

end Sys2Proof

/-- 11 R243, R242: PUTS SEED gives each thread's SEED its register, and nothing else changes.  IXGET reads and IXPUT writes the register that bits [9:0] of the index register name, and what another word of
IXPUT's group would still deliver there is discarded; an index of REGS or more in some thread raises REGISTER_RANGE (0x09) for the group before any thread writes. -/
def Obligations.SeedAndIndexedRegisterMoves : Prop :=
  (∀ (c : BitVec 1) (g : BitVec 3) (b : BitVec 6) (ls : List Nat) (s : State), Issues (.puts c g b) g ls s →
    ∃ t, exec (.puts c g b) s = .next t ∧ OnlyThreads s t ∧ (iWarp t).board = (iWarp s).board
      ∧ ∀ l, laneOf (iWarp t) l = if l ∈ ls then { laneOf (iWarp s) l with seed := srcB s b l } else laneOf (iWarp s) l) ∧
  (∀ (c : BitVec 1) (g : BitVec 3) (d a : BitVec 6) (ls : List Nat) (s : State), Issues (.ixget c g d a) g ls s →
    (∀ l ∈ ls, (srcA s a l).toNat % 1024 < (iWarp s).regsN) →
    ∃ t, exec (.ixget c g d a) s = .next t ∧
      WritesX s t (rD s d) 4 ls (fun l v => v = getX (iLane s l) ((srcA s a l).toNat % 1024))) ∧
  (∀ (c : BitVec 1) (g : BitVec 3) (a b : BitVec 6) (ls : List Nat) (s : State), Issues (.ixput c g a b) g ls s →
    (∀ l ∈ ls, (srcA s a l).toNat % 1024 < (iWarp s).regsN) →
    ∃ t, exec (.ixput c g a b) s = .next t ∧ OnlyThreads s t ∧
      (∀ l, { laneOf (iWarp t) l with regs := [] } = { (if l ∈ ls then
        withoutLate s ((srcA s a l).toNat % 1024) (laneOf (iWarp s) l) else laneOf (iWarp s) l) with regs := [] }) ∧
      ∀ l n, getX (laneOf (iWarp t) l) n =
        if l ∈ ls ∧ n = (srcA s a l).toNat % 1024 ∧ n ≠ 0 then srcB s b l else getX (laneOf (iWarp s) l) n) ∧
  ∀ (i : Instr) (c : BitVec 1) (g : BitVec 3) (d a b : BitVec 6) (ls : List Nat) (s : State),
    i = .ixget c g d a ∨ i = .ixput c g a b → Issues i g ls s →
    ∀ l ∈ ls, (iWarp s).regsN ≤ (srcA s a l).toNat % 1024 → (∀ k ∈ ls, k < l → (srcA s a k).toNat % 1024 < (iWarp s).regsN) →
    exec i s = .next (stopIssue 0x09 (.ofNat 64 ((srcA s a l).toNat % 1024)) (maskOf ls) s)

/-! ## Control, masks, prefixes -/

/-- 10 R215, R227, 04 R69: a word whose guard no thread of the bundle satisfies, and whose registers are in range, changes
nothing, its fault checks included; a word that names a register of REGS or more takes REGISTER_RANGE (0x09) for every lane of
the bundle and has no effect, ADDR the register's number. -/
def Obligations.WordsThatDoNotAct : Prop :=
  (∀ (i : Instr) (s : State), i.isWord = true → majorOf i < 0x3E → actLanes s (.ofNat 3 (guardOf i)) = [] →
    badReg s i = none → exec i s = .next s) ∧
  ∀ (i : Instr) (s : State) (n : Nat), i.isWord = true → majorOf i < 0x3E → majorOf i ≠ 0x0C → majorOf i ≠ 0x0D →
    majorOf i ≠ 0x0E → badReg s i = some n → exec i s = .next (stopIssue 0x09 (.ofNat 64 n) s.issue.lanes s)

namespace Sys2Proof

/-- The target of BRA or CALL: the word's own address and four times the offset, alone or with EXT (10 R218, R220). -/
def targetOf (s : State) (o : BitVec 22) : Int := iAddr s + 4 * signed (widened s 22 o.toNat).1 (widened s 22 o.toNat).2

/-- A target breaks R218 or R246: it is no multiple of 4 below 2^48, or it lies inside a group that a chain or a prefix forms. -/
abbrev breaksTarget (s : State) (x : Int) : Prop := x < 0 ∨ badTarget (iWho s) x.toNat s = true

/-- A target keeps R218 and R246, and the word before it in its packet, by which that is seen, waits on no page request. -/
abbrev goodTarget (s : State) (x : Int) : Prop := ¬breaksTarget s x ∧ targetPage (iWho s) x.toNat s = none

end Sys2Proof

/-- 11 R244, R245: BRA, CALL, BRX and RET: the acting threads go to their targets, CALL leaves the address past its group in
x31, and nothing else changes. -/
def Obligations.TransfersGoToTheirTargets : Prop :=
  (∀ (c : BitVec 1) (g : BitVec 3) (o : BitVec 22) (ls : List Nat) (s : State), Issues (.bra c g o) g ls s →
    goodTarget s (targetOf s o) → ∃ t, exec (.bra c g o) s = .next t ∧ GoTo s t ls (fun _ => (targetOf s o).toNat)) ∧
  (∀ (c : BitVec 1) (g : BitVec 3) (o : BitVec 22) (ls : List Nat) (s : State), Issues (.call c g o) g ls s →
    goodTarget s (targetOf s o) → ∃ u t, exec (.call c g o) s = .next t ∧
      WritesX s u 31 1 ls (fun _ v => v = .ofNat 64 (s.issue.gpc + 4 * s.issue.words.length)) ∧
      GoTo u t ls (fun _ => (targetOf s o).toNat)) ∧
  ∀ (i : Instr) (c : BitVec 1) (g : BitVec 3) (a : BitVec 6) (ls : List Nat) (s : State), i = .brx c g a ∨ i = .ret c g a →
    Issues i g ls s → (∀ l ∈ ls, goodTarget s (srcA s a l).toNat) →
    ∃ t, exec i s = .next t ∧ GoTo s t ls (fun l => (srcA s a l).toNat)

/-- 11 R246: a transfer to a target that breaks R218 raises BRANCH_TARGET (0x04) and no PC changes; for BRX and RET the
lowest thread whose target is bad gives ADDR (22 R392). -/
def Obligations.BadTargetsRaiseBranchTarget : Prop :=
  (∀ (i : Instr) (c : BitVec 1) (g : BitVec 3) (o : BitVec 22) (ls : List Nat) (s : State), i = .bra c g o ∨ i = .call c g o →
    actLanes s g = ls → ls ≠ [] → breaksTarget s (targetOf s o) →
    exec i s = .next (stopIssue 0x04 (.ofInt 64 (targetOf s o)) (maskOf ls) s)) ∧
  ∀ (i : Instr) (c : BitVec 1) (g : BitVec 3) (a : BitVec 6) (ls : List Nat) (s : State), i = .brx c g a ∨ i = .ret c g a →
    actLanes s g = ls → ∀ l ∈ ls, breaksTarget s (srcA s a l).toNat →
    (∀ k ∈ ls, k < l → ¬breaksTarget s (srcA s a k).toNat) →
    exec i s = .next (stopIssue 0x04 (srcA s a l) (maskOf ls) s)

/-- 11 R247, 12 R271: NOP and PREF change nothing at their issue; YIELD only tells the scheduler to leave the warp. -/
def Obligations.NopYieldPrefKeepTheState : Prop :=
  (∀ (c : BitVec 1) (g : BitVec 3) (ls : List Nat) (s : State), Issues (.nop c g) g ls s → exec (.nop c g) s = .next s) ∧
  (∀ (c : BitVec 1) (g : BitVec 3) (a b : BitVec 6) (ls : List Nat) (s : State), Issues (.pref c g a b) g ls s →
    exec (.pref c g a b) s = .next s) ∧
  ∀ (c : BitVec 1) (g : BitVec 3) (ls : List Nat) (s : State), Issues (.yield c g) g ls s →
    exec (.yield c g) s = .next { s with issue := { s.issue with yielded := true } }

/-- 11 R247, 02 R24, R31: EXIT ends its threads, whose bits leave every mask; with no thread of the warp at an MWAIT and no
barrier of its work-group that counts live threads, nothing else changes. -/
def Obligations.ExitEndsItsThreads : Prop :=
  ∀ (c : BitVec 1) (g : BitVec 3) (ls : List Nat) (s : State), Issues (.exit c g) g ls s →
    (∀ l, (laneOf (iWarp s) l).park.kind ≠ 5) →
    (∀ e ∈ (groupOf s s.issue.core (iWarp s).group).bars, e.2.set = true → e.2.expect ≠ 0) →
    mwf {} (groupOf s s.issue.core (iWarp s).group).bars = true →
    ∃ t, exec (.exit c g) s = .next t ∧ OnlyWarp s { t with issue := s.issue }
      ∧ t.issue = { s.issue with moved := s.issue.moved ||| maskOf ls }
      ∧ (∀ l, laneOf (iWarp t) l = if l ∈ ls then { laneOf (iWarp s) l with st := .exited, park := {}, rep := 0 } else laneOf (iWarp s) l)
      ∧ (∀ k, k < 12 → mget 0 (iWarp t).masks k = mget 0 (iWarp s).masks k &&& ~~~maskOf ls)
      ∧ { iWarp t with lanes := [], masks := [] } = { iWarp s with lanes := [], masks := [] }

namespace Sys2Proof

/-- A mask word has given mask `k` of the issuing warp the value `v`, and nothing else has changed. -/
def WritesM (s t : State) (k : Nat) (v : W32) : Prop :=
  OnlyWarp s t ∧ (∀ j, mget 0 (iWarp t).masks j = if j = k then v else mget 0 (iWarp s).masks j)
  ∧ { iWarp t with masks := [] } = { iWarp s with masks := [] }

/-- What thread `x` waits for once the issuing word has parked it (02 R36, R40). -/
def parkOf (s : State) (kind dst : Nat) (eng : Bool) (op : Word) : Park :=
  { kind := kind, op := op, words := s.issue.words.length, word := s.issue.words.getD s.issue.widx 0, widx := s.issue.widx,
    dst := dst, eng := eng }

/-- The threads of `ls` have parked at the issuing group: they wait there with PARKKIND `kind` and the PARKOP that `op` gives
each, and nothing else has changed. -/
def ParksAt (s t : State) (ls : List Nat) (kind dst : Nat) (eng : Bool) (op : Nat → Word) : Prop :=
  OnlyThreads s { t with issue := s.issue } ∧ t.issue = { s.issue with moved := s.issue.moved ||| maskOf ls }
  ∧ (iWarp t).board = (iWarp s).board
  ∧ ∀ l, laneOf (iWarp t) l = if l ∈ ls then
      { laneOf (iWarp s) l with st := .parked, pc := s.issue.gpc, park := parkOf s kind dst eng (op l) }
    else laneOf (iWarp s) l

/-- Does a mask release nobody: it is empty, or a member does not wait at its MWAIT (02 R30)? -/
def nobodyReleased (s : State) (k : Nat) (m : W32) : Prop :=
  lanesOf m = [] ∨ ∃ l ∈ lanesOf m, waitsOn k (laneOf (iWarp s) l) = false

end Sys2Proof

/-- 02 R30, 11 R248, R249: MJOIN adds its threads to the mask; MLEAVE takes them out and MSET writes it, here while no member's
release follows. -/
def Obligations.MaskWordsWriteTheMask : Prop :=
  (∀ (c : BitVec 1) (g : BitVec 3) (a : BitVec 6) (ls : List Nat) (s : State), Issues (.mjoin c g a) g ls s →
    ∃ t, exec (.mjoin c g a) s = .next t ∧ WritesM s t a.toNat (mget 0 (iWarp s).masks a.toNat ||| maskOf ls)) ∧
  (∀ (c : BitVec 1) (g : BitVec 3) (a : BitVec 6) (ls : List Nat) (s : State), Issues (.mleave c g a) g ls s →
    nobodyReleased s a.toNat (mget 0 (iWarp s).masks a.toNat &&& ~~~maskOf ls) →
    ∃ t, exec (.mleave c g a) s = .next t ∧ WritesM s t a.toNat (mget 0 (iWarp s).masks a.toNat &&& ~~~maskOf ls)) ∧
  ∀ (c : BitVec 1) (g : BitVec 3) (d a : BitVec 6) (l : Nat) (ls : List Nat) (s : State), Issues (.mset c g d a) g (l :: ls) s →
    (∀ i < 32, (laneOf (iWarp s) i).park.kind ≠ 5 ∨ (laneOf (iWarp s) i).st ≠ .parked) →
    ∃ t, exec (.mset c g d a) s = .next t ∧
      WritesM s t d.toNat ((srcA s a l).truncate 32 &&& maskOf (liveLanes (iWarp s)))

/-- 02 R30, R36, 11 R248: MWAIT by members parks them while another member does not wait yet; a thread that is no member makes
it raise MASK_STATE (0x0B). -/
def Obligations.MwaitParksMembers : Prop :=
  (∀ (c : BitVec 1) (g : BitVec 3) (a : BitVec 6) (ls : List Nat) (s : State), Issues (.mwait c g a) g ls s →
    (∀ l ∈ ls, (mget 0 (iWarp s).masks a.toNat).getLsbD l = true) →
    (∃ l ∈ lanesOf (mget 0 (iWarp s).masks a.toNat), l ∉ ls ∧ waitsOn a.toNat (laneOf (iWarp s) l) = false) →
    ∃ t, exec (.mwait c g a) s = .next t ∧ ParksAt s t ls 5 0 false (fun _ => .ofNat 64 a.toNat)) ∧
  ∀ (c : BitVec 1) (g : BitVec 3) (a : BitVec 6) (ls : List Nat) (s : State), Issues (.mwait c g a) g ls s →
    ∀ l ∈ ls, (mget 0 (iWarp s).masks a.toNat).getLsbD l = false →
    exec (.mwait c g a) s = .next (stopIssue 0x0B 0 (maskOf ls) s)

/-- 02 R30, R31: when the last member of a mask waits and all members stand at one PC, MWAIT releases them: every member goes on
past the group it waits at, and the mask keeps its members. -/
def Obligations.MwaitReleasesAllMembers : Prop :=
  ∀ (c : BitVec 1) (g : BitVec 3) (a : BitVec 6) (ls : List Nat) (s : State), Issues (.mwait c g a) g ls s →
    (∀ l ∈ ls, (mget 0 (iWarp s).masks a.toNat).getLsbD l = true ∧ ∀ e ∈ (laneOf (iWarp s) l).front, e.kind ≠ .fence) →
    (∀ l ∈ lanesOf (mget 0 (iWarp s).masks a.toNat), l ∉ ls →
      waitsOn a.toNat (laneOf (iWarp s) l) = true ∧ (laneOf (iWarp s) l).pc = s.issue.gpc
      ∧ (laneOf (iWarp s) l).park.words = s.issue.words.length) →
    ∃ t, exec (.mwait c g a) s = .next t ∧ (iWarp t).masks = (iWarp s).masks
      ∧ (∀ l ∈ lanesOf (mget 0 (iWarp s).masks a.toNat), (laneOf (iWarp t) l).st = .ready
          ∧ (laneOf (iWarp t) l).pc = (s.issue.gpc + 4 * s.issue.words.length) % 2 ^ 48 ∧ (laneOf (iWarp t) l).park = {})
      ∧ (∀ l n, getX (laneOf (iWarp t) l) n = getX (laneOf (iWarp s) l) n) ∧ SameMemory s t

/-- 10 R219-R221: EXT puts its 25 bits above the next word's immediate; REP adds the repeat's number times each step to the
next word's register fields, the repeats counted by REPLEFT from N down. -/
def Obligations.PrefixesSteerTheNextWord : Prop :=
  (∀ (e : BitVec 25) (s : State), ∃ t, exec (.extWord e) s = .next t ∧ t.issue.ext = some e ∧ t.issue.widx = s.issue.widx + 1
    ∧ { t with issue := {} } = { s with issue := {} }
    ∧ ∀ n v, widened t n v = (n + 25, e.toNat * 2 ^ n + v)) ∧
  ∀ (d a b : BitVec 2) (n : BitVec 6) (k : Nat) (s : State),
    k = (if (iLane s ((lanesOf s.issue.lanes).headD 0)).rep = 0 then 0
         else n.toNat + 1 - (iLane s ((lanesOf s.issue.lanes).headD 0)).rep) →
    ∃ t, exec (.repWord d a b n) s = .next t ∧ t.issue.widx = s.issue.widx + 1 ∧ { t with issue := {} } = { s with issue := {} }
      ∧ ∀ x : BitVec 6, rD t x = x.toNat + k * d.toNat ∧ rA t x = x.toNat + k * a.toNat ∧ rB t x = x.toNat + k * b.toNat

/-! ## Memory accesses of threads -/

namespace Sys2Proof

/-- The byte offset of a word with an offset field, its size `n` bytes: OFF, or the signed EXT:OFF, times `n` (12 R253). -/
def offsetOf (s : State) (k : BitVec 5) (n : Nat) : Word :=
  match s.issue.ext with
  | none => .ofNat 64 (k.toNat * n)
  | some e => .ofInt 64 (signed 30 (e.toNat * 32 + k.toNat) * n)

/-- What a word that makes a global access for each thread is to give: its guard, each thread's address, its bytes, the kind
of translation it needs (0 read, 1 write, 3 atomic), its result register (0: none), and each thread's access. -/
structure GForm where
  g : BitVec 3
  addr : State → Nat → Word
  size : Nat
  kind : Nat
  dst : State → Nat
  entry : State → Nat → Access

/-- A global atomic: `red` returns nothing and takes its operand from D; without a result register and relaxed it may merge,
unless `det` (12 R257-R263, 05 R97). -/
def atomForm (op : AtomOp) (n : Nat) (g o : BitVec 3) (d a : BitVec 6) (det : Bool) (p : BitVec 1) (red : Bool) : Option GForm :=
  if p = 1 then none else some ⟨g, fun s l => srcA s a l, n, 3, fun s => if red then 0 else rD s d, fun s l =>
    { kind := .atomic, va := srcA s a l, size := n, ord := o.toNat, dst := if red then 0 else rD s d, op := op, red := red,
      x1 := if red then srcD s d l else getX (iLane s l) (rA s a + 1),
      x2 := if op = .cas then getX (iLane s l) (rA s a + 2) else 0,
      mergeable := o.toNat == 0 && !det && (red || rD s d == 0) && !([.exch, .inc, .cas, .nibLo, .nibHi].contains op) }⟩

/-- Loads, stores and atomics of global memory (12 R253-R263). -/
def globalForm : Instr → Option GForm
  | .ldg _ g z o d a k => some ⟨g, fun s l => srcA s a l + offsetOf s k (2 ^ z.toNat), 2 ^ z.toNat, 0, fun s => rD s d, fun s l =>
      { kind := .load, va := srcA s a l + offsetOf s k (2 ^ z.toNat), size := 2 ^ z.toNat, ord := o.toNat, dst := rD s d }⟩
  | .stg _ g z o d a k => some ⟨g, fun s l => srcA s a l + offsetOf s k (2 ^ z.toNat), 2 ^ z.toNat, 1, fun _ => 0, fun s l =>
      { kind := .store, va := srcA s a l + offsetOf s k (2 ^ z.toNat), size := 2 ^ z.toNat, ord := o.toNat, x1 := srcD s d l }⟩
  | .atomAdd _ g z o d a e p => atomForm .add (4 * 2 ^ z.toNat) g o d a (e == 1) p false
  | .atomMinS _ g z o d a e p => atomForm .minS (4 * 2 ^ z.toNat) g o d a (e == 1) p false
  | .atomMaxS _ g z o d a e p => atomForm .maxS (4 * 2 ^ z.toNat) g o d a (e == 1) p false
  | .atomAnd _ g z o d a e p => atomForm .and (4 * 2 ^ z.toNat) g o d a (e == 1) p false
  | .atomOr _ g z o d a e p => atomForm .or (4 * 2 ^ z.toNat) g o d a (e == 1) p false
  | .atomXor _ g z o d a e p => atomForm .xor (4 * 2 ^ z.toNat) g o d a (e == 1) p false
  | .atomExch _ g z o d a e p => atomForm .exch (4 * 2 ^ z.toNat) g o d a (e == 1) p false
  | .atomInc _ g z o d a e p => atomForm .inc (4 * 2 ^ z.toNat) g o d a (e == 1) p false
  | .atomfAdd _ g z o d a e p => atomForm .fadd (2 ^ z.toNat) g o d a (e == 1) p false
  | .cas _ g z o d a p => atomForm .cas (4 * 2 ^ z.toNat) g o d a true p false
  | .nibins _ g o d a n p => atomForm (if n = 1 then .nibHi else .nibLo) 1 g o d a true p false
  | .redAdd _ g z o d a e p => atomForm .add (4 * 2 ^ z.toNat) g o d a (e == 1) p true
  | .redMinS _ g z o d a e p => atomForm .minS (4 * 2 ^ z.toNat) g o d a (e == 1) p true
  | .redMaxS _ g z o d a e p => atomForm .maxS (4 * 2 ^ z.toNat) g o d a (e == 1) p true
  | .redAnd _ g z o d a e p => atomForm .and (4 * 2 ^ z.toNat) g o d a (e == 1) p true
  | .redOr _ g z o d a e p => atomForm .or (4 * 2 ^ z.toNat) g o d a (e == 1) p true
  | .redXor _ g z o d a e p => atomForm .xor (4 * 2 ^ z.toNat) g o d a (e == 1) p true
  | .redInc _ g z o d a e p => atomForm .inc (4 * 2 ^ z.toNat) g o d a (e == 1) p true
  | .redFadd _ g z o d a e p => atomForm .fadd (2 ^ z.toNat) g o d a (e == 1) p true
  | _ => none

/-- Each thread of `ls` has taken the access `f` at the young end of its front, from which finished acquires are gone, and
nothing else of any thread has changed (05 R93). -/
def FrontGains (s t : State) (ls : List Nat) (f : Nat → Access) : Prop :=
  OnlyThreads s t ∧ ∀ l, laneOf (iWarp t) l = if l ∈ ls then
      { laneOf (iWarp s) l with front := (laneOf (iWarp s) l).front.filter (fun e => !doneHold s s.issue.core e) ++ [f l] }
    else laneOf (iWarp s) l

end Sys2Proof

/-- 12 R253, R254, R257, R258, R262, 05 R93: a global load, store or atomic whose addresses are legal, no sink's, and translate
enters each thread's program order with its kind, address, size, order and operands; its result register is pending until the
memory path delivers it; nothing else changes, no byte of memory. -/
def Obligations.GlobalAccessesEnterTheFront : Prop :=
  ∀ (i : Instr) (F : GForm) (ls : List Nat) (s : State) (pa : Nat → Nat), globalForm i = some F → Issues i F.g ls s →
    (∀ l ∈ ls, (F.addr s l).toNat < 2 ^ 57 ∧ (F.addr s l).toNat % F.size = 0 ∧ sinkWorld s (iWho s) (F.addr s l).toNat = none
      ∧ translate (iWho s) (F.addr s l) F.kind s = .ok (pa l) s) →
    ∃ t, exec i s = .next t ∧ FrontGains s t ls (fun l => entryOf s { F.entry s l with pa := pa l })
      ∧ (iWarp t).board = if F.dst s = 0 then (iWarp s).board else (iWarp s).board ++ [⟨0, F.dst s, maskOf ls, 0⟩]

namespace Sys2Proof

/-- What a scratchpad word names: its guard, each thread's window offset and the bytes there. -/
structure SForm where
  g : BitVec 3
  off : State → Nat → Word
  size : Nat

/-- The scratchpad forms of the atomics: operation, bytes, result register, operands and whether nothing is returned. -/
structure SAtom extends SForm where
  op : AtomOp
  ord : Nat
  dst : State → Nat
  x1 : State → Nat → Word
  x2 : State → Nat → Word
  red : Bool

/-- A scratchpad atomic (12 R263). -/
def padAtomForm (op : AtomOp) (n : Nat) (g o : BitVec 3) (d a : BitVec 6) (p : BitVec 1) (red : Bool) : Option SAtom :=
  if p = 1 then some {
    g := g, off := fun s l => srcA s a l, size := n, op := op, ord := o.toNat,
    dst := fun s => if red then 0 else rD s d, x1 := fun s l => if red then srcD s d l else getX (iLane s l) (rA s a + 1),
    x2 := fun s l => getX (iLane s l) (rA s a + 2), red := red } else none

/-- Atomics of the scratchpad (12 R257-R263). -/
def padAtom : Instr → Option SAtom
  | .atomAdd _ g z o d a _ p => padAtomForm .add (4 * 2 ^ z.toNat) g o d a p false
  | .atomMinS _ g z o d a _ p => padAtomForm .minS (4 * 2 ^ z.toNat) g o d a p false
  | .atomMaxS _ g z o d a _ p => padAtomForm .maxS (4 * 2 ^ z.toNat) g o d a p false
  | .atomAnd _ g z o d a _ p => padAtomForm .and (4 * 2 ^ z.toNat) g o d a p false
  | .atomOr _ g z o d a _ p => padAtomForm .or (4 * 2 ^ z.toNat) g o d a p false
  | .atomXor _ g z o d a _ p => padAtomForm .xor (4 * 2 ^ z.toNat) g o d a p false
  | .atomExch _ g z o d a _ p => padAtomForm .exch (4 * 2 ^ z.toNat) g o d a p false
  | .atomInc _ g z o d a _ p => padAtomForm .inc (4 * 2 ^ z.toNat) g o d a p false
  | .atomfAdd _ g z o d a _ p => padAtomForm .fadd (2 ^ z.toNat) g o d a p false
  | .cas _ g z o d a p => padAtomForm .cas (4 * 2 ^ z.toNat) g o d a p false
  | .nibins _ g o d a n p => padAtomForm (if n = 1 then .nibHi else .nibLo) 1 g o d a p false
  | .redAdd _ g z o d a _ p => padAtomForm .add (4 * 2 ^ z.toNat) g o d a p true
  | .redMinS _ g z o d a _ p => padAtomForm .minS (4 * 2 ^ z.toNat) g o d a p true
  | .redMaxS _ g z o d a _ p => padAtomForm .maxS (4 * 2 ^ z.toNat) g o d a p true
  | .redAnd _ g z o d a _ p => padAtomForm .and (4 * 2 ^ z.toNat) g o d a p true
  | .redOr _ g z o d a _ p => padAtomForm .or (4 * 2 ^ z.toNat) g o d a p true
  | .redXor _ g z o d a _ p => padAtomForm .xor (4 * 2 ^ z.toNat) g o d a p true
  | .redInc _ g z o d a _ p => padAtomForm .inc (4 * 2 ^ z.toNat) g o d a p true
  | .redFadd _ g z o d a _ p => padAtomForm .fadd (2 ^ z.toNat) g o d a p true
  | _ => none

/-- The words whose scratchpad range is checked before they act. -/
def padForm : Instr → Option SForm
  | .lds _ g z _ _ a k => some ⟨g, fun s l => srcA s a l + offsetOf s k (2 ^ z.toNat), 2 ^ z.toNat⟩
  | .sts _ g z _ _ a k => some ⟨g, fun s l => srcA s a l + offsetOf s k (2 ^ z.toNat), 2 ^ z.toNat⟩
  | .cbinit _ g _ a _ => some ⟨g, fun s l => srcA s a l, 16⟩
  | .cbwait _ g _ a => some ⟨g, fun s l => srcA s a l, 16⟩
  | .cbtest _ g _ a => some ⟨g, fun s l => srcA s a l, 16⟩
  | .cbadd _ g a _ => some ⟨g, fun s l => srcA s a l, 16⟩
  | i => (padAtom i).map (·.toSForm)

/-- A scratchpad access of thread `l` is legal: aligned and inside the window (12 R256, 04 R71). -/
def InWindow (F : SForm) (s : State) (l : Nat) : Prop :=
  (F.off s l).toNat % F.size = 0 ∧ (F.off s l).toNat + F.size ≤ (iWarp s).padSize

end Sys2Proof

/-- 12 R256, R263, 04 R71, R79: an address with one of bits [63:57] set raises TRANSLATION (0x06), a misaligned one MISALIGNED
(0x05), scratchpad bytes outside the window SCRATCH_RANGE (0x11), with the address of the lowest thread whose address is bad
(22 R392) and nothing accessed.  That bits [63:57] fault at issue follows R256 and R397, where R403 can be read otherwise (DEDUCED,
log 30). -/
def Obligations.BadAddressesFault : Prop :=
  (∀ (i : Instr) (F : GForm) (ls : List Nat) (s : State), globalForm i = some F → Issues i F.g ls s → ∀ l ∈ ls,
    (∀ k ∈ ls, k < l → (F.addr s k).toNat < 2 ^ 57 ∧ (F.addr s k).toNat % F.size = 0) →
    ((2 ^ 57 ≤ (F.addr s l).toNat → exec i s = .next (stopIssue 0x06 (F.addr s l) (maskOf ls) s)) ∧
     ((F.addr s l).toNat < 2 ^ 57 → (F.addr s l).toNat % F.size ≠ 0 → exec i s = .next (stopIssue 0x05 (F.addr s l) (maskOf ls) s)))) ∧
  ∀ (i : Instr) (F : SForm) (ls : List Nat) (s : State), padForm i = some F → Issues i F.g ls s → ∀ l ∈ ls,
    (∀ k ∈ ls, k < l → InWindow F s k) →
    (((F.off s l).toNat % F.size ≠ 0 → exec i s = .next (stopIssue 0x05 (F.off s l) (maskOf ls) s)) ∧
     ((F.off s l).toNat % F.size = 0 → (iWarp s).padSize < (F.off s l).toNat + F.size →
       exec i s = .next (stopIssue 0x11 (F.off s l) (maskOf ls) s)))

namespace Sys2Proof

/-- A scratchpad word may act now: its accesses are legal, no copy has registered a range that they touch, its threads wait on
no earlier acquire or fence, and a release's conditions hold (04 R74, 05 R94, R102, 12 R255). -/
structure PadReady (F : SForm) (ord : Nat) (ls : List Nat) (s : State) : Prop where
  legal : ∀ l ∈ ls, InWindow F s l
  free : ∀ l ∈ ls, rangeHeld s s.issue.core ((iWarp s).padBase + (F.off s l).toNat) F.size = false
  ordered : ∀ l ∈ ls, ∀ e ∈ (iLane s l).front, holdsLater (sectorOf s (secOf s.issue.core)).a e = false
  released : ord = 0 ∨ (frontsEmpty s ls = true ∧ (ord = 5 → ∀ r ∈ s.sent, r.core ≠ s.issue.core))
  whole : (coreOf s s.issue.core).padBad = []

/-- Nothing but the scratchpad of the issuing core, with its posting history, and the issuing warp's threads and pending
results has changed. -/
structure OnlyPad (s t : State) : Prop where
  machine : { t with cores := [] } = { s with cores := [] }
  cores : ∀ c, c ≠ s.issue.core → coreOf t c = coreOf s c
  core : { coreOf t s.issue.core with pad := [], hist := [], padSeq := 0, warps := [] }
    = { coreOf s s.issue.core with pad := [], hist := [], padSeq := 0, warps := [] }
  warps : ∀ w, w ≠ s.issue.slot → warpOf t s.issue.core w = warpOf s s.issue.core w
  mine : { iWarp t with lanes := [], board := [] } = { iWarp s with lanes := [], board := [] }

/-- A byte of the issuing core's scratchpad. -/
def padByte (s : State) (a : Nat) : Byte := mget (0 : Byte) (coreOf s s.issue.core).pad a

/-- The `n` bytes from an offset of the issuing warp's window, as a number. -/
def padVal (s : State) (o : Word) (n : Nat) : Nat :=
  ofBytes ((List.range n).map fun j => padByte s ((iWarp s).padBase + o.toNat + j))

/-- Byte `a` of the scratchpad lies in thread `l`'s access. -/
def touches (F : SForm) (s : State) (a l : Nat) : Bool :=
  decide ((iWarp s).padBase + (F.off s l).toNat ≤ a ∧ a < (iWarp s).padBase + (F.off s l).toNat + F.size)

end Sys2Proof

/-- 12 R253, R254, 04 R71, R72, 05 R102: LDS takes its window's bytes, zero-extended, and changes nothing else; STS writes the
low bytes of its register, a byte that several threads write keeping the highest thread's, and changes nothing else. -/
def Obligations.ScratchpadLoadsAndStores : Prop :=
  (∀ (c : BitVec 1) (g : BitVec 3) (z : BitVec 2) (o : BitVec 3) (d a : BitVec 6) (k : BitVec 5) (F : SForm) (ls : List Nat) (s : State),
    padForm (.lds c g z o d a k) = some F → Issues (.lds c g z o d a k) g ls s → PadReady F 0 ls s →
    ∃ t, exec (.lds c g z o d a k) s = .next t ∧
      WritesX s t (rD s d) (23 + passes (ls.map fun l => (iWarp s).padBase + (F.off s l).toNat) F.size) ls
        (fun l v => v.toNat = padVal s (F.off s l) F.size)) ∧
  ∀ (c : BitVec 1) (g : BitVec 3) (z : BitVec 2) (o : BitVec 3) (d a : BitVec 6) (k : BitVec 5) (F : SForm) (ls : List Nat) (s : State),
    padForm (.sts c g z o d a k) = some F → Issues (.sts c g z o d a k) g ls s → PadReady F o.toNat ls s →
    ∃ t, exec (.sts c g z o d a k) s = .next t ∧ OnlyPad s t ∧ iWarp t = iWarp s ∧
      ∀ p, padByte t p = match (ls.filter (touches F s p)).getLast? with
        | some l => .ofNat 8 ((srcD s d l).toNat / 256 ^ (p - ((iWarp s).padBase + (F.off s l).toNat)))
        | none => padByte s p

namespace Sys2Proof

/-- The threads of `ls` perform an atomic one after another on the bytes `m` of the scratchpad: what each finds, and the bytes
that are left (12 R263). -/
def inLaneOrder (F : SAtom) (s : State) : List Nat → List Host.Cell → List (Nat × Nat) × List Host.Cell
  | [], m => ([], m)
  | l :: t, m =>
    let a := (iWarp s).padBase + (F.off s l).toNat
    let old := ofBytes (memGets m a F.size)
    let m' := match atomNew F.op F.size old (F.x1 s l).toNat (F.x2 s l).toNat with
      | some v => memPuts m a (leBytes F.size v)
      | none => m
    ((l, old) :: (inLaneOrder F s t m').1, (inLaneOrder F s t m').2)

end Sys2Proof

/-- 12 R257-R263, 05 R102: an atomic of the scratchpad performs at issue, its threads in ascending order; each that returns a
value gets what it found, 24 clk later; nothing else changes. -/
def Obligations.ScratchpadAtomicsActInLaneOrder : Prop :=
  ∀ (i : Instr) (F : SAtom) (ls : List Nat) (s : State), padAtom i = some F → Issues i F.g ls s → PadReady F.toSForm F.ord ls s →
    ∃ t, exec i s = .next t ∧ OnlyPad s t
      ∧ (coreOf t s.issue.core).pad = (inLaneOrder F s ls (coreOf s s.issue.core).pad).2
      ∧ (iWarp t).board = (iWarp s).board ++ (if F.dst s = 0 then [] else ls.map fun l => ⟨0, F.dst s, maskOf [l], s.clk + 24⟩)
      ∧ (∀ e ∈ (inLaneOrder F s ls (coreOf s s.issue.core).pad).1, F.dst s ≠ 0 →
          getX (laneOf (iWarp t) e.1) (F.dst s) = .ofNat 64 e.2)
      ∧ (∀ l n, ¬(l ∈ ls ∧ n = F.dst s ∧ n ≠ 0) → getX (laneOf (iWarp t) l) n = getX (laneOf (iWarp s) l) n)
      ∧ ∀ l, SameButRegs s t l

/-- 12 R258, R260, R261, 04 R89: the value that each atomic writes to a location of `w` = 8 × `n` bits that holds `old`; CAS writes
only where it finds its comparand. -/
def Obligations.AtomicOperationsCompute : Prop :=
  ∀ n ∈ [1, 2, 4, 8], ∀ old x y : Nat, old < 2 ^ (8 * n) →
    (∃ r, atomNew .add n old x y = some r ∧ r = (old + x) % 2 ^ (8 * n)) ∧
    (∃ r, atomNew .minS n old x y = some r ∧ r < 2 ^ (8 * n) ∧ signed (8 * n) r = min (signed (8 * n) old) (signed (8 * n) x)) ∧
    (∃ r, atomNew .maxS n old x y = some r ∧ r < 2 ^ (8 * n) ∧ signed (8 * n) r = max (signed (8 * n) old) (signed (8 * n) x)) ∧
    (∃ r, atomNew .and n old x y = some r ∧ ∀ j, r.testBit j = (old.testBit j && x.testBit j)) ∧
    (∃ r, atomNew .or n old x y = some r ∧ ∀ j, r.testBit j = (old.testBit j || (decide (j < 8 * n) && x.testBit j))) ∧
    (∃ r, atomNew .xor n old x y = some r ∧ ∀ j, r.testBit j = (old.testBit j ^^ (decide (j < 8 * n) && x.testBit j))) ∧
    atomNew .exch n old x y = some (x % 2 ^ (8 * n)) ∧
    (∃ r, atomNew .inc n old x y = some r ∧ (x % 2 ^ (8 * n) ≤ old → r = 0) ∧ (old < x % 2 ^ (8 * n) → r = old + 1)) ∧
    atomNew .cas n old x y = (if old = x % 2 ^ (8 * n) then some (y % 2 ^ (8 * n)) else none) ∧
    (∃ r, atomNew .nibLo n old x y = some r ∧ r % 16 = x % 16 ∧ r / 16 = old / 16) ∧
    (n = 1 → ∃ r, atomNew .nibHi n old x y = some r ∧ r / 16 = x % 16 ∧ r % 16 = old % 16)

namespace Sys2Proof

/-- The entry that a WAITV or JOIN of thread `l` stands in its front with. -/
def waitEntry (s : State) (i : Instr) (l pa : Nat) : Access :=
  match i with
  | .waitv _ _ z o d a e => entryOf s {
      kind := .waitv, va := srcA s a l, pa := pa, size := 2 ^ z.toNat, ord := o.toNat, dst := rD s d,
      x1 := getX (iLane s l) (rA s a + 1), cond := e.toNat }
  | .join _ _ o a => entryOf s { kind := .join, va := srcA s a l, pa := pa, size := 8, ord := o.toNat + 1 }
  | _ => { kind := .waitv }

/-- The state in which the access `e` alone stands in thread `l`'s front. -/
def standing (s : State) (l : Nat) (e : Access) : State := iModLane s l fun x => { x with front := [e] }

/-- Thread `l`'s wait at a word of `n` bytes may be looked at: its address is legal and no sink's, it translates, nothing older
stands in its front, and a read of the word answers `v`. -/
structure Looks (i : Instr) (s : State) (l n pa v : Nat) (va : Word) : Prop where
  legal : va.toNat < 2 ^ 57 ∧ va.toNat % n = 0
  plain : sinkWorld s (iWho s) va.toNat = none
  translated : translate (iWho s) va 0 s = .ok pa s
  first : (laneOf (iWarp s) l).front = [] ∧ s.issue.pre = none
  reads : vread (iWho s) va.toNat n (standing s l (waitEntry s i l pa)) = .ok (leBytes n v) (standing s l (waitEntry s i l pa))
  fits : v < 2 ^ (8 * n)

/-- The thread `l` has parked at its word with the access in its front, and nothing else has changed. -/
def WaitsAt (i : Instr) (s t : State) (l pa kind dst : Nat) (va : Word) : Prop :=
  OnlyThreads s { t with issue := s.issue } ∧ ∀ k, laneOf (iWarp t) k = if k = l then
      { laneOf (iWarp s) l with
        front := [waitEntry s i l pa], st := .parked, pc := s.issue.gpc, park := parkOf s kind dst false va }
    else laneOf (iWarp s) k

end Sys2Proof

/-- 12 R264, 15 R323, 02 R36: a WAITV or JOIN of one thread with nothing older in its front looks at its word at once.  Satisfied
(JOIN: the counter is zero), it goes on, WAITV's register taking the value; not satisfied, its thread parks; JOIN at address 0
goes on without a look. -/
def Obligations.WaitsLookBeforeTheyPark : Prop :=
  (∀ (c : BitVec 1) (g : BitVec 3) (z : BitVec 2) (o : BitVec 3) (d a : BitVec 6) (e : BitVec 3) (l pa v : Nat) (s : State),
    Issues (.waitv c g z o d a e) g [l] s → Looks (.waitv c g z o d a e) s l (2 ^ z.toNat) pa v (srcA s a l) →
    (condTrue e (8 * 2 ^ z.toNat) v ((getX (iLane s l) (rA s a + 1)).toNat % 2 ^ (8 * 2 ^ z.toNat)) →
      ∃ t, exec (.waitv c g z o d a e) s = .next t ∧ OnlyThreads s t ∧
        ∀ k, laneOf (iWarp t) k = if k = l then setX (laneOf (iWarp s) l) (rD s d) (.ofNat 64 v) else laneOf (iWarp s) k) ∧
    (¬condTrue e (8 * 2 ^ z.toNat) v ((getX (iLane s l) (rA s a + 1)).toNat % 2 ^ (8 * 2 ^ z.toNat)) →
      ∃ t, exec (.waitv c g z o d a e) s = .next t ∧ WaitsAt (.waitv c g z o d a e) s t l pa 1 (rD s d) (srcA s a l))) ∧
  (∀ (c : BitVec 1) (g o : BitVec 3) (a : BitVec 6) (l pa v : Nat) (s : State),
    IssuesE (.join c g o a) g [l] s → srcA s a l ≠ 0 → Looks (.join c g o a) (posted s [l]) l 8 pa v (srcA s a l) →
    ∃ t, exec (.join c g o a) s = .next t ∧
      (v = 0 → OnlyThreads (posted s [l]) t ∧ ∀ k, laneOf (iWarp t) k = laneOf (iWarp s) k) ∧
      (v ≠ 0 → WaitsAt (.join c g o a) (posted s [l]) t l pa 2 0 (srcA s a l))) ∧
  ∀ (c : BitVec 1) (g o : BitVec 3) (a : BitVec 6) (ls : List Nat) (s : State), IssuesE (.join c g o a) g ls s →
    (∀ l ∈ ls, srcA s a l = 0) → exec (.join c g o a) s = .next (posted s ls)

/-- 12 R265, 05 R93, R101: a fence stands in its threads' program order with its scope (FENCE.eng as 6, with the core's scratchpad
sequence number), and changes nothing else. -/
def Obligations.FencesEnterTheFront : Prop :=
  (∀ (c : BitVec 1) (g o : BitVec 3) (ls : List Nat) (s : State), Issues (.fence c g o) g ls s →
    ∃ t, exec (.fence c g o) s = .next t ∧ (iWarp t).board = (iWarp s).board ∧ FrontGains s t ls (fun _ => entryOf s
      { kind := .fence, ord := o.toNat, x1 := .ofNat 64 (coreOf s s.issue.core).padSeq })) ∧
  ∀ (c : BitVec 1) (g : BitVec 3) (ls : List Nat) (s : State), Issues (.fenceEng c g) g ls s →
    ∃ t, exec (.fenceEng c g) s = .next t ∧ (iWarp t).board = (iWarp s).board ∧ FrontGains s t ls (fun _ => entryOf s
      { kind := .fence, ord := 6, x1 := .ofNat 64 (coreOf s s.issue.core).padSeq })

/-! ## Barriers, completion objects, FLUSHL -/

namespace Sys2Proof

/-- The group of the issuing warp. -/
abbrev myGroup (s : State) : Group := groupOf s s.issue.core (iWarp s).group
/-- Its barrier `n`. -/
abbrev myBar (s : State) (n : BitVec 10) : Barrier := mget {} (myGroup s).bars n.toNat

/-- The five barrier words: guard, register D, barrier, whether it arrives, waits, and is the .eng form (12 R266). -/
structure BForm where
  g : BitVec 3
  d : BitVec 6
  n : BitVec 10
  arrives : Bool
  waits : Bool
  eng : Bool

/-- 12 R266. -/
def barForm : Instr → Option BForm
  | .barArrive _ g d n => some ⟨g, d, n, true, false, false⟩
  | .barSync _ g d n => some ⟨g, d, n, true, true, false⟩
  | .barSyncEng _ g d n => some ⟨g, d, n, true, true, true⟩
  | .barWait _ g d n => some ⟨g, d, n, false, true, false⟩
  | .barWaitEng _ g d n => some ⟨g, d, n, false, true, true⟩
  | _ => none

/-- An arrival of the threads `ls` with count `c` is legal (12 R268) and its threads' earlier accesses are done (05 R100). -/
structure Arrives (i : Instr) (F : BForm) (c : Nat) (ls : List Nat) (s : State) : Prop extends Issues i F.g ls s where
  done : frontsEmpty s ls = true
  grid : (iWarp s).kind = .grid
  number : F.n.toNat < (myGroup s).nbars
  counts : ∀ l ∈ ls, (srcD s F.d l).toNat % 4096 = c
  zero : F.n = 0 → c = 0
  most : c ≤ (myGroup s).threads
  agree : (myBar s F.n).set = true → c = (myBar s F.n).expect

/-- The arrivals that end a phase with count `c`: that many, or the group's live threads (12 R267). -/
def arrivalsNeeded (s : State) (c : Nat) : Nat := if c = 0 then groupLive s s.issue.core (iWarp s).group else c

/-- Nothing but barrier `n` of the issuing warp's group, and the posting history of its scratchpad, has changed. -/
structure OnlyBarrier (s t : State) (n : BitVec 10) : Prop where
  machine : { t with cores := [] } = { s with cores := [] }
  cores : ∀ c, c ≠ s.issue.core → coreOf t c = coreOf s c
  core : { coreOf t s.issue.core with groups := [], hist := [], floors := [] }
    = { coreOf s s.issue.core with groups := [], hist := [], floors := [] }
  groups : ∀ g, g ≠ (iWarp s).group → groupOf t s.issue.core g = groupOf s s.issue.core g
  group : { groupOf t s.issue.core (iWarp s).group with bars := [] } = { myGroup s with bars := [] }
  bars : ∀ m, m ≠ n.toNat → mget {} (groupOf t s.issue.core (iWarp s).group).bars m = mget {} (myGroup s).bars m

/-- What the threads of an arrival do next, from the state `u` that its barrier has reached: with the token `tok`, ARRIVE's take
it in register D + 1; SYNC's park while the phase is not over. -/
def afterArrival (F : BForm) (s u t : State) (ls : List Nat) (tok : Nat) (ended : Bool) : Prop :=
  if F.waits then (if ended then t = u else ParksAt u t ls 4 0 false (fun _ => .ofNat 64 (F.n.toNat + tok * 65536)))
  else if F.d = 0 then t = u else WritesX u t (rD s F.d + 1) 4 ls (fun _ v => v = .ofNat 64 tok)

end Sys2Proof

/-- 12 R266, R267: threads arrive at a barrier.  Too few for the phase: the count rises by them; SYNC parks them.  Just enough:
the phase number rises, the count starts anew, and they go on.  ARRIVE's tokens are the phase that they arrived in. -/
def Obligations.BarrierArrivals : Prop :=
  ∀ (i : Instr) (F : BForm) (c : Nat) (ls : List Nat) (s : State), barForm i = some F → F.arrives = true → Arrives i F c ls s →
    (myBar s F.n).phase < 65536 →
    ((myBar s F.n).count + ls.length < arrivalsNeeded s c → ∃ u t, exec i s = .next t ∧ OnlyBarrier s u F.n ∧
      (coreOf u s.issue.core).hist = (coreOf s s.issue.core).hist ∧ (coreOf u s.issue.core).floors = (coreOf s s.issue.core).floors ∧
      mget {} (groupOf u s.issue.core (iWarp s).group).bars F.n.toNat = { myBar s F.n with
        expect := c, set := true, count := (myBar s F.n).count + ls.length, eng := (myBar s F.n).eng || F.eng,
        arrivals := (myBar s F.n).arrivals ++ ls.map fun l => (writerOf (iWarp s) l, (coreOf s s.issue.core).padSeq) } ∧
      afterArrival F s u t ls (myBar s F.n).phase false) ∧
    ((myBar s F.n).count + ls.length = arrivalsNeeded s c → ∃ u t, exec i s = .next t ∧ OnlyBarrier s u F.n ∧
      ((myBar s F.n).eng = false → F.eng = false → (coreOf u s.issue.core).hist = (coreOf s s.issue.core).hist
        ∧ (coreOf u s.issue.core).floors = (coreOf s s.issue.core).floors) ∧
      (∃ past, mget {} (groupOf u s.issue.core (iWarp s).group).bars F.n.toNat =
        { phase := ((myBar s F.n).phase + 1) % 65536, past := past }) ∧
      afterArrival F s u t ls (myBar s F.n).phase true)

namespace Sys2Proof

/-- The token in register D of thread `l`. -/
def tokenOf (s : State) (d : BitVec 6) (l : Nat) : Nat := (srcD s d l).toNat % 65536

end Sys2Proof

/-- 12 R266, R267: BAR.WAIT parks the threads whose token is the current phase, and the others go on; BAR.WAIT.eng too, where a
thread that goes on posts its phase's arrivals. -/
def Obligations.BarrierWaits : Prop :=
  (∀ (c : BitVec 1) (g : BitVec 3) (d : BitVec 6) (n : BitVec 10) (ls : List Nat) (s : State), Issues (.barWait c g d n) g ls s →
    (iWarp s).kind = .grid → n.toNat < (myGroup s).nbars →
    ∃ t, exec (.barWait c g d n) s = .next t ∧
      ParksAt s t (ls.filter fun l => tokenOf s d l == (myBar s n).phase) 4 0 false
        (fun l => .ofNat 64 (n.toNat + tokenOf s d l * 65536))) ∧
  (∀ (c : BitVec 1) (g : BitVec 3) (d : BitVec 6) (n : BitVec 10) (ls : List Nat) (s : State), Issues (.barWaitEng c g d n) g ls s →
    (iWarp s).kind = .grid → n.toNat < (myGroup s).nbars → (∀ l ∈ ls, tokenOf s d l = (myBar s n).phase) →
    ∃ t, exec (.barWaitEng c g d n) s = .next t ∧
      ParksAt s t ls 4 0 true (fun l => .ofNat 64 (n.toNat + tokenOf s d l * 65536))) ∧
  (∀ (c : BitVec 1) (g : BitVec 3) (d : BitVec 6) (n : BitVec 10) (ls : List Nat) (s : State), Issues (.barWaitEng c g d n) g ls s →
    (iWarp s).kind = .grid → n.toNat < (myGroup s).nbars → (∀ l ∈ ls, tokenOf s d l ≠ (myBar s n).phase) →
    ∃ t, exec (.barWaitEng c g d n) s = .next t ∧ { t with cores := [] } = { s with cores := [] } ∧
      ∀ k, { coreOf t k with hist := [], floors := [] } = { coreOf s k with hist := [], floors := [] }) ∧
  ∀ (i : Instr) (F : BForm) (ls : List Nat) (s : State), barForm i = some F → Issues i F.g ls s →
    (myGroup s).nbars ≤ F.n.toNat ∨ (iWarp s).kind ≠ .grid → exec i s = .next (stopIssue 0x0A 0 (maskOf ls) s)

namespace Sys2Proof

/-- COUNT and the flag word of the completion object that thread `l` names (09 R206). -/
def objCount (s : State) (a : BitVec 6) (l : Nat) : Nat := padVal s (srcA s a l) 8
def objFlags (s : State) (a : BitVec 6) (l : Nat) : Nat := ofBytes ((List.range 4).map fun j =>
  padByte s ((iWarp s).padBase + (srcA s a l).toNat + 8 + j))

/-- Threads count on their objects one after another: v > 0 raises COUNT to at most 2^64 - 1, v < 0 lowers it to at least 0;
OVERRUN is set where the bound applied (12 R270, 09 R207). -/
def countInOrder (s : State) (a b : BitVec 6) : List Nat → List Host.Cell → List Host.Cell
  | [], m => m
  | l :: t, m =>
    let p := (iWarp s).padBase + (srcA s a l).toNat
    let n : Int := ofBytes (memGets m p 8)
    let f := ofBytes (memGets m (p + 8) 4)
    let v := (srcB s b l).toInt
    let sum := n + v
    countInOrder s a b t (if v = 0 then m else
      memPuts m p (leBytes 8 (max 0 (min (2 ^ 64 - 1) sum)).toNat ++ leBytes 4 (if sum < 0 ∨ 2 ^ 64 ≤ sum then f ||| 2 ^ 9 else f)))

end Sys2Proof

/-- 12 R270, 09 R206, R207: the completion words.  CBINIT writes the object; CBTEST tells whether COUNT is 0; CBWAIT gives the flag
word where COUNT is 0 or ERROR is set and parks the other threads; CBADD counts, thread by thread,
where its release is done: no count-down's threads have accesses under way, nor, at SCOPE .fabric, the core remote writes. -/
def Obligations.CompletionWords : Prop :=
  (∀ (c : BitVec 1) (g z : BitVec 3) (a b : BitVec 6) (F : SForm) (ls : List Nat) (s : State), padForm (.cbinit c g z a b) = some F →
    Issues (.cbinit c g z a b) g ls s → PadReady F 0 ls s →
    ∃ t, exec (.cbinit c g z a b) s = .next t ∧ OnlyPad s t ∧ iWarp t = iWarp s ∧
      ∀ p, padByte t p = match (ls.filter (touches F s p)).getLast? with
        | some l => .ofNat 8 (((srcB s b l).toNat + z.toNat * 2 ^ 70) / 256 ^ (p - ((iWarp s).padBase + (F.off s l).toNat)))
        | none => padByte s p) ∧
  (∀ (c : BitVec 1) (g p : BitVec 3) (a : BitVec 6) (F : SForm) (ls : List Nat) (s : State), padForm (.cbtest c g p a) = some F →
    Issues (.cbtest c g p a) g ls s → PadReady F 0 ls s →
    ∃ t, exec (.cbtest c g p a) s = .next t ∧ WritesP s t p.toNat 24 ls (fun l v => v = true ↔ objCount s a l = 0)) ∧
  (∀ (c : BitVec 1) (g : BitVec 3) (d a : BitVec 6) (F : SForm) (ls : List Nat) (s : State), padForm (.cbwait c g d a) = some F →
    Issues (.cbwait c g d a) g ls s → PadReady F 0 ls s →
    ∃ t, exec (.cbwait c g d a) s = .next t ∧ OnlyThreads s { t with issue := s.issue } ∧
      ∀ l, laneOf (iWarp t) l = if l ∈ ls then
          (if objCount s a l = 0 ∨ (objFlags s a l).testBit 10 = true
            then setX (laneOf (iWarp s) l) (rD s d) (.ofNat 64 (objFlags s a l))
            else { laneOf (iWarp s) l with st := .parked, pc := s.issue.gpc, park := parkOf s 3 (rD s d) false (srcA s a l) })
        else laneOf (iWarp s) l) ∧
  ∀ (c : BitVec 1) (g : BitVec 3) (a b : BitVec 6) (F : SForm) (ls : List Nat) (s : State), padForm (.cbadd c g a b) = some F →
    Issues (.cbadd c g a b) g ls s → PadReady F 0 ls s → frontsEmpty s (ls.filter fun l => decide ((srcB s b l).toInt < 0)) = true →
    ((∀ r ∈ s.sent, r.core ≠ s.issue.core) ∨ ∀ l ∈ ls, objFlags s a l / 64 % 8 < 4) →
    ∃ t, exec (.cbadd c g a b) s = .next t ∧ OnlyPad s t ∧ iWarp t = iWarp s ∧
      (coreOf t s.issue.core).pad = countInOrder s a b ls (coreOf s s.issue.core).pad

namespace Sys2Proof

/-- Nothing but core `c` has changed. -/
def OnlyCore (s t : State) (c : Nat) : Prop :=
  { t with cores := [] } = { s with cores := [] } ∧ ∀ d, d ≠ c → coreOf t d = coreOf s d

/-- Does a line of 128 bytes at `l` overlap the range of `n` bytes from `va`, modulo 2^57 (12 R271)? -/
def lineHit (va n l : Nat) : Prop := ∃ i < 128, ∃ j < n, (l + i) % 2 ^ 57 = (va + j) % 2 ^ 57

end Sys2Proof

/-- 12 R271: FLUSHL lists its threads' ranges, whose later FETCH words wait; when the core's oldest completes, the fetch cache holds
no line that overlaps its range (no line at all above 65,536 bytes), and a thread without another goes on. -/
def Obligations.FlushesEmptyTheFetchCache : Prop :=
  (∀ (c : BitVec 1) (g : BitVec 3) (a b : BitVec 6) (ls : List Nat) (s : State), Issues (.flushl c g a b) g ls s →
    ∃ t, exec (.flushl c g a b) s = .next t ∧ OnlyCore s t s.issue.core
      ∧ { coreOf t s.issue.core with flush := [], warps := [] } = { coreOf s s.issue.core with flush := [], warps := [] }
      ∧ (coreOf t s.issue.core).flush = (coreOf s s.issue.core).flush
          ++ ls.map (fun l => ((srcA s a l).toNat % 2 ^ 57, (srcB s b l).toNat, s.issue.slot, l))
      ∧ (∀ w, w ≠ s.issue.slot → warpOf t s.issue.core w = warpOf s s.issue.core w)
      ∧ { iWarp t with lanes := [] } = { iWarp s with lanes := [] }
      ∧ ∀ l, laneOf (iWarp t) l = if l ∈ ls then { laneOf (iWarp s) l with flushWait := true } else laneOf (iWarp s) l) ∧
  ∀ (c va n slot l : Nat) (rest : List (Nat × Nat × Nat × Nat)) (s : State), (coreOf s c).flush = (va, n, slot, l) :: rest →
    (∀ x ∈ (coreOf s c).cache, x.va < 2 ^ 57 ∧ x.va % 128 = 0) → va < 2 ^ 57 →
    ∃ t, exec (.flushlComplete c) s = .next t ∧ OnlyCore s t c ∧ (coreOf t c).flush = rest
      ∧ (∀ x, x ∈ (coreOf t c).cache ↔ x ∈ (coreOf s c).cache ∧ n ≤ 65536 ∧ ¬lineHit va n x.va)
      ∧ { coreOf t c with flush := [], cache := [], warps := [] } = { coreOf s c with flush := [], cache := [], warps := [] }
      ∧ (∀ w, w ≠ slot → warpOf t c w = warpOf s c w)
      ∧ ∀ k, laneOf (warpOf t c slot) k = if k = l ∧ (∀ e ∈ rest, ¬(e.2.2.1 = slot ∧ e.2.2.2 = l))
          then { laneOf (warpOf s c slot) k with flushWait := false } else laneOf (warpOf s c slot) k

/-! ## Floating point -/

namespace Sys2Proof

/-- A word that computes a register and flags in each thread, sub-element by sub-element of `w` bits: `res` gives code and flags. -/
structure FForm where
  g : BitVec 3
  d : BitVec 6
  lat : Nat
  w : Nat
  res : State → Nat → Nat → Nat × Nat

/-- The format of .w of majors 0x20 to 0x22 (13 R273). -/
def fmtOf (w : BitVec 2) : Fmt := match w.toNat with | 0 => f32 | 1 => f16 | _ => bf16
/-- The half format of majors 0x24 and 0x25 (13 R275). -/
def halfOf (w : BitVec 1) : Fmt := if w = 0 then f16 else bf16

/-- FADD, FSUB, FMUL, FFMA of a format: exact, then rounded once under the word's mode (13 R274). -/
def exactForm (f : Fmt) (g : BitVec 3) (r : BitVec 2) (d a b : BitVec 6) (v : Machine.Num → Machine.Num → Machine.Num → Machine.Num × Nat) : Option FForm :=
  some ⟨g, d, 6, f.width, fun s l k =>
    let e := v (f.decode (sub_ (srcA s a l) f.width k)) (f.decode (sub_ (srcB s b l) f.width k)) (f.decode (sub_ (srcD s d l) f.width k))
    ((f.round r.toNat false 0 e.1).1, e.2 ||| (f.round r.toNat false 0 e.1).2)⟩

/-- A special function of both FP32 sub-elements (13 R284). -/
def specialForm (g : BitVec 3) (d a : BitVec 6) (fn : Nat) : Option FForm :=
  some ⟨g, d, 32, 32, fun s l k => special fn (sub_ (srcA s a l) 32 k)⟩

/-- Arithmetic and special functions (13 R274, R284). -/
def floatForm : Instr → Option FForm
  | .fadd _ w g r d a b => exactForm (fmtOf w) g r d a b fun x y _ => addNum r.toNat x y
  | .fsub _ w g r d a b => exactForm (fmtOf w) g r d a b fun x y _ => addNum r.toNat x (negNum y)
  | .fmul _ w g r d a b => exactForm (fmtOf w) g r d a b fun x y _ => mulNum x y
  | .ffma _ w g r d a b => exactForm (fmtOf w) g r d a b fun x y z => fmaNum r.toNat x y z
  | .frcp _ g d a => specialForm g d a 0
  | .frsq _ g d a => specialForm g d a 1
  | .fsqrt _ g d a => specialForm g d a 2
  | .fexp2 _ g d a => specialForm g d a 3
  | .flog2 _ g d a => specialForm g d a 4
  | .fsin _ g d a => specialForm g d a 5
  | .fcos _ g d a => specialForm g d a 6
  | _ => none

/-- The flags of a context take those that some thread and place raised, and nothing else of any context changes (06 R124). -/
def RaisesFlags (s t : State) (ls : List Nat) (n : Nat) (f : Nat → Nat → Nat) : Prop :=
  ∃ m, MergesFlags s t (iWarp s).ctx m ∧ ∀ j < 6, m.testBit j = true ↔ ∃ l ∈ ls, ∃ k < n, (f l k).testBit j = true

end Sys2Proof

/-- 13 R272, R274, R284, 06 R124: vector arithmetic and special functions give each sub-element its rounded result, merge the flags
of all of them, and change nothing else. -/
def Obligations.FloatArithmeticResult : Prop :=
  ∀ (i : Instr) (F : FForm) (ls : List Nat) (s : State), floatForm i = some F → Issues i F.g ls s →
    ∃ t, exec i s = .next t
      ∧ WritesX { s with ctxs := t.ctxs } t (rD s F.d) F.lat ls (fun l v => Each F.w v fun k r => r = (F.res s l k).1)
      ∧ RaisesFlags s t ls (64 / F.w) (fun l k => (F.res s l k).2)

namespace Sys2Proof

/-- The seven formats of 10 R223. -/
def allFormats : List Fmt := [f32, f16, bf16, e4m3, e5m2, e2m1, e3m5]

end Sys2Proof

/-- 06 R110-R114, R119, R120: a code that is no NaN, read and rounded back into its own format under any mode, is the same code and
raises no flag: every format's values are read as numbers and placed among them without loss. -/
def Obligations.FormatsRoundTrip : Prop :=
  ∀ f ∈ allFormats, ∀ x < 2 ^ f.width, f.decode x ≠ .nan → ∀ mode rnd, f.round mode false rnd (f.decode x) = (x, 0)

namespace Sys2Proof

/-- The smaller (or greater) of two codes: a NaN yields to a number, two NaNs to the default NaN, -0 is below +0 (13 R276). -/
def pickMin (f : Fmt) (mx : Bool) (x y r : Nat) : Prop :=
  if f.decode x = .nan then r = (if f.decode y = .nan then f.dnan else y)
  else if f.decode y = .nan then r = x
  else (r = x ∨ r = y) ∧ (∀ z, z = x ∨ z = y → if mx then ltNum (f.decode r) (f.decode z) = false else ltNum (f.decode z) (f.decode r) = false)
    ∧ (eqNum (f.decode x) (f.decode y) = true → isNeg (f.decode r) =
        if mx then (isNeg (f.decode x) && isNeg (f.decode y)) else (isNeg (f.decode x) || isNeg (f.decode y)))

/-- FCLASS's one-hot class (13 R278). -/
def classIs (f : Fmt) (x r : Nat) : Prop :=
  match f.decode x with
  | .nan => r = 2 ^ 8
  | .inf n => r = if n then 2 ^ 0 else 2 ^ 7
  | .fin n m _ => r = if m = 0 then (if n then 2 ^ 3 else 2 ^ 4) else if m < 2 ^ f.mbits then (if n then 2 ^ 2 else 2 ^ 5)
      else (if n then 2 ^ 1 else 2 ^ 6)

/-- Element widths of PACK's source and UNPK's result (13 R282): `narrowW` bits and twice that. -/
def narrowW (w : BitVec 2) : Nat := match w.toNat with | 0 => 32 | 1 => 16 | 2 => 8 | _ => 4

/-- Minimum, maximum, sign and class words, PACK, UNPK and the cross-lane words (13 R276, R278, R283, R287-R289). -/
def floatMoveForm : Instr → Option XForm
  | .fminS _ g d a b => some (packed g d a b 32 6 fun x y _ r => pickMin f32 false x y r)
  | .fminH _ w g d a b => some (packed g d a b 16 6 fun x y _ r => pickMin (halfOf w) false x y r)
  | .fmaxS _ g d a b => some (packed g d a b 32 6 fun x y _ r => pickMin f32 true x y r)
  | .fmaxH _ w g d a b => some (packed g d a b 16 6 fun x y _ r => pickMin (halfOf w) true x y r)
  | .fabsS _ g d a => some (packed g d a 0 32 6 fun x _ _ r => r = if f32.decode x = .nan then f32.dnan else x % 2 ^ 31)
  | .fabsH _ w g d a => some (packed g d a 0 16 6 fun x _ _ r => r = if (halfOf w).decode x = .nan then (halfOf w).dnan else x % 2 ^ 15)
  | .fnegS _ g d a => some (packed g d a 0 32 6 fun x _ _ r => r = if f32.decode x = .nan then f32.dnan else (x + 2 ^ 31) % 2 ^ 32)
  | .fnegH _ w g d a => some (packed g d a 0 16 6 fun x _ _ r =>
      r = if (halfOf w).decode x = .nan then (halfOf w).dnan else (x + 2 ^ 15) % 2 ^ 16)
  | .fclassS _ g d a => some (packed g d a 0 32 6 fun x _ _ r => classIs f32 x r)
  | .fclassH _ w g d a => some (packed g d a 0 16 6 fun x _ _ r => classIs (halfOf w) x r)
  | .pack _ g d a x t w => some ⟨g, fun s => rD s d, 6, fun s l v => Each (narrowW w) v fun j r =>
      let n := 32 / narrowW w
      let e := sub_ (getX (iLane s l) (if j < n then rA s a else rA s a + 1)) (2 * narrowW w) (j % n)
      if t = 0 then r = e % 2 ^ narrowW w
      else if x = 1 then
        signed (narrowW w) r = max (-(2 ^ (narrowW w - 1) : Nat) : Int) (min ((2 ^ (narrowW w - 1) : Nat) - 1) (signed (2 * narrowW w) e))
      else r = min e (2 ^ narrowW w - 1)⟩
  | .unpk _ g d a x h w => some ⟨g, fun s => rD s d, 6, fun s l v => Each (2 * narrowW w) v fun j r =>
      let e := sub_ (srcA s a l) (narrowW w) (h.toNat * (32 / narrowW w) + j)
      if x = 1 then signed (2 * narrowW w) r = signed (narrowW w) e else r = e⟩
  | .perm _ g d a b => some ⟨g, fun s => rD s d, 8, fun s l v => Each 16 v fun j r =>
      let q := sub_ (srcB s b l) 16 j
      let src := srcA s a (q / 16 % 32)
      r = match q / 512 % 4 with
        | 0 => sub_ src 16 (q % 4) | 1 => sub_ src 8 (q % 8) | 2 => sub_ src 4 (q % 16) | _ => 0⟩
  | .shfl _ g d a b => some ⟨g, fun s => rD s d, 8, fun s l v => v = srcA s a ((srcB s b l).toNat / 16 % 32)⟩
  | .lbcast _ g d a n => some ⟨g, fun s => rD s d, 8, fun s _ v => v = srcA s a n.toNat⟩
  | _ => none

end Sys2Proof

/-- 13 R276, R278, R283, R287, R288, R289: words on floating-point codes and across lanes that raise no flag; a cross-lane word
reads any thread of the warp, whether it acts or not. -/
def Obligations.FloatMoveResult : Prop := XResult floatMoveForm

namespace Sys2Proof

/-- FCMP's conditions on two numbers (13 R277): the predicate and NV. -/
def fcmpSays (e : BitVec 3) (x y : Machine.Num) : Prop × Bool :=
  let un := decide (x = .nan ∨ y = .nan)
  match e.toNat with
  | 0 => (un = false ∧ eqNum x y = true, false)
  | 1 => (un = true ∨ eqNum x y = false, false)
  | 2 => (ltNum x y = true, un)
  | 3 => (un = false ∧ ltNum x y = false, un)
  | 4 => (ltNum y x = true, un)
  | 5 => (un = false ∧ ltNum y x = false, un)
  | 6 => (un = true, false)
  | _ => (un = false, false)

end Sys2Proof

/-- 13 R277, 06 R124: FCMP compares sub-element 0 of its operands into a predicate; an ordering condition on a NaN raises NV. -/
def Obligations.FloatCompareResult : Prop :=
  ∀ (i : Instr) (c w : BitVec 1) (g e p : BitVec 3) (a b : BitVec 6) (f : Fmt) (ls : List Nat) (s : State),
    (i = .fcmpS c g e p a b ∧ f = f32) ∨ (i = .fcmpH c w g e p a b ∧ f = halfOf w) → Issues i g ls s →
    ∃ t, exec i s = .next t
      ∧ WritesP { s with ctxs := t.ctxs } t p.toNat 6 ls (fun l v =>
          v = true ↔ (fcmpSays e (f.decode (sub_ (srcA s a l) f.width 0)) (f.decode (sub_ (srcB s b l) f.width 0))).1)
      ∧ RaisesFlags s t ls 1 (fun l _ =>
          if (fcmpSays e (f.decode (sub_ (srcA s a l) f.width 0)) (f.decode (sub_ (srcB s b l) f.width 0))).2 then 1 else 0)

namespace Sys2Proof

/-- The seed after `n` steps of the generator (06 R121). -/
def seedAfter : Nat → Word → Word
  | 0, w => w
  | n + 1, w => stepSeed (seedAfter n w)

/-- A conversion: guard, registers, rounding mode, source and destination widths, and the code and flags that 32 random bits and a
source field give. -/
structure CForm where
  g : BitVec 3
  d : BitVec 6
  a : BitVec 6
  mode : Nat
  ws : Nat
  wd : Nat
  res : Nat → Nat → Nat × Nat

/-- An integer field as a number. -/
def intAs (w : Nat) (sgn : Bool) (v : Nat) : Machine.Num :=
  let x : Int := if sgn then signed w v else v
  .fin (decide (x < 0)) x.natAbs 0

/-- FCVT, ICVT, FCVTI (13 R280, R281). -/
def cvtForm : Instr → Option CForm
  | .fcvt _ g e t d a f r => some ⟨g, d, a, r.toNat, (fltFmt f.toNat).width, (fltFmt e.toNat).width, fun n v =>
      (fltFmt e.toNat).round r.toNat (t == 1) n ((fltFmt f.toNat).decode v)⟩
  | .icvt _ g f d a i r => some ⟨g, d, a, r.toNat, (fltFmt f.toNat).width, (intFmt i.toNat).1, fun n v =>
      roundInt (intFmt i.toNat).1 (intFmt i.toNat).2 r.toNat n ((fltFmt f.toNat).decode v)⟩
  | .fcvti _ g f d a i r => some ⟨g, d, a, r.toNat, (intFmt i.toNat).1, (fltFmt f.toNat).width, fun n v =>
      (fltFmt f.toNat).round r.toNat false n (intAs (intFmt i.toNat).1 (intFmt i.toNat).2 v)⟩
  | _ => none

/-- The places of a conversion's fields are as wide as the wider of its two formats. -/
def CForm.w (F : CForm) : Nat := max F.ws F.wd
/-- Field `k` of thread `l`: code and flags, its random bits from the seed stepped once for each field under SR (06 R121). -/
def CForm.field (F : CForm) (s : State) (l k : Nat) : Nat × Nat :=
  F.res ((if F.mode = 4 then seedAfter (k + 1) (laneOf (iWarp s) l).seed else (laneOf (iWarp s) l).seed).toNat / 2 ^ 32)
    (sub_ (srcA s F.a l) F.w k % 2 ^ F.ws)

end Sys2Proof

/-- 13 R279-R281, 06 R121: a conversion gives each field its rounded code, zero-extended in its place, merges the flags, steps the
thread's SEED once for each field under SR alone, and changes nothing else. -/
def Obligations.ConversionResult : Prop :=
  ∀ (i : Instr) (F : CForm) (ls : List Nat) (s : State), cvtForm i = some F → i.wf = true → Issues i F.g ls s →
    ∃ u t, exec i s = .next t ∧ OnlyThreads s u ∧ (iWarp u).board = (iWarp s).board
      ∧ (∀ l, laneOf (iWarp u) l = if l ∈ ls ∧ F.mode = 4
          then { laneOf (iWarp s) l with seed := seedAfter (64 / F.w) (laneOf (iWarp s) l).seed } else laneOf (iWarp s) l)
      ∧ WritesX { u with ctxs := t.ctxs } t (rD s F.d) 6 ls (fun l v => Each F.w v fun k r => r = (F.field s l k).1 % 2 ^ F.wd)
      ∧ RaisesFlags s t ls (64 / F.w) (fun l k => (F.field s l k).2)

/-! ## Engine words -/

namespace Sys2Proof

/-- A matrix command word: its guard, whether its leader's registers are legal (14 R293), and the command that they give. -/
structure MForm where
  g : BitVec 3
  legal : State → Lane → Prop
  cmd : State → Lane → MCmd

/-- 14 R292, R293: a command word's reserved fields are zero, a field whose switch is 0 is zero, its object lies in the window. -/
def CmdLegal (s : State) (v : Nat) : Prop :=
  fld v 51 49 = 0 ∧ (bitAt v 63 = false → fld v 62 58 = 0) ∧ (bitAt v 57 = false → fld v 56 52 = 0) ∧
  (bitAt v 48 = false → fld v 47 32 = 0) ∧ (bitAt v 48 = true → fld v 47 32 * 16 + 16 ≤ (iWarp s).padSize)

/-- 14 R298: a load's row count is 1 to 128. -/
def LoadLegal (s : State) (v : Nat) : Prop := CmdLegal s v ∧ 1 ≤ fld v 15 8 ∧ fld v 15 8 ≤ 128 ∧ fld v 31 16 = 0

/-- The lowest acting thread: a command takes its operands from it (14 R291). -/
abbrev lowest (s : State) (ls : List Nat) : Lane := iLane s (ls.headD 0)

/-- WLOAD, WLOADSP, WSWAP, MSTREAM, MDRAIN, EPISET (14 R297-R302); MDRAIN takes its leader's SEED as a PUTS before it in its
group left it (10 R217). -/
def matrixForm : Instr → Option MForm
  | .wload _ g a => some ⟨g, fun s x => LoadLegal s (getX x (rA s a)).toNat,
      fun s x => { kind := 0, cmd := getX x (rA s a), x1 := getX x (rA s a + 1) }⟩
  | .wloadsp _ g a => some ⟨g, fun s x => LoadLegal s (getX x (rA s a)).toNat ∧
        (getX x (rA s a + 2)).toNat % 2 ^ 20 % 64 = 0 ∧
        (getX x (rA s a + 2)).toNat % 2 ^ 20 + 512 * fld (getX x (rA s a)).toNat 15 8 ≤ (iWarp s).padSize,
      fun s x => { kind := 1, cmd := getX x (rA s a), x1 := getX x (rA s a + 1), x2 := getX x (rA s a + 2) }⟩
  | .wswap _ g => some ⟨g, fun _ _ => True, fun _ _ => { kind := 2 }⟩
  | .mstream _ g a => some ⟨g, fun s x => let v := (getX x (rA s a)).toNat
        CmdLegal s v ∧ 1 ≤ fld v 24 17 ∧ fld v 16 10 + fld v 24 17 ≤ 128 ∧ fld v 31 25 = 0,
      fun s x => { kind := 3, cmd := getX x (rA s a), x1 := getX x (rA s a + 1) }⟩
  | .mdrain _ g a => some ⟨g, fun s x => let v := (getX x (rA s a)).toNat
        CmdLegal s v ∧ fld v 18 16 ≤ 4 ∧ fld v 31 19 = 0,
      fun s x => { kind := 4, cmd := getX x (rA s a), x1 := getX x (rA s a + 1),
                    x2 := (laneOf (iWarp s) ((actLanes s g).headD 0)).seed }⟩
  | .episet _ g k a => some ⟨g, fun s x => (getX x (rA s a)).toNat % 2 ^ 20 % 64 = 0 ∧
        (getX x (rA s a)).toNat % 2 ^ 20 + 576 ≤ (iWarp s).padSize,
      fun s x => { kind := 5, x1 := getX x (rA s a), x2 := .ofNat 64 k.toNat }⟩
  | _ => none

/-- The matrix engine of the issuing core. -/
abbrev myMatrix (s : State) : Matrix := (coreOf s s.issue.core).matrix

end Sys2Proof

/-- 14 R293, R295, R297-R302, 06 R122: a command word puts its command, with its leader's operands, at the end of the engine's
list, and an MSTREAM or MDRAIN counts its tile; with eight commands unstarted it waits. -/
def Obligations.MatrixCommandsReachTheEngine : Prop :=
  ∀ (i : Instr) (F : MForm) (ls : List Nat) (s : State), matrixForm i = some F → IssuesE i F.g ls s → F.legal s (lowest s ls) →
    (((myMatrix s).cmds.filter (·.phase != 1)).length < 8 →
      ∃ t, exec i s = .next t ∧ OnlyCore (posted s ls) t s.issue.core
        ∧ { coreOf t s.issue.core with matrix := {} } = { coreOf (posted s ls) s.issue.core with matrix := {} }
        ∧ { (coreOf t s.issue.core).matrix with cmds := [], tiles := [] } = { myMatrix s with cmds := [], tiles := [] }
        ∧ (coreOf t s.issue.core).matrix.cmds = (myMatrix s).cmds ++ [{ F.cmd s (lowest s ls) with src := originOf ls s }]
        ∧ ∀ k, tileOf t s.issue.core k = if (F.cmd s (lowest s ls)).tile = some k
            then { tileOf s s.issue.core k with count := (tileOf s s.issue.core k).count + 1 } else tileOf s s.issue.core k) ∧
    (8 ≤ ((myMatrix s).cmds.filter (·.phase != 1)).length → exec i s = .next (stallIssue (posted s ls)))

namespace Sys2Proof

/-- Where a thread's accumulator coordinates point: row m, columns 2 p and 2 p + 1 (14 R304). -/
def accAt (s : State) (a : BitVec 6) (l : Nat) : Nat := (srcA s a l).toNat % 128 * 256 + 2 * fld (srcA s a l).toNat 14 8

/-- SPCMP's four survivors of the eight bytes of `x` (14 R305): ascending places, each ranked above every other place. -/
def Survivors (format : Nat) (x : Word) (k : List Nat) : Prop :=
  k.length = 4 ∧ k.Pairwise (· < ·) ∧ (∀ i ∈ k, i < 8) ∧
  ∀ i ∈ k, ∀ j < 8, j ∉ k → ranksAbove format x i j = true

end Sys2Proof

/-- 14 R304, R305, 09 R196, 06 R137: ACCZ clears its tile, ACCRD reads two raw words, ACCWR writes them thread by thread, and
all three wait while the tile's count is not zero; SPCMP keeps four of eight elements with their places. -/
def Obligations.AccumulatorWords : Prop :=
  (∀ (c : BitVec 1) (g : BitVec 3) (n : BitVec 2) (ls : List Nat) (s : State), IssuesE (.accz c g n) g ls s →
    (tileOf s s.issue.core n.toNat).count = 0 →
    ∃ t, exec (.accz c g n) s = .next t ∧ OnlyCore (posted s ls) t s.issue.core
      ∧ { coreOf t s.issue.core with matrix := {} } = { coreOf (posted s ls) s.issue.core with matrix := {} }
      ∧ { (coreOf t s.issue.core).matrix with tiles := [] } = { myMatrix s with tiles := [] }
      ∧ ∀ k, tileOf t s.issue.core k = if k = n.toNat then {} else tileOf s s.issue.core k) ∧
  (∀ (c : BitVec 1) (g : BitVec 3) (d a : BitVec 6) (n : BitVec 2) (ls : List Nat) (s : State),
    IssuesE (.accrd c g d a n) g ls s → (tileOf s s.issue.core n.toNat).count = 0 →
    ∃ t, exec (.accrd c g d a n) s = .next t ∧ WritesX (posted s ls) t (rD s d) 8 ls (fun l v =>
      v.toNat = (mget 0 (tileOf s s.issue.core n.toNat).words (accAt s a l)).toNat
        + (mget 0 (tileOf s s.issue.core n.toNat).words (accAt s a l + 1)).toNat * 2 ^ 32)) ∧
  (∀ (c : BitVec 1) (g : BitVec 3) (d a : BitVec 6) (n : BitVec 2) (ls : List Nat) (s : State),
    IssuesE (.accwr c g d a n) g ls s → (tileOf s s.issue.core n.toNat).count = 0 →
    ∃ t, exec (.accwr c g d a n) s = .next t ∧ OnlyCore (posted s ls) t s.issue.core
      ∧ { coreOf t s.issue.core with matrix := {} } = { coreOf (posted s ls) s.issue.core with matrix := {} }
      ∧ { (coreOf t s.issue.core).matrix with tiles := [] } = { myMatrix s with tiles := [] }
      ∧ (∀ k, k ≠ n.toNat → tileOf t s.issue.core k = tileOf s s.issue.core k)
      ∧ (tileOf t s.issue.core n.toNat).int = (tileOf s s.issue.core n.toNat).int
      ∧ (tileOf t s.issue.core n.toNat).count = 0
      ∧ (∀ j, mget 0 (tileOf t s.issue.core n.toNat).words j =
          match (ls.filter fun l => accAt s a l == j / 2 * 2).getLast? with
          | some l => .ofNat 32 ((srcD s d l).toNat / 2 ^ (32 * (j % 2)))
          | none => mget 0 (tileOf s s.issue.core n.toNat).words j)
      ∧ (∀ m, mget 0x3F80 (tileOf t s.issue.core n.toNat).rowBand m = if ∃ l ∈ ls, accAt s a l / 256 = m then 0x3F80
          else mget 0x3F80 (tileOf s s.issue.core n.toNat).rowBand m)
      ∧ ∀ m, mget 0x3F80 (tileOf t s.issue.core n.toNat).colBand m = if ∃ l ∈ ls, accAt s a l % 256 = m / 2 * 2 then 0x3F80
          else mget 0x3F80 (tileOf s s.issue.core n.toNat).colBand m) ∧
  (∀ (i : Instr) (c : BitVec 1) (g : BitVec 3) (d a : BitVec 6) (n : BitVec 2) (ls : List Nat) (s : State),
    i = .accz c g n ∨ i = .accrd c g d a n ∨ i = .accwr c g d a n → IssuesE i g ls s →
    (tileOf s s.issue.core n.toNat).count ≠ 0 → exec i s = .next (stallIssue (posted s ls))) ∧
  ∀ (c : BitVec 1) (g : BitVec 3) (d a : BitVec 6) (f : BitVec 3) (ls : List Nat) (s : State),
    IssuesE (.spcmp c g d a f) g ls s →
    ∃ t m, exec (.spcmp c g d a f) s = .next t
      ∧ WritesX { posted s ls with ctxs := t.ctxs } t (rD s d) 8 ls (fun l v =>
          ∃ k, Survivors (spFormat f) (srcA s a l) k ∧ v.toNat < 2 ^ 44 ∧
            ∀ j < 4, sub_ v 8 j = sub_ (srcA s a l) 8 (k.getD j 0) ∧ v.toNat / 2 ^ (32 + 3 * j) % 8 = k.getD j 0)
      ∧ MergesFlags s t (iWarp s).ctx m
      ∧ (m = flSKIPNF ∨ m = 0) ∧ (m = flSKIPNF ↔ ∃ l ∈ ls, ∃ k, Survivors (spFormat f) (srcA s a l) k ∧
          ∃ j < 8, j ∉ k ∧ nonFinite (elemNum (spFormat f) (sub_ (srcA s a l) 8 j)) = true)

namespace Sys2Proof

/-- Nothing but copy queue `q` of core `c`, and the counts of its tiles, has changed from `s` to `t`. -/
structure OnlyQueue (s t : State) (c q : Nat) : Prop where
  core : OnlyCore s t c
  rest : { coreOf t c with queues := [], matrix := {} } = { coreOf s c with queues := [], matrix := {} }
  matrix : { (coreOf t c).matrix with tiles := [] } = { (coreOf s c).matrix with tiles := [] }
  tiles : ∀ k, { tileOf t c k with count := 0 } = { tileOf s c k with count := 0 }
  queues : ∀ p, p ≠ q → copyQOf t c p = copyQOf s c p

end Sys2Proof

/-- 14 R306, 09 R199, R205, 24 R425: KICK lists a chain head, which starts at once on an idle queue, and counts its tiles; at the
offset where the queue stopped it resumes it; with sixteen heads pending it waits.  QSTAT gives the queue's status word. -/
def Obligations.CopyQueueWords : Prop :=
  (∀ (c : BitVec 1) (g n : BitVec 3) (a : BitVec 6) (m : BitVec 4) (off : Nat) (q : CopyQ) (ls : List Nat) (s : State),
    IssuesE (.kick c g n a m) g ls s → off = (getX (lowest s ls) (rA s a)).toNat % 2 ^ 20 → off % 32 = 0 →
    off + 32 ≤ (iWarp s).padSize → q = copyQOf s s.issue.core n.toNat →
    (q.err = true ∧ q.off = off → ∃ t, exec (.kick c g n a m) s = .next t ∧ OnlyQueue (posted s ls) t s.issue.core n.toNat
      ∧ (∀ k, tileOf t s.issue.core k = tileOf s s.issue.core k)
      ∧ copyQOf t s.issue.core n.toNat = { q with err := false, failed := false }) ∧
    (¬(q.err = true ∧ q.off = off) → q.heads.length < 16 →
      ∃ t, exec (.kick c g n a m) s = .next t ∧ OnlyQueue (posted s ls) t s.issue.core n.toNat
        ∧ (∀ k, tileOf t s.issue.core k = if k < 4 ∧ m.getLsbD k = true
            then { tileOf s s.issue.core k with count := (tileOf s s.issue.core k).count + 1 } else tileOf s s.issue.core k)
        ∧ copyQOf t s.issue.core n.toNat = if q.cur = none
            then { q with kicks := q.kicks + 1, cur := some ⟨off, m.toNat, originOf ls s⟩, off := off }
            else { q with kicks := q.kicks + 1, heads := q.heads ++ [⟨off, m.toNat, originOf ls s⟩] }) ∧
    (¬(q.err = true ∧ q.off = off) → 16 ≤ q.heads.length → exec (.kick c g n a m) s = .next (stallIssue (posted s ls)))) ∧
  ∀ (c : BitVec 1) (g : BitVec 3) (d : BitVec 6) (n : BitVec 3) (q : CopyQ) (ls : List Nat) (s : State),
    IssuesE (.qstat c g d n) g ls s → q = copyQOf s s.issue.core n.toNat → q.heads.length ≤ 16 →
    ∃ t, exec (.qstat c g d n) s = .next t ∧ WritesX (posted s ls) t (rD s d) 8 ls (fun _ v =>
      v.getLsbD 63 = q.err ∧ v.getLsbD 62 = q.cur.isSome ∧ v.getLsbD 61 = q.waitEv ∧ v.getLsbD 60 = q.waitPwr
        ∧ v.getLsbD 59 = q.waitCond ∧ fld v.toNat 58 54 = q.heads.length ∧ fld v.toNat 53 20 = 0 ∧ fld v.toNat 19 0 = q.off % 2 ^ 20)

/-- 14 R296, R306, 09 R208, R209: EVSET pulses its line once, and a full line keeps the overflow; EVCLR clears both.  TIDSET takes
64 bytes of its leader's window, and the leader's later E words wait until TIDSET_COMPLETE has made them the context's entry. -/
def Obligations.EventAndTidWords : Prop :=
  (∀ (c : BitVec 1) (g : BitVec 3) (n : BitVec 5) (ls : List Nat) (s : State), IssuesE (.evset c g n) g ls s →
    ∃ t, exec (.evset c g n) s = .next t ∧ OnlyCore (posted s ls) t s.issue.core
      ∧ { coreOf t s.issue.core with events := [], overflow := 0 } = { coreOf (posted s ls) s.issue.core with events := [], overflow := 0 }
      ∧ (∀ k, mget 0 (coreOf t s.issue.core).events k = if k = n.toNat ∧ mget 0 (coreOf s s.issue.core).events k < 255
          then mget 0 (coreOf s s.issue.core).events k + 1 else mget 0 (coreOf s s.issue.core).events k)
      ∧ ∀ k, (coreOf t s.issue.core).overflow.getLsbD k = ((coreOf s s.issue.core).overflow.getLsbD k ||
          (k == n.toNat && decide (255 ≤ mget 0 (coreOf s s.issue.core).events k)))) ∧
  (∀ (c : BitVec 1) (g : BitVec 3) (n : BitVec 5) (ls : List Nat) (s : State), IssuesE (.evclr c g n) g ls s →
    ∃ t, exec (.evclr c g n) s = .next t ∧ OnlyCore (posted s ls) t s.issue.core
      ∧ { coreOf t s.issue.core with events := [], overflow := 0 } = { coreOf (posted s ls) s.issue.core with events := [], overflow := 0 }
      ∧ (∀ k, mget 0 (coreOf t s.issue.core).events k = if k = n.toNat then 0 else mget 0 (coreOf s s.issue.core).events k)
      ∧ ∀ k, (coreOf t s.issue.core).overflow.getLsbD k = ((coreOf s s.issue.core).overflow.getLsbD k && k != n.toNat)) ∧
  (∀ (c : BitVec 1) (g : BitVec 3) (a b : BitVec 6) (off : Nat) (img : List Byte) (u : State) (ls : List Nat) (s : State),
    IssuesE (.tidset c g a b) g ls s → off = (getX (lowest s ls) (rB s b)).toNat → off % 64 = 0 → off + 64 ≤ (iWarp s).padSize →
    engRead (posted s ls) s.issue.core (iWarp s).ctx 3 ((iWarp s).padBase + off) 64 = (img, u) →
    ∃ t, exec (.tidset c g a b) s = .next t ∧ OnlyCore u t s.issue.core
      ∧ { coreOf t s.issue.core with tidset := [], warps := [] } = { coreOf u s.issue.core with tidset := [], warps := [] }
      ∧ (coreOf t s.issue.core).tidset = (coreOf u s.issue.core).tidset
          ++ [((iWarp s).ctx, (getX (lowest s ls) (rA s a)).toNat % 256, img, s.issue.slot, ls.headD 0)]
      ∧ (∀ w, w ≠ s.issue.slot → warpOf t s.issue.core w = warpOf u s.issue.core w)
      ∧ { iWarp t with lanes := [] } = { iWarp u with lanes := [] }
      ∧ ∀ l, laneOf (iWarp t) l = if l = ls.headD 0 then { laneOf (iWarp u) l with tidWait := true } else laneOf (iWarp u) l) ∧
  ∀ (c ctx n slot l : Nat) (img : List Byte) (rest : List (Nat × Nat × List Byte × Nat × Nat)) (u s : State),
    (coreOf s c).tidset = (ctx, n, img, slot, l) :: rest → ((coreOf s c).unitWait.any fun e => e.1 == 9) = false →
    (coreOf s c).unitFail.contains 9 = false → vwrite ⟨c, ctx, 3⟩ (tidAddr s ctx n) img s = .ok () u →
    ∃ t, exec (.tidsetComplete c) s = .next t ∧ OnlyCore (deliverAll u) t c ∧ (coreOf t c).tidset = rest
      ∧ { coreOf t c with tidset := [], warps := [] } = { coreOf (deliverAll u) c with tidset := [], warps := [] }
      ∧ (∀ w, w ≠ slot → warpOf t c w = warpOf (deliverAll u) c w)
      ∧ ∀ k, laneOf (warpOf t c slot) k = if k = l ∧ ∀ e ∈ rest, ¬(e.2.2.2.1 = slot ∧ e.2.2.2.2 = l)
          then { laneOf (warpOf (deliverAll u) c slot) k with tidWait := false } else laneOf (warpOf (deliverAll u) c slot) k

namespace Sys2Proof

/-- A word that reads memory for each of its threads in turn and gives each a register, `lat` clk later. -/
structure RForm where
  g : BitVec 3
  d : BitVec 6
  lat : Nat
  legal : State → Nat → Prop
  read : State → Nat → M Word

/-- TIDGET, ECOL, ESPAN (14 R296, 15 R312, R313). -/
def readForm : Instr → Option RForm
  | .tidget _ g d a => some ⟨g, d, 8, fun _ _ => True, fun s l => do
      let x := (srcA s a l).toNat
      return .ofNat 64 ((← tidRead (iWho s 3) (x % 256) true) / 2 ^ (64 * fld x 10 8))⟩
  | .ecol _ g d a b => some ⟨g, d, 1, fun _ _ => True, fun s l => do
      return .ofNat 64 (← ecol (iWho s 6) (iLaunch s) (srcA s a l).toNat ((srcB s b l).toNat % 1024) (bitAt (srcB s b l).toNat 16))⟩
  | .espan _ g d a b => some ⟨g, d, 1, fun s l => (srcA s a l).toNat < 2 ^ 57 ∧ (srcA s a l).toNat % 64 = 0, fun s l => do
      return .ofNat 64 (← espan (iWho s 6) (iLaunch s) (srcA s a l).toNat (srcB s b l).toNat)⟩
  | _ => none

/-- What each thread of `ls` was answered. -/
def answered {α : Type} (ls : List Nat) (vs : List α) (l : Nat) (v : α) : Prop := ∃ j : Nat, ls[j]? = some l ∧ vs[j]? = some v

end Sys2Proof

/-- 14 R296, R307, 15 R311-R313, 07 R140, R147: TIDGET, ECOL, ESPAN, FETCH and EREF read for their threads in turn and write
their registers when every read was answered.  EREF answers the null handle with all ones and false, a handle of a valid world
with its entity's row, or the void reference and false where the locator is not the handle's. -/
def Obligations.InlineReads : Prop :=
  (∀ (i : Instr) (F : RForm) (ls : List Nat) (vs : List Word) (s u : State), readForm i = some F → IssuesE i F.g ls s →
    (∀ l ∈ ls, F.legal s l) → (ls.mapM (F.read (posted s ls))) (posted s ls) = .ok vs u →
    ∃ t, exec i s = .next t ∧ WritesX u t (rD u F.d) F.lat ls (answered ls vs)) ∧
  (∀ (c : BitVec 1) (g : BitVec 3) (d a b : BitVec 6) (ls : List Nat) (vs : List (Word × Nat)) (s u : State),
    IssuesE (.fetch c g d a b) g ls s → (∀ l ∈ ls, (laneOf (iWarp s) l).flushWait = false) →
    (ls.mapM fun l => fetchLane (iWho s 5) (srcA s a l) (getX (iLane s l) (rA s a + 1)) (srcB s b l)) (posted s ls) = .ok vs u →
    ∃ t f, exec (.fetch c g d a b) s = .next t
      ∧ WritesX { u with ctxs := t.ctxs } t (rD u d) 1 ls (fun l v => ∃ e, answered ls vs l (v, e))
      ∧ MergesFlags u t (iWarp u).ctx f ∧ ∀ j, f.testBit j = true ↔ ∃ e ∈ vs, e.2.testBit j = true) ∧
  (∀ (c : BitVec 1) (g p : BitVec 3) (d a : BitVec 6) (ls : List Nat) (vs : List (Nat × Bool)) (s u : State),
    IssuesE (.eref c g d a p) g ls s → (ls.mapM fun l => eref (iWho s 6) (srcA s a l).toNat) (posted s ls) = .ok vs u →
    ∃ x t, exec (.eref c g d a p) s = .next t
      ∧ WritesX u x (rD u d) 1 ls (fun l v => ∃ n b, answered ls vs l (n, b) ∧ v = .ofNat 64 n)
      ∧ WritesP x t p.toNat 1 ls (fun l b => ∃ n, answered ls vs l (n, b))) ∧
  (∀ (w : Who) (s : State), eref w 0 s = .ok (2 ^ 64 - 1, false) s) ∧
  ∀ (w : Who) (h l : Nat) (x : World) (s u v : State), h ≠ 0 → worldGet w (fld h 63 56) s = .ok (some x) u →
    h < 2 ^ 64 → locRead w x (fld h 31 0) u = .ok l v →
    eref w h s = .ok (if fld l 55 54 = 2 ∧ fld l 127 104 = fld h 55 32
      then (x.num * 2 ^ 56 + fld l 103 88 * 2 ^ 40 + fld l 87 66 * 2 ^ 18 + fld l 65 56 * 2 ^ 8, true)
      else (x.num * 2 ^ 56 + (2 ^ 56 - 1), false)) v

namespace Sys2Proof

/-- An edit word: its guard, OP (07 R150), and what thread `l` asks for: the world's number, the handle, the component type and
the value; nothing for the null handle (15 R314). -/
structure EForm where
  g : BitVec 3
  op : Nat
  ask : State → Nat → Option (Nat × Nat × Nat × Nat)

/-- ENEW, EDEL, EADD, EREM (07 R149, 15 R314). -/
def editForm : Instr → Option EForm
  | .enew _ g _ a b => some ⟨g, 4, fun s l => some ((srcA s a l).toNat % 256, 0, 0, (srcB s b l).toNat % 65536)⟩
  | .edel _ g a => some ⟨g, 1, fun s l => if srcA s a l = 0 then none else some (fld (srcA s a l).toNat 63 56, (srcA s a l).toNat, 0, 0)⟩
  | .eadd _ g d a b => some ⟨g, 2, fun s l => if srcA s a l = 0 then none else
      some (fld (srcA s a l).toNat 63 56, (srcA s a l).toNat, (srcB s b l).toNat % 1024, (srcD s d l).toNat)⟩
  | .erem _ g a b => some ⟨g, 3, fun s l => if srcA s a l = 0 then none else
      some (fld (srcA s a l).toNat 63 56, (srcA s a l).toNat, (srcB s b l).toNat % 1024, 0)⟩
  | _ => none

/-- What an edit word does: every asking thread's world is checked first, then each thread claims and writes its record, in
lane order (15 R315). -/
def editsRun (F : EForm) (s : State) (ls : List Nat) : M (List (Nat × Word)) := do
  let asks := ls.filterMap fun l => (F.ask s l).map fun e => (l, e)
  let worlds ← asks.mapM fun e => do return (e, ← editWorld (iWho s 6) (iLaunch s) e.2.1)
  worlds.mapM fun e => do return (e.1.1, .ofNat 64 (← editLane (iWho s 6) (iLaunch s) (iWarp s).launch (gtidOf s e.1.1) F.op
    e.1.2.2.1 e.1.2.2.2.1 e.1.2.2.2.2 ((iWarp s).kind == .grid) e.2))

end Sys2Proof

/-- 07 R149-R151, 15 R314, R315: an edit word completes once every thread's edit has been made; ENEW gives each thread its
provisional handle.  An edit under its launch's limits claims the next record of the world's queue, writes SYSSEQ, GTID, ECOUNT,
OP, type, handle and value there, and its thread's ECOUNT rises; with the queue full it counts EDROP and answers 0. -/
def Obligations.EditsEnterTheQueue : Prop :=
  (∀ (i : Instr) (F : EForm) (ls : List Nat) (vs : List (Nat × Word)) (s u : State), editForm i = some F → IssuesE i F.g ls s →
    editsRun F (posted s ls) ls (posted s ls) = .ok vs u →
    ∃ t, exec i s = .next t ∧ match i with
      | .enew _ _ d _ _ => WritesX u t (rD u d) 1 ls (fun l v => (l, v) ∈ vs)
      | _ => t = u) ∧
  (∀ (w : Who) (la : Launch) (tag gtid op h comp value n e : Nat) (grid : Bool) (x : World) (s u v : State),
    n = mget 0 (ctxOf s w.ctx).ecount (tag * 2 ^ 40 + gtid) → n < 2 ^ 24 → (grid = true → gtid < 2 ^ 39) → op ≠ 4 →
    worldAtomic w x 16 (fun k => if k < x.eqCap then some (k + 1) else none) s = .ok e u → e < x.eqCap →
    vwrite w (x.eqBase + 32 * e) (leBytes 32 (la.sysseq % 2 ^ 32 * 2 ^ 224 + gtid * 2 ^ 184 + n * 2 ^ 160 + op * 2 ^ 152
      + comp * 2 ^ 128 + h * 2 ^ 64 + value)) u = .ok () v →
    editLane w la tag gtid op h comp value grid x s
      = .ok 0 (modCtx v w.ctx fun k => { k with ecount := mput 0 k.ecount (tag * 2 ^ 40 + gtid) (n + 1) })) ∧
  ∀ (w : Who) (la : Launch) (tag gtid op h comp value e o : Nat) (grid : Bool) (x : World) (s u v : State),
    mget 0 (ctxOf s w.ctx).ecount (tag * 2 ^ 40 + gtid) < 2 ^ 24 → (grid = true → gtid < 2 ^ 39) →
    worldAtomic w x 16 (fun k => if k < x.eqCap then some (k + 1) else none) s = .ok e u → x.eqCap ≤ e →
    worldAtomic w x 24 (fun k => some (min (k + 1) 0xFFFFFFFF)) u = .ok o v →
    editLane w la tag gtid op h comp value grid x s = .ok 0 v

/-- 07 R160, 15 R317: VOPEN reads each thread's world with acquire, then takes for each the lowest view slot that is not open and
answers its token; while a sync point of one of the worlds runs, it waits in its threads' program order, its register alone
pending, and opens its view when that ends.  VCLOSE clears OPEN of the slots that its tokens name. -/
def Obligations.ViewsOpenAndClose : Prop :=
  (∀ (c : BitVec 1) (g : BitVec 3) (d a : BitVec 6) (ls : List Nat) (xs : List World) (vs : List Nat) (s u v : State),
    IssuesE (.vopen c g d a) g ls s → syncRunning (posted s ls) ls a = false →
    (ls.mapM fun l => worldAcquire (iWho s 6) ((srcA s a l).toNat % 256)) (posted s ls) = .ok (xs.map some) u →
    (xs.mapM fun x => vopenSlot (iWho s 6) x 256 0) u = .ok vs v →
    ∃ t, exec (.vopen c g d a) s = .next t ∧ WritesX v t (rD v d) 1 ls (fun l y => ∃ n, answered ls vs l n ∧ y = .ofNat 64 n)) ∧
  (∀ (c : BitVec 1) (g : BitVec 3) (d a : BitVec 6) (ls : List Nat) (s : State), IssuesE (.vopen c g d a) g ls s →
    syncRunning (posted s ls) ls a = true →
    ∀ (xs : List World) (u : State), (ls.mapM fun l => worldAcquire (iWho s 6) ((srcA s a l).toNat % 256)) (posted s ls) = .ok (xs.map some) u →
    ∃ t, exec (.vopen c g d a) s = .next t ∧ FrontGains u t ls (fun l => entryOf u
        { kind := .vopen, ord := 4, dst := rD u d, x1 := .ofNat 64 ((srcA u a l).toNat % 256) })
      ∧ (iWarp t).board = if rD u d = 0 then (iWarp u).board else (iWarp u).board ++ [⟨0, rD u d, maskOf ls, 0⟩]) ∧
  (∀ (c slot l i n : Nat) (e : Access) (x y : World) (w : Who) (s u v : State), entryAt s c slot l i = some e → e.kind = .vopen →
    e.wait = none → (∀ k < l, ∀ f ∈ (laneOf (warpOf s c slot) k).front, sameWord e f = false) →
    w = ⟨c, (warpOf s c slot).ctx, 6⟩ → quiet s (worldGet w e.x1.toNat) = some (some x) → x.syncPos = 0 →
    worldAcquire w e.x1.toNat s = .ok (some y) u → vopenSlot w y 256 0 u = .ok n v →
    exec (.loadPerform c slot l i) s = .next (deliverX (dropEntry v c slot l i) c slot l e.dst (.ofNat 64 n))) ∧
  (∀ (w : Who) (x : World) (n k old : Nat) (s u : State),
    vatomic w (x.views + 16 * k) 8 (fun v => if bitAt v 63 then none else some (2 ^ 63 + w.ctx % 64 * 2 ^ 48 + x.version)) s = .ok old u →
    vopenSlot w x (n + 1) k s = if bitAt old 63 then vopenSlot w x n (k + 1) u
      else .ok (x.num * 2 ^ 56 + k * 2 ^ 48 + x.version) u) ∧
  (∀ (c : BitVec 1) (g : BitVec 3) (a : BitVec 6) (ls : List Nat) (vs : List Unit) (s u : State),
    IssuesE (.vclose c g a) g ls s → (ls.mapM fun l => vcloseTok (iWho s 6) (srcA s a l).toNat) (posted s ls) = .ok vs u →
    exec (.vclose c g a) s = .next u) ∧
  ∀ (w : Who) (x : World) (tok old : Nat) (s u v : State), worldGet w (tok / 2 ^ 56) s = .ok (some x) u →
    vatomic w (x.views + 16 * fld tok 55 48) 8 (fun k => if bitAt k 63 && fld k 53 48 == w.ctx % 64 && fld k 47 0 == fld tok 47 0
      then some (k - 2 ^ 63) else none) u = .ok old v →
    vcloseTok w tok s = .ok () v

namespace Sys2Proof

/-- SPAWN's pushes in lane order: a thread's counter rises before its frame is pushed (15 R322). -/
def spawnAll (w : Who) : List Frame → M Unit
  | [] => pure ()
  | f :: t => do
    if f.join != 0 then
      let _ ← vatomic w f.join 8 fun v => some ((v + 1) % 2 ^ 64)
    modify fun s => modCore s w.core fun k => { k with deck := k.deck ++ [f] }
    spawnAll w t

/-- TDONE's counters fall in lane order (15 R324). -/
def doneAll (w : Who) : List Word → M Unit
  | [] => pure ()
  | j :: t => do
    if j != 0 then
      let _ ← vatomic w j.toNat 8 fun v => some ((v + 2 ^ 64 - 1) % 2 ^ 64)
    doneAll w t

/-- SPAWN's operands are legal (15 R322). -/
def SpawnLegal (s : State) (a : BitVec 6) (l : Nat) : Prop :=
  (srcA s a l).toNat % 4 = 0 ∧ (getX (iLane s l) (rA s a + 1)).toNat < 2 ^ 57 ∧ (getX (iLane s l) (rA s a + 1)).toNat % 8 = 0

end Sys2Proof

/-- 15 R322, R324, R325: SPAWN counts up each join counter and pushes a frame for each thread, TDONE counts down and ends its
threads, LQPUB sends each thread's packet to its queue's arbiter. -/
def Obligations.TaskWords : Prop :=
  (∀ (c : BitVec 1) (g : BitVec 3) (a : BitVec 6) (ls : List Nat) (s u : State), IssuesE (.spawn c g a) g ls s →
    (∀ l ∈ ls, SpawnLegal s a l) → deckRoom (posted s ls) (iWarp s).ctx s.issue.core ls.length = true →
    answersHeld (coreOf s s.issue.core) = false → deckCount (coreOf s s.issue.core) + ls.length ≤ 256 →
    spawnAll (iWho s) (ls.map fun l => frameOf (srcA s a l).toNat (getX (iLane s l) (rA s a + 1)).toNat
      ((List.range 6).map fun k => (getX (iLane s l) (rA s a + (k + 2))).toNat) (iWarp s).launch) (posted s ls) = .ok () u →
    exec (.spawn c g a) s = .next u) ∧
  (∀ (c : BitVec 1) (g : BitVec 3) (a : BitVec 6) (ls : List Nat) (s u v : State), IssuesE (.spawn c g a) g ls s →
    (∀ l ∈ ls, SpawnLegal s a l) → deckRoom (posted s ls) (iWarp s).ctx s.issue.core ls.length = true →
    answersHeld (coreOf s s.issue.core) = false → 256 < deckCount (coreOf s s.issue.core) + ls.length → spill (iWho s) (posted s ls) = .ok () u →
    spawnAll (iWho s) (ls.map fun l => frameOf (srcA s a l).toNat (getX (iLane s l) (rA s a + 1)).toNat
      ((List.range 6).map fun k => (getX (iLane s l) (rA s a + (k + 2))).toNat) (iWarp s).launch) u = .ok () v →
    exec (.spawn c g a) s = .next v) ∧
  (∀ (c : BitVec 1) (g : BitVec 3) (ls : List Nat) (s u : State), IssuesE (.tdone c g) g ls s →
    (∀ l ∈ ls, (getX (iLane s l) 7).toNat < 2 ^ 57 ∧ (getX (iLane s l) 7).toNat % 8 = 0) →
    doneAll (iWho s) (ls.map fun l => getX (iLane s l) 7) (posted s ls) = .ok () u →
    exec (.tdone c g) s = .next (exitLanes u.issue.core u.issue.slot ls { u with issue := { u.issue with moved := u.issue.moved ||| maskOf ls } })) ∧
  ∀ (c : BitVec 1) (g : BitVec 3) (a b : BitVec 6) (ls : List Nat) (s : State), IssuesE (.lqpub c g a b) g ls s →
    (∀ l ∈ ls, (srcB s b l).toNat % 8 = 0) →
    ∃ t, exec (.lqpub c g a b) s = .next t ∧ { t with ctxs := [] } = { posted s ls with ctxs := [] }
      ∧ (∀ x, x ≠ (iWarp s).ctx → ctxOf t x = ctxOf s x)
      ∧ { ctxOf t (iWarp s).ctx with queues := [] } = { ctxOf s (iWarp s).ctx with queues := [] }
      ∧ ∀ q, queueOf t (iWarp s).ctx q = { queueOf s (iWarp s).ctx q with
          arriving := (queueOf s (iWarp s).ctx q).arriving ++
            (ls.filter fun l => (srcA s a l).toNat % 64 == q).map (fun l => ((srcB s b l).toNat, (iWarp s).launch)) }

namespace Sys2Proof

/-- The query of a record that has just been read, before any check of its scene (08 R178). -/
def freshQuery (ray : Bool) (ctx launch addr v : Nat) : Query :=
  { ray := ray, addr := addr, image := v, ctx := ctx, launch := launch, stack := [2 ^ 30] }

end Sys2Proof

/-- 15 R319-R321, 08 R176: BEAMQ and RAYQ read every thread's record, then hand them to the beam engine in lane order; a record that
is no split one enters with its reason, 0 for a well-formed one, after its join counter has risen; with the engine full they wait. -/
def Obligations.BeamWords : Prop :=
  (∀ (i : Instr) (ray : Bool) (c : BitVec 1) (g : BitVec 3) (a : BitVec 6) (n : Nat) (ls vs : List Nat) (s u v : State),
    (i = .beamq c g a ∧ ray = false ∧ n = 128) ∨ (i = .rayq c g a ∧ ray = true ∧ n = 64) → IssuesE i g ls s →
    (∀ l ∈ ls, (srcA s a l).toNat < 2 ^ 57 ∧ (srcA s a l).toNat % n = 0) →
    (queriesHeld (posted s ls) s.issue.core + ls.length ≤ 64 →
      (ls.mapM fun l => vreadN (iWho s 4) (srcA s a l).toNat n) (posted s ls) = .ok vs u →
      ((ls.zip vs).mapM fun e => acceptQuery (iWho s 4) ray (iWarp s).launch (srcA s a e.1).toNat e.2) u = .ok (ls.map fun _ => ()) v →
      exec i s = .next v) ∧
    (64 < queriesHeld (posted s ls) s.issue.core + ls.length → exec i s = .next (stallIssue (posted s ls)))) ∧
  ∀ (w : Who) (ray : Bool) (launch addr v : Nat) (s u : State), (ray = true ∨ bitAt v 42 = false) →
    joinAdd w (beamOf ray v).join 1 s = .ok () u →
    acceptQuery w ray launch addr v true s = .ok () (modCore u w.core fun k =>
      { k with beams := k.beams ++ [{ freshQuery ray w.ctx launch addr v with bad := recordReason ray v none }] })

namespace Sys2Proof

/-- A fault `f` has been taken (22 R389-R392): the group of its warp is halted and has one record more, which names the cause, the
warp's slot, the lanes, the PC and the group's words; the lanes issue nothing further, every warp of the group that could go on
halts after its skid, and no other warp is touched. -/
structure FaultTaken (f : FaultInfo) (s t : State) : Prop where
  halted : (groupOf t f.core (warpOf s f.core f.slot).group).halted = true
  record : ∃ r, (groupOf t f.core (warpOf s f.core f.slot).group).recs
      = (groupOf s f.core (warpOf s f.core f.slot).group).recs ++ [r]
    ∧ r.cause = f.cause ∧ r.slot = f.slot ∧ r.lanes = f.lanes ∧ r.pc = f.pc ∧ r.words = f.words ∧ r.given = false
    ∧ (r.state = 0 ∨ r.state = 4)
  stopped : ∀ l, laneOf (warpOf t f.core f.slot) l = if l < 32 ∧ f.lanes.getLsbD l = true
    then { laneOf (warpOf s f.core f.slot) l with stopped := true } else laneOf (warpOf s f.core f.slot) l
  halting : ∀ sl ∈ (groupOf s f.core (warpOf s f.core f.slot).group).slots,
    (warpOf s f.core sl).st ∈ [WarpSt.ready, .current, .parked, .loading] → (warpOf t f.core sl).halting = true
  others : ∀ c sl, ¬(c = f.core ∧ (sl = f.slot ∨ sl ∈ (groupOf s f.core (warpOf s f.core f.slot).group).slots)) →
    warpOf t c sl = warpOf s c sl

/-- What a word that raises a fault at its issue tells its record: the acting threads stand at the group (22 R389, R392). -/
def issueInfo (s : State) (cause : Nat) (addr : Word) (ls : List Nat) : FaultInfo :=
  { cause := cause, addr := addr, core := s.issue.core, slot := s.issue.slot, lanes := maskOf ls, pc := s.issue.gpc,
    words := s.issue.words.length, widx := s.issue.widx, word := s.issue.words.getD s.issue.widx 0, reps := iReps s }

/-- The fields of a fault's record fit their places (22 R392): its numbers are in their ranges, its halt table's address too. -/
structure RecordFits (f : FaultInfo) (s : State) : Prop where
  table : saveImage s (warpOf s f.core f.slot).ctx f.core + 0x1000000 ≤ 2 ^ 64
  tabs : (groupOf s f.core (warpOf s f.core f.slot).group).haltTab ≤ 64
  word : f.word < 2 ^ 32
  cause : f.cause < 2 ^ 8
  place : f.core < 2 ^ 8 ∧ f.slot < 2 ^ 6
  rep : f.rep = none
  warp : (warpOf s f.core f.slot).windex < 2 ^ 6
  group : (groupOf s f.core (warpOf s f.core f.slot).group).index < 2 ^ 32
  fragment : (laneOf (warpOf s f.core f.slot) ((lanesOf f.lanes).headD 0)).fid < 2 ^ 8
    ∧ (laneOf (warpOf s f.core f.slot) ((lanesOf f.lanes).headD 0)).parent < 2 ^ 8

/-- The image of a fault's record holds its ADDR, WORD, LANES, CAUSE, CORE, SLOT and PC (22 R392). -/
def RecordHolds (f : FaultInfo) (image : Nat) : Prop :=
  fld image 447 384 = f.addr.toNat ∧ fld image 319 288 = f.word ∧ fld image 287 256 = f.lanes.toNat
  ∧ fld image 207 200 = f.cause ∧ fld image 199 192 = f.core ∧ fld image 185 180 = f.slot ∧ fld image 127 80 = f.pc % 2 ^ 48

end Sys2Proof

/-- 15 R326, 22 R389, R392, R395: TRAP and BKPT complete by taking SOFTWARE_TRAP (0x12) and BREAKPOINT (0x13) for the threads
whose guard is true.  The group ends and no word of it writes; the work-group halts and takes a record, whose ADDR is the
immediate; a handler's warp ends instead, and the records of its group that were open take STATE 4.  A bundle in which no guard
is true changes nothing, and so advances. -/
def Obligations.TrapsTakeTheirFault : Prop :=
  (∀ (i : Instr) (c : BitVec 1) (g : BitVec 3) (n : BitVec 12) (cause : Nat) (ls : List Nat) (s : State),
    (i = .trap c g n ∧ cause = 0x12) ∨ (i = .bkpt c g n ∧ cause = 0x13) → Issues i g ls s →
    ∃ t, exec i s = .next t ∧ t.issue = { s.issue with fault := true }
      ∧ ((iWarp s).kind ≠ .handler → FaultTaken (issueInfo s cause (.ofNat 64 n.toNat) ls) s t
        ∧ (RecordFits (issueInfo s cause (.ofNat 64 n.toNat) ls) s →
          ∀ r, (groupOf t s.issue.core (iWarp s).group).recs.getLast? = some r →
            RecordHolds (issueInfo s cause (.ofNat 64 n.toNat) ls) r.image))
      ∧ ((iWarp s).kind = .handler → (∀ l < 32, (laneOf (iWarp t) l).st = .exited)
        ∧ ∀ r ∈ (groupOf t s.issue.core (myGroup s).handles).recs, r.state ≠ 0)) ∧
  ∀ (i : Instr) (c : BitVec 1) (g : BitVec 3) (n : BitVec 12) (s : State), i = .trap c g n ∨ i = .bkpt c g n →
    actLanes s g = [] → badReg s i = none → exec i s = .next s

namespace Sys2Proof

/-- One thread's RESUME under a mode, from state `s` to `t` (15 R327, 22 R395). -/
def Resumes (mode l : Nat) (xa : Word) (s t : State) : Prop :=
  -- a thread that does not hold the record that it names: RESUME_MISMATCH is logged, and nothing else happens
  ((laneOf (iWarp s) l).trapRec = 0 ∨ (laneOf (iWarp s) l).trapRec ≠ xa →
    t = logCore s s.issue.core (iWarp s).ctx 0x44 xa.toNat 0) ∧
  -- mode .end on a record of a group of this core that is not being saved or loaded: its threads exit, its records are freed
  (∀ g i, xa ≠ 0 → (laneOf (iWarp s) l).trapRec = xa → mode = 3 → findRec s s.issue.core xa.toNat = some (g, i) →
    groupAway s s.issue.core (groupOf s s.issue.core g) = false →
    (groupOf t s.issue.core g).recs = [] ∧ (groupOf t s.issue.core g).halted = false ∧
    ∀ sl ∈ (groupOf s s.issue.core g).slots, ∀ k < 32, (laneOf (warpOf t s.issue.core sl) k).st = .exited) ∧
  -- .replay and .skip on the only record of a halted group: its threads stand at the faulting group, or past it
  (∀ g r u, xa ≠ 0 → (laneOf (iWarp s) l).trapRec = xa → mode = 1 ∨ mode = 2 → findRec s s.issue.core xa.toNat = some (g, 0) →
    (groupOf s s.issue.core g).recs = [r] → r.byCommand = false → r.watchdog = false → r.reps = 0 →
    (∀ sl ∈ (groupOf s s.issue.core g).slots, (warpOf s s.issue.core sl).st = .halted) →
    r.slot ∈ (groupOf s s.issue.core g).slots → r.slot ≠ s.issue.slot → s.issue.slot ∉ (groupOf s s.issue.core g).slots →
    vwrite ⟨s.issue.core, (groupOf s s.issue.core g).ctx, 0⟩ xa.toNat (leBytes 64 (r.image / 8 * 8 + mode))
      (modGroup (iModLane s l fun k => { k with trapRec := 0 }) s.issue.core g fun k =>
        { k with recs := [{ r with state := mode }] }) = .ok () u →
    (groupOf t s.issue.core g).recs = [] ∧ (groupOf t s.issue.core g).halted = false
      ∧ (∀ sl ∈ (groupOf s s.issue.core g).slots, (warpOf t s.issue.core sl).halting = false)
      ∧ ∀ k < 32, r.lanes.getLsbD k = true → (laneOf (warpOf s s.issue.core r.slot) k).st = .ready →
          (laneOf (warpOf t s.issue.core r.slot) k).stopped = false ∧
          (laneOf (warpOf t s.issue.core r.slot) k).pc = if mode = 1 then r.pc else r.pc + 4 * r.words)

end Sys2Proof

/-- 15 R327, 22 R395: RESUME in each of its modes acts for its threads in lane order, as an acquire at .package. -/
def Obligations.ResumeActsOnItsRecord : Prop :=
  ∀ (i : Instr) (mode : Nat) (c : BitVec 1) (g : BitVec 3) (a : BitVec 6) (ls : List Nat) (s : State),
    (i = .resumeReplay c g a ∧ mode = 1) ∨ (i = .resumeSkip c g a ∧ mode = 2) ∨ (i = .resumeEnd c g a ∧ mode = 3) →
    IssuesE i g ls s →
    (∃ f : Nat → State, f 0 = deliverAll (posted s ls) ∧ exec i s = .next (f ls.length)
      ∧ ∀ j (h : j < ls.length), Resumes mode ls[j] (getX (iLane (f j) ls[j]) (rA (f j) a)) (f j) (f (j + 1)))

/-! ## Steps without an encoding: power, warps, saves -/

namespace Sys2Proof

/-- A request for leave has entered a sector's list, in which `old` waited: behind all but those of its own clk that R21 puts
after it. -/
def Entered (old new : List LeaveReq) (q : LeaveReq) : Prop :=
  new = old.takeWhile (fun r => !laterRequest r q) ++ q :: old.dropWhile (fun r => !laterRequest r q)

end Sys2Proof

/-- 01 R20-R23, 24 R432: POWER_ON and POWER_OFF leave nothing of the work; PGLIM takes what the package's 3,800 W leave; a command's
or copy's request waits in its sector until its charge fits, the oldest first, those of one clk by core and number; THROTTLED tells
of a request older than 200 ns. -/
def Obligations.PowerSteps : Prop :=
  (∀ s : State, exec .powerOn s = .next (if s.on then s else { State.reset with choice := s.choice, agenda := s.agenda })) ∧
  (∀ s : State, exec .powerOff s = .next { State.reset with on := false, choice := s.choice, agenda := s.agenda }) ∧
  (∀ (x : Nat) (v : Word) (s : State), s.mgmt.ready = true → x < 4 → PowerWithin s →
    (∀ r ∈ (sectorOf s x).requests, secOf r.core = x) → ∃ t, exec (.pglimWrite x v) s = .next t
      ∧ pglim t x = min (v.toNat % 65536) (3800 - (s.power.lim0 + s.power.lim1 + s.power.lim2 + s.power.lim3 - pglim s x))
      ∧ (∀ y < 4, y ≠ x → pglim t y = pglim s y)
      ∧ (∀ y < 4, t.power.clamped.getLsbD y = (s.power.clamped.getLsbD y || (y == x && decide (pglim t x < v.toNat % 65536))))
      ∧ (∀ r ∈ (sectorOf t x).requests, 380 + r.watts ≤ pglim t x)
      ∧ ((sectorOf s x).requests = [] → { t with power := {} } = { s with power := {} })) ∧
  (∀ (c u : Nat) (s : State), u < 8 → (copyQOf s c u).waitPwr = true → (copyQOf s c u).leave = 0 → (copyQOf s c u).err = false →
    (383 ≤ pglim s (secOf c) → ∃ t, exec (.leaveRequest c u) s = .next t
      ∧ Entered (sectorOf s (secOf c)).requests (sectorOf t (secOf c)).requests
          { core := c, unit_ := u, watts := 3, since := s.clk, ctx := (curHead (copyQOf s c u)).src.ctx, rank := u }
      ∧ copyQOf t c u = { copyQOf s c u with leave := 1 }) ∧
    (pglim s (secOf c) < 383 → ∃ t, exec (.leaveRequest c u) s = .next t
      ∧ copyQOf t c u = { copyQOf s c u with err := true, waitPwr := false, started := false, leave := 0 })) ∧
  (∀ (c i w : Nat) (x : MCmd) (n : Tensor) (s u : State), ((cmdsOf s c).findIdx? fun y => y.phase == 0) = some i →
    (cmdsOf s c)[i]? = some x → cmdTensor c x s = .done n u → w = cmdWatts u c x n → w ≠ 0 → x.leave = 0 →
    nextCmd u c i n = true → bitAt x.cmd.toNat 63 = false → 380 + w ≤ pglim u (secOf c) → cmdsOf u c = cmdsOf s c →
    ∃ t, exec (.leaveRequest c 8) s = .next t
      ∧ Entered (sectorOf u (secOf c)).requests (sectorOf t (secOf c)).requests
          { core := c, unit_ := 8, watts := w, since := u.clk, ctx := x.src.ctx, rank := x.src.slot / 16 }
      ∧ (cmdsOf t c)[i]? = some { x with leave := 1, watts := w }) ∧
  (∀ (x : Nat) (r : LeaveReq) (rest : List LeaveReq) (s : State), (sectorOf s x).requests = r :: rest →
    committed s x + r.watts ≤ pglim s x →
    ∃ t, exec (.leaveGrant x) s = .next t ∧ (sectorOf t x).requests = rest ∧ (sectorOf t x).held = (sectorOf s x).held ++ [r]
      ∧ (x < 4 → r.since + 280 < s.clk → t.power.throttled.getLsbD x = true)
      ∧ (r.unit_ ≠ 8 → copyQOf t r.core r.unit_ = { copyQOf s r.core r.unit_ with leave := 2 })
      ∧ ∀ i y, r.unit_ = 8 → ((cmdsOf s r.core).findIdx? fun z => z.leave == 1) = some i → (cmdsOf s r.core)[i]? = some y →
          (cmdsOf t r.core)[i]? = some { y with leave := 2 }) ∧
  ∀ (x : Nat) (s : State), x < 4 → s.power.throttled.getLsbD x = false → (∃ r ∈ (sectorOf s x).requests, r.since + 280 < s.clk) →
    exec (.throttled x) s = .next { s with power := { s.power with throttled := s.power.throttled ||| (1#4 <<< x) } }

/-- 01 R22: no step lets the four power limits sum to more than 3,800 W. -/
def Obligations.PowerWithinKept : Prop := ∀ s t : State, PowerWithin s → step s = .next t → PowerWithin t

namespace Sys2Proof

/-- Class of a thread in the sorted PC table: starved ready ones, other ready ones, parked, exited (02 R25). -/
def pcClass (w : Warp) (l : Nat) : Nat :=
  match (laneOf w l).st with
  | .ready => if 32 ≤ (laneOf w l).skip then 0 else 1
  | .parked => 2
  | .exited => 3

/-- Does thread `a` stand before thread `b` in the sorted PC table?  Ready ones rise by PC, equal PCs and the rest by lane. -/
def standsBefore (w : Warp) (a b : Nat) : Prop :=
  pcClass w a < pcClass w b ∨ pcClass w a = pcClass w b ∧
    (if pcClass w a < 2 then (laneOf w a).pc < (laneOf w b).pc ∨ ((laneOf w a).pc = (laneOf w b).pc ∧ a < b) else a < b)

/-- Nothing but warp `slot` of core `c`, its scheduler's choice, and the time since which its group is parked, has changed. -/
structure OnlySlot (s t : State) (c slot : Nat) : Prop where
  core : OnlyCore s t c
  rest : { coreOf t c with warps := [], groups := [], cur := [] } = { coreOf s c with warps := [], groups := [], cur := [] }
  groups : ∀ g, { groupOf t c g with parkedSince := none } = { groupOf s c g with parkedSince := none }
  warps : ∀ w, w ≠ slot → warpOf t c w = warpOf s c w

/-- A thread that leaves its wait (02 R36): ready at the group after the one that parked it. -/
def woken (x : Lane) : Lane := { x with st := .ready, pc := (x.pc + 4 * x.park.words) % 2 ^ 48, skip := 0, park := {} }

/-- Thread `l` of a warp is parked with PARKKIND `kind`, and its warp may go on. -/
structure ParkedAt (s : State) (c slot l kind : Nat) : Prop where
  lane : l < 32
  st : (laneOf (warpOf s c slot) l).st = .parked
  on : (laneOf (warpOf s c slot) l).stopped = false
  warp : (warpOf s c slot).st = .ready ∨ (warpOf s c slot).st = .current ∨ (warpOf s c slot).st = .parked
  kind : (laneOf (warpOf s c slot) l).park.kind = kind

end Sys2Proof

/-- 02 R25, R34-R37, R40, 12 R267, R270, 22 R391: the steps of a warp slot. -/
def Obligations.WarpSteps : Prop :=
  -- PC_TABLE_RESORT
  (∀ (c slot : Nat) (s : State), (warpOf s c slot).st ≠ .free →
    ∃ t, exec (.pcTableResort c slot) s = .next t ∧ OnlySlot s t c slot
      ∧ { warpOf t c slot with order := [] } = { warpOf s c slot with order := [] }
      ∧ (warpOf t c slot).order.Perm (List.range 32) ∧ (warpOf t c slot).order.Pairwise (standsBefore (warpOf s c slot))) ∧
  -- THREAD_WAKE at a barrier whose phase is over
  (∀ (c slot l : Nat) (x : Lane) (s : State), x = laneOf (warpOf s c slot) l → ParkedAt s c slot l 4 →
    (mget {} (groupOf s c (warpOf s c slot).group).bars (x.park.op.toNat % 1024)).phase ≠ fld x.park.op.toNat 31 16 →
    ∃ t h f, exec (.threadWake c slot l) s = .next t ∧ OnlySlot (modCore s c fun k => { k with hist := h, floors := f }) t c slot
      ∧ (x.park.eng = false → h = (coreOf s c).hist ∧ f = (coreOf s c).floors) ∧ laneOf (warpOf t c slot) l = woken x
      ∧ ∀ k, k ≠ l → laneOf (warpOf t c slot) k = laneOf (warpOf s c slot) k) ∧
  -- THREAD_WAKE at a completion object whose COUNT is 0 or whose ERROR is set: the flag word arrives
  (∀ (c slot l a : Nat) (x : Lane) (s : State), x = laneOf (warpOf s c slot) l → ParkedAt s c slot l 3 →
    a = (warpOf s c slot).padBase + x.park.op.toNat → (coreOf s c).padBad = [] →
    (ofBytes (memGets (coreOf s c).pad a 8) = 0 ∨ (ofBytes (memGets (coreOf s c).pad (a + 8) 4)).testBit 10 = true) →
    ∃ t, exec (.threadWake c slot l) s = .next t ∧ OnlySlot s t c slot
      ∧ laneOf (warpOf t c slot) l = woken (setX x x.park.dst (.ofNat 64 (ofBytes (memGets (coreOf s c).pad (a + 8) 4))))
      ∧ ∀ k, k ≠ l → laneOf (warpOf t c slot) k = laneOf (warpOf s c slot) k) ∧
  -- THREAD_WAKE at a WAITV or JOIN that waits for no earlier access, and whose location now satisfies it
  (∀ (c slot l : Nat) (x : Lane) (e : Access) (bs : List Byte) (s u : State), x = laneOf (warpOf s c slot) l →
    (ParkedAt s c slot l 1 ∧ e.kind = .waitv ∨ ParkedAt s c slot l 2 ∧ e.kind = .join) → x.front = [e] → e.wait = none →
    e.gen = (ctxOf s (warpOf s c slot).ctx).gen → vread ⟨c, (warpOf s c slot).ctx, 0⟩ e.va.toNat e.size s = .ok bs u →
    bs.length = e.size → warpOf u c slot = warpOf s c slot →
    (e.kind = .waitv → condHolds e.cond (8 * e.size) (ofBytes bs) (e.x1.toNat % 2 ^ (8 * e.size)) = true) →
    (e.kind = .join → ofBytes bs = 0) →
    ∃ t, exec (.threadWake c slot l) s = .next t ∧ OnlySlot u t c slot
      ∧ laneOf (warpOf t c slot) l = woken { (if e.kind = .waitv then setX x e.dst (.ofNat 64 (ofBytes bs)) else x) with front := [] }
      ∧ ∀ k, k ≠ l → laneOf (warpOf t c slot) k = laneOf (warpOf s c slot) k) ∧
  -- WARP_LOAD_COMPLETE
  (∀ (c slot : Nat) (s : State), (warpOf s c slot).st = .loading → (groupOf s c (warpOf s c slot).group).recs = [] →
    (coreOf s c).leaving = 0 →
    ∃ t, exec (.warpLoadComplete c slot) s = .next t ∧ OnlySlot s t c slot
      ∧ (warpOf t c slot).st = (if (groupOf s c (warpOf s c slot).group).halted then .halted
          else (settleWarp { warpOf s c slot with st := .ready }).st)
      ∧ (∀ l, laneOf (warpOf t c slot) l = if l < 32 then { laneOf (warpOf s c slot) l with skip := 0 } else laneOf (warpOf s c slot) l)
      ∧ (warpOf t c slot).order.Perm (List.range 32)
      ∧ ((warpOf s c slot).kind ≠ .task → (warpOf t c slot).age = s.clk)) ∧
  -- WARP_DRAIN_COMPLETE
  (∀ (c slot : Nat) (s : State), (warpOf s c slot).st = .draining → warpQuiet true s c (warpOf s c slot) = true →
    ∃ t, exec (.warpDrainComplete c slot) s = .next t ∧ OnlySlot s t c slot
      ∧ (∀ g, groupOf t c g = groupOf s c g) ∧ warpOf t c slot = { warpOf s c slot with st := .saving }) ∧
  -- WARP_SAVE_COMPLETE: the record stands in the save area, the context keeps the warp, the slot is free
  (∀ (c slot : Nat) (w : Warp) (s u : State), w = warpOf s c slot → mwf {} w.lanes = true → w.st = .saving → ((coreOf s c).unitWait.any (·.1 == 14)) = false →
    (coreOf s c).unitFail.contains 14 = false →
    writeRuns ⟨c, w.ctx, 15⟩ (saveImage s w.ctx c + (coreOf s c).savePos) (warpImage w) s = .ok () u →
    ∃ t e, exec (.warpSaveComplete c slot) s = .next t ∧ warpOf t c slot = {} ∧ (∀ k, k ≠ slot → warpOf t c k = warpOf u c k)
      ∧ (ctxOf t w.ctx).saved = (ctxOf u w.ctx).saved ++ [e] ∧ e.slot = slot ∧ e.pos = (coreOf s c).savePos ∧ e.warp.regsN = w.regsN ∧ e.warp.kind = w.kind
      ∧ (∀ l n, getX (laneOf e.warp l) n = getX (laneOf w l) n) ∧ (∀ l, (laneOf e.warp l).pc = (laneOf w l).pc)
      ∧ (∀ k, mget 0 e.warp.masks k = mget 0 w.masks k)
      ∧ (coreOf t c).savePos = (coreOf u c).savePos + (warpImage w).length) ∧
  -- WARP_EXIT_COMPLETE: the slot is free; the last warp of a work-group ends it
  (∀ (c slot : Nat) (w : Warp) (g : Group) (s : State), w = warpOf s c slot → g = groupOf s c w.group → w.st = .exiting →
    warpQuiet false s c w = true → engineHolds (coreOf s c) w.serial = false → g.recs = [] →
    ∃ t, exec (.warpExitComplete c slot) s = .next t ∧ warpOf t c slot = {} ∧ (∀ k, k ≠ slot → warpOf t c k = warpOf s c k)
      ∧ (if ∃ k ∈ g.slots, k ≠ slot
          then groupOf t c w.group = { g with slots := g.slots.filter (· != slot) } ∧ t.ctxs = s.ctxs
          else groupOf t c w.group = {} ∧ (64 ≤ w.group → t.ctxs = s.ctxs) ∧ (w.group < 64 →
            launchOf t g.ctx g.launch = { launchOf s g.ctx g.launch with ended := (launchOf s g.ctx g.launch).ended + 1 }))) ∧
  -- RESULT_DELIVERED: the oldest result that a pipe owes is no longer pending
  ∀ (c slot : Nat) (s : State), (∃ p ∈ (warpOf s c slot).board, p.due ≠ 0) →
    ∃ t, exec (.resultDelivered c slot) s = .next t ∧ OnlySlot s t c slot
      ∧ (warpOf t c slot).board = (warpOf s c slot).board.eraseP (·.due != 0)
      ∧ { warpOf t c slot with board := [] } = { warpOf s c slot with board := [] }

namespace Sys2Proof

/-- The mode of the step that carries a save on: 1 at instruction boundaries (02 R38), 2 at reconvergence points (02 R39). -/
def carriesSave (ctx : Nat) (i : Instr) (mode : Nat) : Prop :=
  i = .instructionBoundarySave ctx ∧ mode = 1 ∨ i = .reconvergencePreemption ctx ∧ mode = 2

/-- A warp of a core may stop between two bundles: it is READY, CURRENT or PARKED and no halt is under way. -/
structure MayStop (s : State) (c slot : Nat) : Prop where
  st : (warpOf s c slot).st = .ready ∨ (warpOf s c slot).st = .current ∨ (warpOf s c slot).st = .parked
  halting : (warpOf s c slot).halting = false

/-- The saved warps that come back with the warp `e` on a core: its group's and their handlers', or all of its core's. -/
def comeBack (x : Ctx) (e : Saved) (core : Nat) : List Saved :=
  let all := hasEngine (mget {} x.savedCores e.core) || core == e.core % 256
  e :: ((x.saved.filter fun y => y.core == e.core && (all || rootGroup y == rootGroup e)).filter fun y => y.slot != e.slot)

/-- Writing the save image of core `c` has ended and leaves `u`: it stands in memory, or a page of the save area was answered
FAIL. -/
def imageEnds (s u : State) (ctx c : Nat) : Prop :=
  runEngine c 14 (writeImage ctx c) (deliverAll s) = .done () u ∨ runEngine c 14 (writeImage ctx c) (deliverAll s) = .failed u

/-- SLICE_END acts on a context: its partition is in use, nothing is being saved, no checkpoint runs. -/
structure SliceActs (s : State) (ctx : Nat) : Prop where
  part : (partAt s (ctx / 64)).en = true ∧ (partAt s (ctx / 64)).busy = false
  ckpt : (ctxOf s ctx).ckpt.busy = false
  saving : (ctxOf s ctx).saving = 0

/-- A context is switched in past its slice. -/
def pastSlice (s : State) (ctx : Nat) : Prop :=
  (ctxOf s ctx).in_ = true ∧ (ctxOf s ctx).sliceStart + recField s ctx 439 424 * 1400 ≤ s.clk

/-- A core begins to leave at reconvergence points, for at most `us` µs. -/
def leavesBy (s t : State) (c us : Nat) : Prop := (coreOf t c).leaving = 2 ∧ (coreOf t c).leaveBy = s.clk + us * 1400

end Sys2Proof

/-- 02 R38-R42, 21 R371, R373: leaving cores and coming back. -/
def Obligations.SaveSteps : Prop :=
  -- INSTRUCTION_BOUNDARY_SAVE, RECONVERGENCE_PREEMPTION: the warps that may stop begin to drain
  (∀ (i : Instr) (ctx mode c slot : Nat) (s : State), carriesSave ctx i mode → mwf {} s.cores = true →
    mwf {} (coreOf s c).warps = true → c ∈ heldCores s ctx → (coreOf s c).leaving = mode → MayStop s c slot →
    (mode = 2 → reconverged (warpOf s c slot) = true) →
    ∃ t, exec i s = .next t
      ∧ warpOf t c slot = { warpOf s c slot with st := .draining, compact := mode == 2, prefer := 0 }) ∧
  -- the last core, when nothing of it is left to save: its empty image is written, the core is free, the context is out, its
  -- clusters remember it
  (∀ (i : Instr) (ctx mode c : Nat) (s u : State), carriesSave ctx i mode → heldCores s ctx = [c] →
    (coreOf s c).leaving = mode → coreDrained s c = true → nothingHeld (coreOf s c) = true → (ctxOf s ctx).saving ≠ 0 →
    imageEnds s u ctx c → mwf {} u.cores = true → heldCores u ctx = [c] → (ctxOf u ctx).saving ≠ 0 →
    queuesWait (ctxOf u ctx) = false →
    ∃ t, exec i s = .next t ∧ coreOf t c = clearCore (coreOf u c) ∧ (∀ j, j ≠ c → coreOf t j = coreOf u j)
      ∧ (ctxOf t ctx).in_ = false ∧ (ctxOf t ctx).saving = 0
      ∧ ∀ b < 48, bitAt (recField u ctx 495 448) b = true → mget 0 (partAt t (ctx / 64)).lastOut b = ctx % 64 + 1) ∧
  -- RECONVERGENCE_TIMEOUT, RECLAIM_TIMEOUT of a borrowed cluster: the save goes on at instruction boundaries
  (∀ (i : Instr) (ctx cl c : Nat) (s : State), c ∈ heldCores s ctx → (coreOf s c).leaving = 2 →
    (i = .reconvergenceTimeout ctx ∨ i = .reclaimTimeout ctx cl ∧ clusterBit c = cl ∧ borrows s ctx c = true) →
    (coreOf s c).leaveBy ≤ s.clk →
    ∃ t, exec i s = .next t ∧ (coreOf t c).leaving = 1
      ∧ (mwf {} (coreOf s c).warps = true → ∀ slot, MayStop s c slot → (warpOf t c slot).st = .draining)) ∧
  -- CLUSTER_RECLAIM: a borrowed core leaves at reconvergence points, for 40 µs, once its owner is due
  (∀ (ctx cl c : Nat) (s : State), c ∈ heldCores s ctx → clusterBit c = cl → borrows s ctx c = true → (coreOf s c).leaving = 0 →
    ownedElsewhere s ctx c = true →
    ∃ t, exec (.clusterReclaim ctx cl) s = .next t ∧ leavesBy s t c 40) ∧
  -- SLICE_END past the slice, while context `r` is next to wait for the clusters: every context `x` leaves those of `r`, under its
  -- own timeout or, as a borrower, under a reclaim's; one that would keep none of its own clusters leaves all its cores
  (∀ (ctx r x c : Nat) (s : State), SliceActs s ctx → pastSlice s ctx → (ctxOf s ctx).badrec = false →
    nextOf ctx (rivals s ctx) = some r → mwf {} s.ctxs = true → x ≠ r → x / 64 = r / 64 → (ctxOf s x).in_ = true →
    (ctxOf s x).saving = 0 → c ∈ heldCores s x → bitAt (homeBits s r) (clusterBit c) = true → (coreOf s c).leaving = 0 →
    ∃ t, exec (.sliceEnd ctx) s = .next t ∧ (coreOf t c).leaving = 2
      ∧ (borrows s x c = false → leavesBy s t c (recField s x 423 414))
      ∧ if ∀ k ∈ heldCores s x, borrows s x k = false → bitAt (homeBits s r) (clusterBit k) = true then
          borrows s x c = false → (ctxOf t x).saving = 2 ∧ (ctxOf t x).saveSince = s.clk ∧
            ∀ k ∈ heldCores s x, (coreOf s k).leaving = 0 → leavesBy s t k (recField s x 423 414)
        else (ctxOf t x).saving = 0 ∧ (borrows s x c = true → leavesBy s t c 40)) ∧
  -- SLICE_END of a context whose turn it is on free clusters that it lacks: it is switched in on them
  (∀ (ctx r : Nat) (s u v : State), SliceActs s ctx → (ctxOf s ctx).in_ = true ∨ wants s ctx = true →
    (pastSlice s ctx → (ctxOf s ctx).badrec = false ∧ rivals s ctx = []) → lacking s ctx ≠ [] →
    runCtx ctx (readRecord ctx) s = .done r u → v = takeRecord ctx r u →
    runnable v ctx = true → (∀ c ∈ lacking v ctx, (coreOf v c).holder = 0) → lacking v ctx ≠ [] → itsTurn v ctx = true →
    ∃ t, exec (.sliceEnd ctx) s = .next t ∧ (ctxOf t ctx).in_ = true ∧ (ctxOf t ctx).sliceStart = v.clk
      ∧ ∀ c ∈ homeCores v ctx, (coreOf t c).holder = ctx + 1) ∧
  -- WARP_RESTORE: what the save image holds of the warp stands at the slot asked for
  ∀ (ctx idx core slot : Nat) (x : Ctx) (e e' : Saved) (k : Core) (es : List Saved) (wins : Windows) (s u v w : State),
    x = ctxOf s ctx → x.in_ = true → x.saving = 0 →
    (coreOf s core).holder = ctx + 1 → (coreOf s core).off = false → (coreOf s core).leaving = 0 → borrows s ctx core = false →
    sectorStays s ctx core = true → ((coreOf s core).unitWait.any (·.1 == 14)) = false → (coreOf s core).unitFail.contains 14 = false →
    x.saved[idx]? = some e → (x.savedCores.any fun k => k.1 == e.core) = true →
    readSaved ctx e.core core (comeBack x e core) s = .ok (k, e' :: es, wins) u →
    e'.warp.kind ≠ .handler → (∀ y ∈ e' :: es, y.warp.st = .loading) → bringCore ctx e.core core k u = some v → slot < 64 →
    (warpOf v core slot).st = .free →
    installAll ctx core wins (some slot) (e' :: es) ((e' :: es).map rootGroup).eraseDups v = some w →
    ∃ t g n b, exec (.warpRestore ctx idx core slot) s = .next t ∧ e ∉ (ctxOf t ctx).saved
      ∧ (if x.images.contains e.core then
          ∃ (z m : Nat) (u1 u2 : State) (bs : List Byte), vread ⟨core, ctx, 15⟩ (saveImage s ctx (e.core % 256) + e.pos) z u1 = .ok bs u2
            ∧ z = 1088 + 256 * m ∧ e'.warp = warpRestored bs e.warp
        else e' = e)
      ∧ warpOf t core slot = { e'.warp with group := g, serial := n, padBase := b, age := v.clk }
      ∧ ((coreOf v core).groups.length + (comeBack x e core).length ≤ 64 →
          slot ∈ (groupOf t core g).slots ∧ (groupOf t core g).padBase = b ∧ (groupOf t core g).bars = e'.group.bars)

namespace Sys2Proof

/-- A write of a PARTCTL finds a partition record: the state in which it has been read, S2ROOT and CTXTAB (21 R367). -/
def recordFound (v : Word) (s u : State) (root tab : Nat) : Prop :=
  partRecord s ((sectorList (partSectors v)).headD 0) (partPrec v).toNat = (some (root, tab), u)

/-- ERR of a PARTCTL that a write leaves: cleared by a 1, set by a refusal (21 R366). -/
def partErrAfter (s : State) (p : Nat) (v : Word) (refused : Bool) : Bool := ((partAt s p).err && !v.getLsbD 61) || refused

/-- A checkpoint is triggered (21 R381): the counts restart; outside BUSY and with a descriptor the context is saved. -/
structure Triggered (s t : State) (ctx : Nat) : Prop where
  count : (ctxOf t ctx).ckpt.count = 0 ∧ (ctxOf t ctx).ckpt.last = s.clk
  busy : (ctxOf t ctx).ckpt.busy = ((ctxOf s ctx).ckpt.busy || recField s ctx 639 576 != 0)
  saves : (ctxOf s ctx).ckpt.busy = false → recField s ctx 639 576 ≠ 0 → (ctxOf s ctx).in_ = true → heldCores s ctx ≠ [] →
    (ctxOf t ctx).saving = 1 ∧ ∀ c ∈ heldCores s ctx, (coreOf s c).leaving ≤ 2 → (coreOf t c).leaving = 1
  others : ∀ x, x ≠ ctx → ctxOf t x = ctxOf s x

/-- What a rank writes of a checkpoint once its peers' hashes are here (21 R382): each hash is stored once, by the lowest
pair that has it, at the place of its first appearance; the manifest names offset and owner of each chunk. -/
def ckptAgreed (ctx : Nat) (own : List Nat) (peers : List (List Nat)) : M (List Nat) := do
  let d ← ckptDesc (ctxWho (← get) ctx 15)
  let all := (List.range d.nrep).map fun r => if r = d.rank then own else peers.getD r []
  let distinct := all.flatten.eraseDups
  ckptWrite (ctxWho (← get) ctx 15) d (ckptChunks (← get) ctx d) own fun k =>
    let o := firstPair all (own.getD k 0)
    (chunkLen * distinct.idxOf (own.getD k 0), o.1, o == (d.rank, k))
  return distinct

/-- What a rank writes whose peers have been silent (21 R383): all its chunks, behind the offsets agreed last. -/
def ckptAlone (ctx : Nat) (own before : List Nat) : M (List Nat) := do
  let d ← ckptDesc (ctxWho (← get) ctx 15)
  ckptWrite (ctxWho (← get) ctx 15) d (ckptChunks (← get) ctx d) own fun k => (chunkLen * (before.length + k), d.rank, true)
  return before

/-- The checkpoint of a context whose saving is over, in a phase. -/
structure CkptAt (s : State) (ctx phase : Nat) : Prop where
  saved : (ctxOf s ctx).ckpt.busy = true ∧ (ctxOf s ctx).in_ = false ∧ (ctxOf s ctx).saving = 0
  free : (ctxOf s ctx).wait = none ∧ (ctxOf s ctx).failed = false
  phase : (ctxOf s ctx).ckpt.phase = phase

end Sys2Proof

/-- 21 R366-R369, R371, R372, R381-R383, 22 R396, R402, 23 R407, R413: partitions, the orders of CTXCTL, checkpoints. -/
def Obligations.TenancySteps : Prop :=
  -- PARTCTL_ENABLE: refused, or the partition is in use with what its record says
  (∀ (p : Nat) (v : Word) (s : State), s.mgmt.ready = true →
    ((partAt s p).busy = true ∨ (partAt s p).en = true ∨ legalSectors (partSectors v) = false ∨
      disjointSectors s p (partSectors v) = false) →
    ∃ t, exec (.partctlEnable p v) s = .next t ∧ partAt t p = { partAt s p with err := true }
      ∧ { t with parts := [] } = { s with parts := [] }) ∧
  (∀ (p root tab : Nat) (v : Word) (s u : State), s.mgmt.ready = true → (partAt s p).busy = false → (partAt s p).en = false →
    legalSectors (partSectors v) = true → disjointSectors s p (partSectors v) = true → recordFound v s u root tab →
    ∃ t, exec (.partctlEnable p v) s = .next t ∧ partAt t p = { partAt s p with
      en := true, sectors := partSectors v, prec := partPrec v, s2root := root, ctxtab := tab, err := partErrAfter s p v false }) ∧
  -- PARTITION_RESIZE: BUSY towards the new SECTORS, or refused
  (∀ (p root tab : Nat) (v : Word) (s u : State), s.mgmt.ready = true → (partAt s p).busy = false → (partAt s p).en = true →
    legalSectors (partSectors v) = true → disjointSectors s p (partSectors v) = true → recordFound v s u root tab →
    ∃ t, exec (.partitionResize p v) s = .next t ∧ partAt t p = { partAt s p with
      busy := true, target := partSectors v, prec := partPrec v, s2root := root, ctxtab := tab, err := partErrAfter s p v false }) ∧
  (∀ (p : Nat) (v : Word) (s : State), s.mgmt.ready = true →
    ((partAt s p).busy = true ∨ (partAt s p).en = false ∨ legalSectors (partSectors v) = false ∨
      disjointSectors s p (partSectors v) = false) →
    ∃ t, exec (.partitionResize p v) s = .next t ∧ partAt t p = { partAt s p with err := true }
      ∧ { t with parts := [] } = { s with parts := [] }) ∧
  -- PARTITION_RESIZE_COMPLETE: departing cores leave; then SECTORS changes and the windows of departing sectors are off
  (∀ (p : Nat) (s : State), (partAt s p).busy = true →
    (∀ e ∈ s.ctxs, e.1 / 64 = p → e.2.ckpt.busy = false ∧ e.2.deadline = false) →
    (∀ c ∈ departing s p, (coreOf s c).leaving = 0 → ∃ t, exec (.partitionResizeComplete p) s = .next t
      ∧ leavesBy s t c (recField s ((coreOf s c).holder - 1) 423 414)) ∧
    (departing s p = [] → ∃ t, exec (.partitionResizeComplete p) s = .next t
      ∧ partAt t p = { partAt s p with busy := false, sectors := (partAt s p).target, target := 0 }
      ∧ ∀ x < 4, (partAt s p).sectors.getLsbD x = true → (partAt s p).target.getLsbD x = false →
          ∀ w < 32, (mget 0 (sectorOf t x).rwin (2 * w + 1)).getLsbD 63 = false)) ∧
  -- PARTCTL_DISABLE
  (∀ (p : Nat) (v : Word) (s : State), s.mgmt.ready = true →
    (((partAt s p).busy = true ∨ workResident s p = true ∨ partSectors v = 6 ∨ partSectors v = 9) → ∃ t, exec (.partctlDisable p v) s = .next t
      ∧ partAt t p = { partAt s p with err := true } ∧ { t with parts := [] } = { s with parts := [] }) ∧
    ((partAt s p).busy = false → workResident s p = false → partSectors v ≠ 6 → partSectors v ≠ 9 → ∃ t, exec (.partctlDisable p v) s = .next t ∧ partAt t p = { partAt s p with
      en := false, sectors := partSectors v, prec := partPrec v, err := partErrAfter s p v false })) ∧
  -- CTXCTL_SAVE: out of rotation, every core leaves at instruction boundaries
  (∀ (ctx : Nat) (s : State), s.mgmt.ready = true → ∃ t, exec (.ctxctlSave ctx) s = .next t ∧ (ctxOf t ctx).stopped = true
    ∧ ((ctxOf s ctx).in_ = false → t = modCtx s ctx fun x => { x with stopped := true })
    ∧ ((ctxOf s ctx).in_ = true → heldCores s ctx ≠ [] → (ctxOf t ctx).saving = 1 ∧ ∀ c ∈ heldCores s ctx, (coreOf s c).leaving ≤ 2 → (coreOf t c).leaving = 1)) ∧
  -- CTXCTL_RUN: in rotation, the record is read; a malformed one acts as one that is not valid
  (∀ (ctx r : Nat) (s u : State), s.mgmt.ready = true →
    runCtx ctx (readRecord ctx) (modCtx s ctx fun x => { x with stopped := false }) = .done r u →
    ∃ t, exec (.ctxctlRun ctx) s = .next t ∧ (ctxOf t ctx).stopped = false
      ∧ (ctxOf t ctx).badrec = (bitAt r 384 && !recordSound r (partAt u (ctx / 64)).sectors)
      ∧ ((ctxOf t ctx).badrec = false → (ctxOf t ctx).record = r)) ∧
  -- CTXCTL_RESET: a new generation, retired until the next switch-in; nothing runs, is saved or is queued any more
  (∀ (ctx : Nat) (s : State), s.mgmt.ready = true → ∃ t, exec (.ctxctlReset ctx) s = .next t
    ∧ (ctxOf t ctx).stopped = (ctxOf s ctx).stopped
    ∧ (ctxOf t ctx).gen = (ctxOf s ctx).gen % 65535 + 1 ∧ (ctxOf t ctx).retired = true ∧ (ctxOf t ctx).in_ = false
    ∧ (ctxOf t ctx).saved = [] ∧ (ctxOf t ctx).launches = [] ∧ (ctxOf t ctx).ckpt.busy = false
    ∧ (ctxOf t ctx).fpflags = (ctxOf s ctx).fpflags ∧ (ctxOf t ctx).mode = (ctxOf s ctx).mode
    ∧ (∀ c ∈ heldCores s ctx, (coreOf t c).warps = [] ∧ (coreOf t c).groups = [] ∧ (coreOf t c).deck = [] ∧ (coreOf t c).holder = 0)
    ∧ (∀ r ∈ t.received, r.ctx ≠ ctx)
    ∧ ((∀ p ∈ (ctxOf s ctx).scrubbing, p ∈ (sectorOf s (homeSector (p * 65536))).scrub) →
        ∀ p ∈ (ctxOf t ctx).scrubbing, p ∈ (sectorOf t (homeSector (p * 65536))).scrub)) ∧
  -- CTXCTL_RETRAP: a record that went to the host is open again and may be given to a new handler, from the
  -- trap table as TRAPTAB names it now
  (∀ (ctx c g : Nat) (k : Group) (r r' : FaultRec) (s u : State), s.mgmt.ready = true → (∀ e ∈ s.cores, e.1 ≠ c → e.2.groups = []) →
    (coreOf s c).groups = [(g, k)] → mwf {} s.cores = true → mwf {} s.ctxs = true → (ctxOf s ctx).saved = [] → k.ctx = ctx → k.recs = [r] → r.state = 4 → r.addr ≠ 0 →
    r' = { r with given := false, state := 0 } →
    vwrite ⟨c, ctx, 0⟩ r.addr (leBytes 64 (r.image / 8 * 8)) (modGroup s c g fun k => { k with tab := some (trapBase s ctx), recs := [r'] }) = .ok () u →
    ∃ t, exec (.ctxctlRetrap ctx) s = .next t ∧ (groupOf t c g).tab = some (trapBase s ctx) ∧ (groupOf t c g).recs = [{ r' with written := true, wait := none }]) ∧
  -- CKPT_NOW, CKPT_PERIOD_EXPIRY, CKPT_STEPS_REACHED
  (∀ (ctx : Nat) (i : Instr) (k : Ckpt) (s : State), k = (ctxOf s ctx).ckpt → k.en = true →
    (i = .ckptNow ctx ∧ s.mgmt.ready = true ∨
      i = .ckptPeriodExpiry ctx ∧ k.period ≠ 0 ∧ k.last + k.period.toNat * 1400000 ≤ s.clk ∨
      i = .ckptStepsReached ctx ∧ k.steps ≠ 0 ∧ k.steps.toNat ≤ k.count) →
    ∃ t, exec i s = .next t ∧ Triggered s t ctx) ∧
  -- once its context is saved, a rank forms its hashes and sends them to its group; then it waits
  (∀ (ctx : Nat) (d : CkptDesc) (own : List Nat) (s u v : State), CkptAt s ctx 0 → ckptOwn (ctxWho s ctx 15) s = .ok (d, own) u →
    v = (modCkpt u ctx fun k => { k with phase := 1, since := u.clk, own := own, group := d.group }) →
    exec (.ckptPeerTimeout ctx) s = .next v ∧
    ∀ (peers : List (List Nat)) (hs : List Nat) (w : State), (ctxOf u ctx).wait = none → (ctxOf u ctx).failed = false →
      ckptAgreed ctx own peers v = .ok hs w →
      exec (.ckptHashesReceived ctx peers) s = .next (modCkpt w ctx fun k => { k with phase := 2, hashes := hs, alone := false })) ∧
  -- CKPT_HASHES_RECEIVED: the own chunks and the manifest are written
  (∀ (ctx : Nat) (peers : List (List Nat)) (hs : List Nat) (s u : State), CkptAt s ctx 1 →
    ckptAgreed ctx (ctxOf s ctx).ckpt.own peers s = .ok hs u →
    exec (.ckptHashesReceived ctx peers) s = .next (modCkpt u ctx fun k => { k with phase := 2, hashes := hs, alone := false })) ∧
  -- CKPT_PEER_TIMEOUT: 10 ms later the rank writes all its chunks
  (∀ (ctx : Nat) (hs : List Nat) (s u : State), CkptAt s ctx 1 → (ctxOf s ctx).ckpt.since + 14000000 ≤ s.clk →
    ckptAlone ctx (ctxOf s ctx).ckpt.own (ctxOf s ctx).ckpt.hashes s = .ok hs u →
    exec (.ckptPeerTimeout ctx) s = .next (modCkpt u ctx fun k => { k with phase := 2, hashes := hs, alone := true })) ∧
  -- either, once the remote writes are known applied: the count word is written and the context resumes
  ∀ (ctx : Nat) (i : Instr) (peers : List (List Nat)) (d : CkptDesc) (n : Nat) (s u v : State),
    i = .ckptHashesReceived ctx peers ∨ i = .ckptPeerTimeout ctx → CkptAt s ctx 2 → (∀ r ∈ s.sent, r.ctx ≠ ctx) →
    ckptDesc (ctxWho s ctx 15) (deliverAll s) = .ok d u → n = (ckptChunks u ctx d).length →
    vwrite (ctxWho s ctx 15) d.manifest (leBytes 8 (n + if (ctxOf s ctx).ckpt.alone then 2 ^ 63 else 0)) u = .ok () v →
    ∃ t, exec i s = .next t ∧ (ctxOf t ctx).ckpt.busy = false ∧ { t with ctxs := [] } = { v with ctxs := [] }

namespace Sys2Proof

/-- Nothing but the management registers has changed. -/
def OnlyMgmt (s t : State) : Prop := { t with mgmt := {} } = { s with mgmt := {} }

/-- Nothing but one context's own registers, or its queues, has changed. -/
def OnlyCtx (s t : State) (ctx : Nat) : Prop :=
  { t with ctxs := [] } = { s with ctxs := [] } ∧ ∀ x, x ≠ ctx → ctxOf t x = ctxOf s x

/-- Where a write of a device register is a step with its own name: offset from the register base, value, step (21 R359). -/
def Routed (s : State) (a : Nat) (v : Word) (i : Instr) : Prop :=
  (∃ x < 4, a = 8 * x ∧ i = .pglimWrite x v) ∨
  (∃ p < 4, a = 0x40 + 8 * p ∧ (v.getLsbD 63 = true ∧ (partAt s p).en = false ∧ i = .partctlEnable p v ∨
    v.getLsbD 63 = true ∧ (partAt s p).en = true ∧ (partAt s p).sectors ≠ partSectors v ∧ i = .partitionResize p v ∨
    v.getLsbD 63 = false ∧ (partAt s p).en = true ∧ i = .partctlDisable p v)) ∨
  a = 0x100 ∧ i = .ptpctlWrite v ∨
  a = 0x200 ∧ v.getLsbD 0 = true ∧ i = .bootStart ∨
  (∃ n < 4, a = 0x300 + 8 * n ∧ i = .attnonceWrite n v) ∨
  a = 0x320 ∧ v.getLsbD 0 = true ∧ i = .attestRequest ∨
  (∃ x w, x < 4 ∧ w < 32 ∧ a = 0x10000 * (x + 1) + 16 * w + 8 ∧ i = .rwinctlWrite x w v) ∨
  (∃ x k, x < 4 ∧ k < 2 ∧ a = 0x10000 * (x + 1) + 0x400 + 16 * k ∧ i = .hbmrtctlWrite (2 * x + k) v) ∨
  (∃ ctx < 256, ∃ o, a = 0x100000 + 0x10000 * ctx + o ∧
    (o = 0 ∧ v.getLsbD 31 = true ∧ i = .asgenBump ctx ∨ o = 0x10 ∧ i = .numctlWrite ctx v ∨ o = 0x28 ∧ i = .numdropClear ctx v ∨
      o = 0x48 ∧ v = 1#64 <<< 63 ∧ i = .ctxctlSave ctx ∨ o = 0x48 ∧ v = 1#64 <<< 62 ∧ i = .ctxctlRun ctx ∨
      o = 0x48 ∧ v = 1#64 <<< 61 ∧ i = .ctxctlReset ctx ∨ o = 0x48 ∧ v = 1#64 <<< 60 ∧ i = .ctxctlRetrap ctx ∨
      (∃ h < 2, o = 0x80 + 0x40 * h ∧ i = .headcfgWrite ctx h v ∨ o = 0x88 + 0x40 * h ∧ i = .headsurfWrite ctx h v))) ∨
  ∃ ctx q, ctx < 256 ∧ q < 64 ∧ ∃ o, a = 0x2000000 + 0x1000 * (64 * ctx + q) + o ∧
    (o = 0x10 ∧ i = .lqtailWrite ctx q v ∨
      o = 0x20 ∧ v = (if (queueOf s ctx q).en then 1#64 <<< 63 else 0) ||| 1#64 <<< 62 ∧ i = .lqctlErrClear ctx q ∨
      o = 0x20 ∧ v = (if (queueOf s ctx q).en then 1#64 <<< 63 else 0) ||| 1#64 <<< 61 ∧ i = .lqctlReset ctx q ∨
      o = 0x20 ∧ v = (if (v.getLsbD 63) then 1#64 <<< 63 else 0) ∧ i = .lqctlEnable ctx q (v.getLsbD 63))

/-- What a write does to a register of a context that no step of its own stands for (21 R359). -/
def storedCtx (x : Ctx) (o : Nat) (v : Word) : Option Ctx :=
  match o with
  | 0x08 => some { x with fpflags := x.fpflags &&& ~~~(v.truncate 6) }
  | 0x18 => some { x with numRing := v &&& 0x01FFFFFFFFFFF00F }
  | 0x20 => some { x with numTail := .ofNat 32 (v.toNat / 2 ^ 32) }
  | _ => none

end Sys2Proof

/-- 04 R77, R86, R91, 06 R133, R135, 21 R359, R375-R380, 23 R412: what the writes of device registers do. -/
def Obligations.RegisterWrites : Prop :=
  -- LQTAIL_WRITE: the tail publishes and passes what touches it; the queue of a context that is out keeps it in its shadow
  (∀ (ctx q : Nat) (v : Word) (s : State), s.mgmt.ready = true → ∃ t, exec (.lqtailWrite ctx q v) s = .next t ∧ OnlyCtx s t ctx
    ∧ (shadowed s ctx = true → queueOf t ctx q = { queueOf s ctx q with shadowTail := some (max v.toNat ((queueOf s ctx q).shadowTail.getD 0)) })
    ∧ (shadowed s ctx = false → ∃ n, queueOf t ctx q = { queueOf s ctx q with tail := n }
        ∧ (n = max (queueOf s ctx q).tail v.toNat ∨ max (queueOf s ctx q).tail v.toNat < n ∧ ∃ p ∈ (queueOf s ctx q).pubs, p.2.1 = n)
        ∧ ∀ p ∈ (queueOf s ctx q).pubs, ¬(p.1 ≤ n ∧ n < p.2.1))) ∧
  -- LQCTL: while the context is out, each write waits in the shadow
  (∀ (ctx q : Nat) (en : Bool) (v : Word) (i : Instr) (s : State), s.mgmt.ready = true → shadowed s ctx = true →
    (i = .lqctlErrClear ctx q ∧ v = ctlBit s ctx q 62 ∨ i = .lqctlReset ctx q ∧ v = ctlBit s ctx q 61 ∨
      i = .lqctlEnable ctx q en ∧ v = if en then 1#64 <<< 63 else 0) →
    ∃ t, exec i s = .next t ∧ OnlyCtx s t ctx ∧ queueOf t ctx q = { queueOf s ctx q with shadowCtl := (queueOf s ctx q).shadowCtl ++ [v] }) ∧
  -- LQCTL_ENABLE, LQCTL_RESET, LQCTL_ERR_CLEAR
  (∀ (ctx q : Nat) (en : Bool) (s : State), s.mgmt.ready = true → shadowed s ctx = false →
    ∃ t, exec (.lqctlEnable ctx q en) s = .next t ∧ OnlyCtx s t ctx ∧ queueOf t ctx q = { queueOf s ctx q with en := en }) ∧
  (∀ (ctx q : Nat) (k : LQueue) (s : State), s.mgmt.ready = true → shadowed s ctx = false → k = queueOf s ctx q →
    ∃ t, exec (.lqctlReset ctx q) s = .next t ∧ OnlyCtx s t ctx
      ∧ ((∃ e ∈ k.entries, e.ended = false) → queueOf t ctx q = k)
      ∧ ((∀ e ∈ k.entries, e.ended = true) → queueOf t ctx q = { k with
          reserve := 0, tail := 0, prog := 0, next := 0, pubs := [], entries := [], inherited := [], errlen := 0, wait := none, failed := false })) ∧
  (∀ (ctx q : Nat) (k : LQueue) (s : State), s.mgmt.ready = true → shadowed s ctx = false → k = queueOf s ctx q →
    ∃ t, exec (.lqctlErrClear ctx q) s = .next t ∧ OnlyCtx s t ctx ∧ (queueOf t ctx q).err = false ∧ (queueOf t ctx q).en = k.en
      ∧ (k.err = true → k.errlen ≠ 0 → (queueOf t ctx q).next = k.erroff + k.errlen
          ∧ ((∀ e ∈ k.entries, e.ended = true) → (queueOf t ctx q).prog = k.erroff + k.errlen ∧ (queueOf t ctx q).entries = []))
      ∧ (k.err = true → k.errlen = 0 → (queueOf t ctx q).next = k.next)) ∧
  -- REGISTER_WRITE: the write of a register with a step of its own is that step
  (∀ (a : Nat) (v : Word) (i : Instr) (s : State), s.mgmt.ready = true → Routed s a v i →
    ∃ t, exec (.registerWrite (deviceBase + a) v) s = .next t ∧ exec i s = .next t) ∧
  -- before READY every register but BOOTCTL ignores writes
  (∀ (a : Nat) (v : Word) (s : State), s.mgmt.ready = false → a ≠ deviceBase + 0x200 → exec (.registerWrite a v) s = .next s) ∧
  -- the other registers of a context, of a queue, of a window
  (∀ (ctx o : Nat) (v : Word) (x : Ctx) (s : State), s.mgmt.ready = true → ctx < 256 → storedCtx (ctxOf s ctx) o v = some x →
    ∃ t, exec (.registerWrite (deviceBase + 0x100000 + 0x10000 * ctx + o) v) s = .next t ∧ OnlyCtx s t ctx ∧ ctxOf t ctx = x) ∧
  (∀ (ctx q : Nat) (v : Word) (s : State), s.mgmt.ready = true → ctx < 256 → q < 64 →
    (∃ t, exec (.registerWrite (deviceBase + 0x2000000 + 0x1000 * (64 * ctx + q)) v) s = .next t ∧ OnlyCtx s t ctx
      ∧ queueOf t ctx q = { queueOf s ctx q with base := v &&& 0x01FFFFFFFFFFF01F }) ∧
    ∃ t, exec (.registerWrite (deviceBase + 0x2000000 + 0x1000 * (64 * ctx + q) + 8) v) s = .next t ∧ OnlyCtx s t ctx
      ∧ queueOf t ctx q = { queueOf s ctx q with reserve := v }) ∧
  (∀ (x w : Nat) (v : Word) (s : State), s.mgmt.ready = true → x < 4 → w < 32 →
    ∃ t, exec (.registerWrite (deviceBase + 0x10000 * (x + 1) + 16 * w) v) s = .next t
      ∧ sectorOf t x = { sectorOf s x with rwin := mput 0 (sectorOf s x).rwin (2 * w) (v &&& 0x000FFFFFFFE00000) }) ∧
  -- ASGEN_BUMP
  (∀ (ctx : Nat) (s : State), s.mgmt.ready = true → ((ctxOf s ctx).busy = true → exec (.asgenBump ctx) s = .next s) ∧
    ((ctxOf s ctx).busy = false → ∃ t, exec (.asgenBump ctx) s = .next t
      ∧ ctxOf t ctx = { ctxOf s ctx with gen := (ctxOf s ctx).gen % 65535 + 1, busy := true }
      ∧ (∀ c, ∀ e ∈ (coreOf t c).tlb, e.ctx = ctx → e.gen = (ctxOf t ctx).gen)
      ∧ ∀ x, ∀ e ∈ (sectorOf t x).tlb, e.ctx = ctx → e.gen = (ctxOf t ctx).gen)) ∧
  -- RWINCTL_WRITE: an enable that would pin more than 96 MiB stores EN = 0 and sets OVER
  (∀ (x w : Nat) (v old ctl : Word) (s : State), s.mgmt.ready = true → x < 4 → w < 32 → old = mget 0 (sectorOf s x).rwin (2 * w + 1) →
    ∃ t refused, exec (.rwinctlWrite x w v) s = .next t
      ∧ (refused ↔ v.getLsbD 63 = true ∧ 100663296 < pinned (sectorOf s x) x w
          + windowCharge x (mget 0 (sectorOf s x).rwin (2 * w)) (v &&& 0x3FFF000000000000 ||| 1#64 <<< 63))
      ∧ (ctl = mget 0 (sectorOf t x).rwin (2 * w + 1) → (∀ j < 62, ctl.getLsbD j = (decide (48 ≤ j) && v.getLsbD j))
          ∧ (ctl.getLsbD 63 = true ↔ v.getLsbD 63 = true ∧ ¬refused)
          ∧ (ctl.getLsbD 62 = true ↔ old.getLsbD 62 = true ∧ v.getLsbD 62 = false ∨ refused))
      ∧ ∀ n, n ≠ 2 * w + 1 → mget 0 (sectorOf t x).rwin n = mget 0 (sectorOf s x).rwin n) ∧
  -- HBMRTCTL_WRITE, NUMCTL_WRITE: a value out of range stores the nearer limit; NUMDROP_CLEAR
  (∀ (n : Nat) (v : Word) (s : State), s.mgmt.ready = true → ∃ t, exec (.hbmrtctlWrite n v) s = .next t
    ∧ stackAt t n = { stackAt s n with en := v.getLsbD 31, interval := min 1000 (max 1 (v.toNat % 65536)) }
    ∧ (∀ k, k ≠ n → stackAt t k = stackAt s k) ∧ { t with hbm := [] } = { s with hbm := [] }) ∧
  (∀ (ctx : Nat) (v : Word) (s : State), s.mgmt.ready = true → ∃ t, exec (.numctlWrite ctx v) s = .next t ∧ OnlyCtx s t ctx
    ∧ ctxOf t ctx = { ctxOf s ctx with mode := v.toNat % 4, sampleLog := min 16 (max 4 (v.toNat / 65536 % 16)) }) ∧
  (∀ (ctx : Nat) (v : Word) (s : State), s.mgmt.ready = true → ∃ t, exec (.numdropClear ctx v) s = .next t ∧ OnlyCtx s t ctx
    ∧ ctxOf t ctx = if v.toNat % 2 ^ 32 = 2 ^ 32 - 1 then { ctxOf s ctx with numDrop := 0 } else ctxOf s ctx) ∧
  -- HEADCFG_WRITE: an enable that does not fit stores EN = 0 and sets ERR
  (∀ (ctx h : Nat) (v : Word) (good : Prop) (s : State), s.mgmt.ready = true → h < 2 →
    (good ↔ headFieldsOk s ctx v = true ∧ (otherHeads s ctx h).length < 64 ∧
      ((otherHeads s ctx h).filter fun c => headEnc c == headEnc v).foldl (fun n c => n + headLoad c) (headLoad v) ≤ 497664000) →
    ∃ t, exec (.headcfgWrite ctx h v) s = .next t ∧ OnlyCtx s t ctx
      ∧ (∀ j < 60, (headOf t ctx h).cfg.getLsbD j = v.getLsbD j)
      ∧ ((headOf t ctx h).cfg.getLsbD 63 = true ↔ v.getLsbD 63 = true ∧ good)
      ∧ ((headOf t ctx h).err = true ↔ (headOf s ctx h).err = true ∧ v.getLsbD 62 = false ∨ v.getLsbD 63 = true ∧ ¬good)) ∧
  -- HEADSURF_WRITE: encoded at once, or the newest waits
  (∀ (ctx h : Nat) (v : Word) (k : DHead) (s : State), s.mgmt.ready = true → h < 2 → k = headOf s ctx h →
    ∃ t, exec (.headsurfWrite ctx h v) s = .next t ∧ OnlyCtx s t ctx ∧ headOf t ctx h = { k with
      surf := v,
      encoding := if k.cfg.getLsbD 63 && k.encoding.isNone then some (v.toNat, fabtime s) else k.encoding,
      waiting := if k.cfg.getLsbD 63 && k.encoding.isSome then some (v.toNat, fabtime s) else k.waiting }) ∧
  -- PTPCTL_WRITE: a new WINLEN is refused while a fabric launch runs
  (∀ (v : Word) (s : State), s.mgmt.ready = true → ∃ t, exec (.ptpctlWrite v) s = .next t ∧ OnlyMgmt s t
    ∧ t.mgmt.ptpEn = v.getLsbD 63 ∧ t.mgmt.ptpDomain.toNat = v.toNat / 2 ^ 48 % 256
    ∧ (fabricLaunch s = true → v.toNat % 64 ≠ s.mgmt.winLen.toNat → t.mgmt.winErr = true ∧ t.mgmt.winLen = s.mgmt.winLen)
    ∧ (fabricLaunch s = false → t.mgmt.winErr = (s.mgmt.winErr && !v.getLsbD 62))
    ∧ (fabricLaunch s = false → 1 ≤ v.toNat % 64 → v.toNat % 64 ≤ 32 → t.mgmt.winLen.toNat = v.toNat % 64)) ∧
  -- ATTNONCE_WRITE, ATTEST_REQUEST, BOOT_START
  (∀ (n : Nat) (v : Word) (s : State), s.mgmt.ready = true → n < 4 → ∃ t, exec (.attnonceWrite n v) s = .next t ∧ OnlyMgmt s t
    ∧ t.mgmt.attDone = false ∧ mget 0 t.mgmt.nonce n = v ∧ ∀ k, k ≠ n → mget 0 t.mgmt.nonce k = mget 0 s.mgmt.nonce k) ∧
  (∀ s : State, s.mgmt.ready = true → exec .attestRequest s = .next { s with mgmt := { s.mgmt with attBusy := true } }) ∧
  ∀ s : State, exec .bootStart s = .next (if s.mgmt.ready || s.mgmt.fail then s
    else { s with mgmt := { s.mgmt with bootCtl := 1, booting := true } })

namespace Sys2Proof

/-- The next entry of a queue starts: the queue is open and reads its entry, whose header is right and has a KIND; `ws` are
its words, `fin` its end, `u` the state in which they have been read. -/
structure Starts (s : State) (ctx q kind : Nat) (ws : List Nat) (fin : Nat) (u : State) : Prop where
  opened : queueOpen s ctx q = true
  ready : (queueOf s ctx q).wait = none ∧ ringOk (queueOf s ctx q) = true
  more : (queueOf s ctx q).next < fin ∧ fin ≤ (queueOf s ctx q).tail
  alone : ∀ e ∈ (queueOf s ctx q).entries, e.ended = false → e.kind ≠ 2 ∧ e.kind ≠ 4
  reads : ∃ h u', runQueue ctx q (ringRead (ctxWho s ctx 15) (queueOf s ctx q) (queueOf s ctx q).next 1) (deliverAll s) = .done [h] u'
    ∧ headerOk (queueOf s ctx q) h = true ∧ fld h 31 24 = kind ∧ fin = (queueOf s ctx q).next + 8 * fld h 23 16
    ∧ runQueue ctx q (ringRead (ctxWho s ctx 15) (queueOf s ctx q) (queueOf s ctx q).next (fld h 23 16)) u' = .done ws u

/-- Every entry of a queue that has started has ended. -/
def AllEnded (k : LQueue) : Prop := ∀ e ∈ k.entries, e.ended = true

/-- The queue has gone past an entry: new entries stand behind the old ones, of which those that lead and have ended are gone. -/
structure Passed (s t : State) (ctx q fin : Nat) (new : List QEntry) : Prop where
  next : (queueOf t ctx q).next = fin ∧ (queueOf t ctx q).tail = (queueOf s ctx q).tail
  entries : (queueOf t ctx q).entries = ((queueOf s ctx q).entries ++ new).dropWhile (·.ended)
  prog : AllEnded (queueOf s ctx q) → (∀ e ∈ new, e.ended = true ∧ e.fin = fin) → new ≠ [] → (queueOf t ctx q).prog = fin

/-- A queue has stopped at an entry (03 R48). -/
def StoppedAt (t : State) (ctx q off : Nat) : Prop := (queueOf t ctx q).err = true ∧ (queueOf t ctx q).erroff = off

/-- The tail of a queue has passed the published bytes that touch it. -/
structure TailPassed (k k' : LQueue) : Prop where
  up : k.tail ≤ k'.tail
  where_ : k'.tail = k.tail ∨ ∃ p ∈ k'.pubs, p.2.1 = k'.tail
  whole : ∀ p ∈ k'.pubs, ¬(p.1 ≤ k'.tail ∧ k'.tail < p.2.1)
  rest : { k' with tail := 0 } = { k with tail := 0, pubs := k'.pubs, arriving := k'.arriving }

/-- A launch may place its next work-group or team: its context runs, earlier launches of its queue have begun, and no
conflicting system runs (03 R54, R57, 07 R154). -/
structure MayPlace (s : State) (ctx tag : Nat) (la : Launch) : Prop where
  is : la = launchOf s ctx tag ∧ la.ctx = ctx ∧ la.fields ≠ [] ∧ la.done = false
  runs : (ctxOf s ctx).in_ = true ∧ (ctxOf s ctx).stopped = false ∧ (ctxOf s ctx).saving = 0
  turn : earlierPlaced s ctx tag la = true
  left : 0 < la.placed ∧ la.placed < la.total ∨ la.placed = 0 ∧ conflicts s la = false

/-- The beginning of a sync point: its world's header and Vmin (07 R155, R158). -/
def syncBegin (w : Who) (world : Nat) : M (Option (World × Nat)) := do
  match ← worldGet w world with
  | none => return none
  | some x =>
    if !x.owner || 2 ^ 48 - 2 ≤ x.version then return none
    return some (x, (← oldestView w x).getD (x.version + 1))

/-- One unit of the sync point `e`: the archetypes that it changed, and the number of the last unit (07 R157-R159, R166). -/
def syncOne (w : Who) (e : QEntry) (n vmin u : Nat) : M (Option (List Nat × Nat)) := do
  match ← worldGet w e.world with
  | none => return none
  | some x =>
    let es ← batchOf w x
    let ch := if e.nocompact then [] else e.changed
    return some (← syncUnit ⟨w, x, n, vmin⟩ es ch u, 3 * es.length + ch.length)

/-- The sync point at place `i` is the first entry of its queue that has not ended, and the queue is open (07 R155). -/
structure SyncHere (s : State) (ctx q i : Nat) (e : QEntry) : Prop where
  opened : queueOpen s ctx q = true
  free : (queueOf s ctx q).wait = none
  at_ : syncAt s ctx q = some (i, e)

/-- A launch has placed all its work-groups and all have ended, and no task of it is left (03 R56). -/
structure GridOver (s : State) (ctx tag : Nat) (la : Launch) : Prop where
  is : la = launchOf s ctx tag ∧ la.fields ≠ [] ∧ la.done = false
  all_ : 0 < la.placed ∧ la.total ≤ la.placed ∧ la.placed ≤ la.ended
  tasks : tasksRemain s ctx tag = false
  runs : (ctxOf s ctx).in_ = true

end Sys2Proof

/-- 03 R44-R49, R53-R57, 07 R153-R166, 15 R325, 24 R423: the steps of launch queues, placement, the end of a grid, sync points. -/
def Obligations.QueueSteps : Prop :=
  -- PUBLICATION_ARRIVAL: one that overlaps what is published, or lies outside what is reserved, publishes nothing
  (∀ (ctx q off tag : Nat) (rest : List (Nat × Nat)) (k : LQueue) (s : State), k = queueOf s ctx q → k.arriving = (off, tag) :: rest →
    (ctxOf s ctx).in_ = true → (ringOk k = false ∨ off < k.tail ∨ k.reserve.toNat ≤ off ∨ ∃ p ∈ k.pubs, p.1 ≤ off ∧ off < p.2.1) →
    ∃ t, exec (.publicationArrival ctx q) s = .next t ∧ queueOf t ctx q = { k with arriving := rest }) ∧
  (∀ (ctx q off tag h : Nat) (rest : List (Nat × Nat)) (k : LQueue) (s u : State), k = queueOf s ctx q →
    k.arriving = (off, tag) :: rest → (ctxOf s ctx).in_ = true → k.pubWait = none → k.pubFailed = false → ringOk k = true → k.tail ≤ off →
    off + 8 * fld h 23 16 ≤ k.reserve.toNat → 1 ≤ fld h 23 16 → fld h 23 16 ≤ 33 →
    (∀ p ∈ k.pubs, p.2.1 ≤ off ∨ off + 8 * fld h 23 16 ≤ p.1) →
    ringRead (ctxWho s ctx 15) k off 1 (deliverAll s) = .ok [h] u →
    ∃ t, exec (.publicationArrival ctx q) s = .next t ∧ TailPassed k (queueOf t ctx q) ∧ (queueOf t ctx q).arriving = rest
      ∧ (queueOf t ctx q).pubs = k.pubs ++ [(off, off + 8 * fld h 23 16, fld h 23 16, tag + 1)]) ∧
  -- QUEUE_NOP
  (∀ (ctx q fin : Nat) (ws : List Nat) (s u : State), Starts s ctx q 0 ws fin u → ∃ t, exec (.queueNop ctx q) s = .next t
    ∧ Passed s t ctx q fin [{ off := (queueOf s ctx q).next, fin := fin, kind := 0, ended := true }]) ∧
  -- QUEUE_FENCE: it ends, and later entries may start, once every earlier entry has ended
  (∀ (ctx q fin : Nat) (ws : List Nat) (s u : State), Starts s ctx q 3 ws fin u →
    (AllEnded (queueOf s ctx q) → ∃ t, exec (.queueFence ctx q) s = .next t
      ∧ Passed s t ctx q fin [{ off := (queueOf s ctx q).next, fin := fin, kind := 3, ended := true }]) ∧
    (¬AllEnded (queueOf s ctx q) → exec (.queueFence ctx q) s = .next s)) ∧
  -- QUEUE_WSYNC: once every earlier entry has ended; a world that its queue does not own, or a version at its end, stops the queue
  (∀ (ctx q fin v : Nat) (ws : List Nat) (x : World) (s u u' : State), Starts s ctx q 2 ws fin u → AllEnded (queueOf s ctx q) →
    v = ws.getD 1 0 → runQueue ctx q (worldGet (ctxWho s ctx 6) (v % 256)) u = .done (some x) u' →
    (v / 2 ^ 9 = 0 → x.owner = true → x.version < 2 ^ 48 - 2 → ∃ t, exec (.queueWsync ctx q) s = .next t ∧ (queueOf t ctx q).next = fin
      ∧ (queueOf t ctx q).entries = (queueOf s ctx q).entries
          ++ [{ off := (queueOf s ctx q).next, fin := fin, kind := 2, world := v % 256, nocompact := v.testBit 8 }]) ∧
    ((v / 2 ^ 9 ≠ 0 ∨ x.owner = false ∨ 2 ^ 48 - 2 ≤ x.version) →
      ∃ t, exec (.queueWsync ctx q) s = .next t ∧ StoppedAt t ctx q (queueOf s ctx q).next)) ∧
  -- QUEUE_LAUNCH: absent fields are inherited; the launch has a fresh tag; a malformed packet stops the queue
  (∀ (ctx q fin parent : Nat) (ws : List Nat) (k : LQueue) (la la' : Launch) (s u u' : State), Starts s ctx q 1 ws fin u →
    k = queueOf s ctx q → parent = (match pubAt k with | some p => p.2.2.2 | none => 0) →
    la = { ctx := ctx, q := q, off := k.next, fields := inheritFields k.inherited ws, parent := parent } →
    (flagAfterPrev la = true → ∀ e, k.entries.getLast? = some e → e.ended = true) →
    (parent ≠ 0 → (launchOf u ctx (parent - 1)).done = true) →
    (packetOk u ctx la = true → runQueue ctx q (launchRecords (ctxWho s ctx 15) q la) u = .done (some la') u' →
      tagTaken (ctxOf u' ctx).launches (launchTag (ctxOf u' ctx).launches) = false →
      ∃ t tag, exec (.queueLaunch ctx q) s = .next t ∧ tag = launchTag (ctxOf u' ctx).launches ∧ (∀ e ∈ (ctxOf u' ctx).launches, e.1 < tag)
        ∧ (launchOf t ctx tag).fields = inheritFields k.inherited ws ∧ (launchOf t ctx tag).placed = 0
        ∧ (launchOf t ctx tag).done = false ∧ (launchOf t ctx tag).parent = parent
        ∧ (queueOf t ctx q).inherited = inheritFields k.inherited ws ∧ (queueOf t ctx q).next = fin
        ∧ (queueOf t ctx q).entries = k.entries ++ { off := k.next, fin := fin, kind := 1, launch := tag } ::
            (if flagSyncAfter la then [{ off := k.next, fin := fin, kind := 4, world := la'.world }] else [])) ∧
    ((packetOk u ctx la = false ∨ packetOk u ctx la = true ∧ runQueue ctx q (launchRecords (ctxWho s ctx 15) q la) u = .done none u') →
      ∃ t, exec (.queueLaunch ctx q) s = .next t ∧ StoppedAt t ctx q k.next)) ∧
  -- WORKGROUP_PLACEMENT: the next work-group of a launch that has begun goes to the eligible core with the most free slots
  (∀ (ctx tag c : Nat) (la : Launch) (lanes : List Lane) (s d u : State), MayPlace s ctx tag la → 0 < la.placed → hasTeam la = false →
    la.wait = none → la.failed = false → d = deliverAll s →
    (∀ j < 192, eligible d ctx j = true → bitAt (recField d ctx 559 512) (clusterBit j) = false) →
    bestCore d ((List.range 192).filter (eligible d ctx)) (needOf la (roleOf la la.placed)) = some c →
    ((List.range (groupThreads la)).mapM fun i =>
      gridLane (ctxWho s ctx 6) la (fld (launchField la (6 + roleOf la la.placed)) 47 0)
        (la.placed % la.extents.getD (coreLevel la) 1 * groupThreads la + i)) d = .ok lanes u →
    ∃ t key, exec (.workgroupPlacement ctx tag) s = .next t ∧ launchOf t ctx tag = { la with placed := la.placed + 1 }
      ∧ (coreOf t c).holder = ctx + 1 ∧ (groupOf t c key).launch = tag ∧ (groupOf t c key).threads = groupThreads la
      ∧ (groupOf t c key).index = (if fabricBound la then recField d ctx 447 440 * la.total else 0) + la.placed
      ∧ (groupOf t c key).nbars = barsOf la ∧ (groupOf t c key).padSize = padSizeOf la
      ∧ (groupOf t c key).slots.length = groupWarps la ∧ (groupOf t c key).slots.Nodup
      ∧ ∀ j slot, (groupOf t c key).slots[j]? = some slot →
          (warpOf d c slot).st = .free ∧ (warpOf t c slot).st = .loading ∧ (warpOf t c slot).windex = j
          ∧ (warpOf t c slot).launch = tag ∧ (warpOf t c slot).group = key ∧ (warpOf t c slot).regsN = roleRegs la (roleOf la la.placed)
          ∧ ∀ l < 32, laneOf (warpOf t c slot) l = lanes.getD (32 * j + l) {}) ∧
  -- GRID_END: the arena records of its launch are freed first, one by one
  (∀ (ctx tag c : Nat) (a : Nat × Nat × Nat) (h : Nat) (la : Launch) (s u : State), GridOver s ctx tag la →
    arenaLeft s ctx tag = some (c, a) → ((coreOf s c).unitWait.any (·.1 == 10)) = false → (coreOf s c).unitFail.contains 10 = false →
    vatomic ⟨c, ctx, 4⟩ (recField s ctx 191 128 + 262144 * c + 256 * a.2.1 + 128) 8 (fun h => some (h / 4 * 4)) s = .ok h u →
    exec (.gridEnd ctx tag) s = .next (modCore u c fun k => { k with arena := k.arena.filter (· != a) })) ∧
  (∀ (ctx tag : Nat) (la : Launch) (s : State), GridOver s ctx tag la → arenaLeft s ctx tag = none →
    ∃ t, exec (.gridEnd ctx tag) s = .next t ∧ launchOf t ctx tag = { la with done := true }
      ∧ (queueOf t ctx la.q).entries = ((queueOf s ctx la.q).entries.map fun e =>
          if e.kind = 1 ∧ e.launch = tag then { e with ended := true } else e).dropWhile (·.ended)) ∧
  -- SYNC_POINT: its batch is closed and its units run in order; SYNC_POINT_RESUME goes on where it was
  (∀ (ctx q i v : Nat) (e : QEntry) (x : World) (s u : State), SyncHere s ctx q i e → e.pos = 0 →
    runQueue ctx q (syncBegin (ctxWho s ctx 6) e.world) (deliverAll s) = .done (some (x, v)) u →
    ∃ t, exec (.syncPoint ctx q) s = .next t ∧ t = syncUnits ctx q i (ctxWho s ctx 6) (x.version + 1) v (4 * 2 ^ 24 + 65538) 0
      (closeBatch ctx q e.world (modSync ctx q i (fun e => { e with pos := 1, vmin := v }) u))) ∧
  (∀ (ctx q i : Nat) (e : QEntry) (s u : State), SyncHere s ctx q i e → e.pos = 0 →
    runQueue ctx q (syncBegin (ctxWho s ctx 6) e.world) (deliverAll s) = .done none u →
    ∃ t, exec (.syncPoint ctx q) s = .next t ∧ StoppedAt t ctx q e.off) ∧
  (∀ (ctx q i : Nat) (e : QEntry) (x : World) (s u : State), SyncHere s ctx q i e → e.pos ≠ 0 →
    runQueue ctx q (worldGet (ctxWho s ctx 6) e.world) (deliverAll s) = .done (some x) u →
    ∃ t, exec (.syncPointResume ctx q) s = .next t
      ∧ t = syncUnits ctx q i (ctxWho s ctx 6) (x.version + 1) e.vmin (4 * 2 ^ 24 + 65538) (e.pos - 1) u) ∧
  -- the units of a sync point: one after another; with the last the entry has ended and the checkpoint count rises
  (∀ (ctx q i n v fuel u last : Nat) (e : QEntry) (w : Who) (ch : List Nat) (s s' : State), (queueOf s ctx q).entries[i]? = some e →
    runQueue ctx q (syncOne w e n v u) s = .done (some (ch, last)) s' →
    (u ≠ last → syncUnits ctx q i w n v (fuel + 1) u s = syncUnits ctx q i w n v fuel (u + 1) (modSync ctx q i (fun y => { y with
      pos := u + 2, changed := ((e.changed ++ ch).eraseDups).mergeSort fun a b => decide (a ≤ b) }) s')) ∧
    (u = last → (ctxOf (syncUnits ctx q i w n v (fuel + 1) u s) ctx).ckpt.count = (ctxOf s ctx).ckpt.count + 1
      ∧ (queueOf (syncUnits ctx q i w n v (fuel + 1) u s) ctx q).entries
          = (((queueOf s ctx q).entries.modify i fun e => { e with ended := true })).dropWhile (·.ended)))

namespace Sys2Proof

/-- A core's work belongs to a context that is switched in, and the core takes new work. -/
structure Takes (s : State) (c ctx : Nat) : Prop where
  holder : (coreOf s c).holder = ctx + 1
  free : (coreOf s c).off = false ∧ (coreOf s c).leaving = 0
  in_ : (ctxOf s ctx).in_ = true
  answered : answersHeld (coreOf s c) = false

/-- The frames that one task warp takes from a deck, newest first: as many as are alike, 32 at most (03 R60). -/
structure Popped (deck fs : List Frame) : Prop where
  tail : deck = deck.take (deck.length - fs.length) ++ fs.reverse
  size : fs ≠ [] ∧ fs.length ≤ 32
  alike : ∀ f ∈ fs, ∀ g ∈ fs, f.entry = g.entry ∧ f.tag = g.tag
  all : fs.length < 32 → ∀ f ∈ fs, ∀ g, (deck.take (deck.length - fs.length)).getLast? = some g → ¬(g.entry = f.entry ∧ g.tag = f.tag)

/-- A core's oldest message is `m`. -/
def Hears (s : State) (c : Nat) (m : StealMsg) : Prop := oldestMsg s c = some m

/-- The messages after one has been taken and another sent. -/
def Answered (s t : State) (c : Nat) (m : StealMsg) : Prop := t.steals = s.steals.eraseP (·.dst == c) ++ [m]

end Sys2Proof

/-- 03 R60-R68: dispatch, refill and stealing. -/
def Obligations.TaskSteps : Prop :=
  -- TASK_DISPATCH
  (∀ (c ctx slot base : Nat) (fs : List Frame) (la : Launch) (s : State), Takes s c ctx → Popped (coreOf s c).deck fs →
    (∀ f ∈ fs, la = launchOf s ctx f.tag) → pickSlot (coreOf s c) = some slot → padPlace (coreOf s c) (taskPad la) = some base →
    regsUsed (coreOf s c) + taskRegs la ≤ 4096 →
    ∃ t, exec (.taskDispatch c) s = .next t ∧ (coreOf t c).deck = (coreOf s c).deck.take ((coreOf s c).deck.length - fs.length)
      ∧ (warpOf t c slot).st = .loading ∧ (warpOf t c slot).kind = .task ∧ (warpOf t c slot).regsN = taskRegs la
      ∧ (warpOf t c slot).padBase = base ∧ (warpOf t c slot).padSize = taskPad la
      ∧ (warpOf t c slot).age = s.clk - 1024 * ((fs.map Frame.prio).foldl max 0 : Nat)
      ∧ (∀ i f, fs[i]? = some f → (warpOf t c slot).launch = f.tag ∧ (laneOf (warpOf t c slot) i).pc = f.entry
          ∧ (laneOf (warpOf t c slot) i).st = .ready ∧ (∀ k < 6, getX (laneOf (warpOf t c slot) i) (k + 1) = .ofNat 64 (f.arg k))
          ∧ getX (laneOf (warpOf t c slot) i) 7 = .ofNat 64 f.join ∧ ∀ n, 7 < n → getX (laneOf (warpOf t c slot) i) n = 0)
      ∧ (∀ i, fs.length ≤ i → (laneOf (warpOf t c slot) i).st = .exited) ∧ ∀ w, w ≠ slot → warpOf t c w = warpOf s c w) ∧
  -- DECK_REFILL: frames from the tails of the stocks stand at the deck's head, 128 in all at most
  (∀ (c ctx : Nat) (s : State), Takes s c ctx → (coreOf s c).deck.length < 32 → refillTags (coreOf s c) ≠ [] →
    ((coreOf s c).unitWait.any fun u => u.1 == 11) = false →
    ∃ t new, exec (.deckRefill c) s = .next t ∧ (coreOf t c).deck = new ++ (coreOf s c).deck ∧ (coreOf t c).deck.length ≤ 128) ∧
  (∀ (c ctx tag v : Nat) (s u : State), Takes s c ctx → (coreOf s c).deck.length < 32 → (coreOf s c).stocks = [(tag, ⟨0, 1, false⟩)] →
    (coreOf s c).refill = none →
    tag < 2 ^ 32 → ((coreOf s c).unitWait.any fun u => u.1 == 11) = false → (coreOf s c).unitFail.contains 11 = false →
    vreadN ⟨c, ctx, 15⟩ (stockAddr (launchOf s ctx tag) c 0) 64 { s with choice := s.choice + 1 } = .ok v u →
    ∃ t, exec (.deckRefill c) s = .next t ∧ (coreOf t c).deck = ⟨.ofNat 512 v, tag⟩ :: (coreOf s c).deck
      ∧ (mget {} (coreOf t c).stocks tag).used = 0) ∧
  -- STEAL_REQUEST, STEAL_ROUND_BACKOFF
  (∀ (c ctx v : Nat) (k : Core) (s : State), k = coreOf s c → coreIdle s c = true → k.holder = ctx + 1 → k.stealUntil ≤ s.clk →
    (victims s ctx c)[k.stealPos]? = some v →
    ∃ t, exec (.stealRequest c) s = .next t ∧ t.steals = s.steals ++ [{ kind := 0, src := c, dst := v, seq := k.stealSeq, ctx := ctx }]
      ∧ coreOf t c = { k with stealOut := some (v, k.stealSeq), stealSeq := (k.stealSeq + 1) % 2 ^ 32, stealPos := k.stealPos + 1 }) ∧
  (∀ (c ctx : Nat) (k : Core) (s : State), k = coreOf s c → coreIdle s c = true → k.holder = ctx + 1 → victims s ctx c ≠ [] →
    (victims s ctx c).length ≤ k.stealPos →
    exec (.stealRoundBackoff c) s = .next (setCore s c { k with stealPos := 0, stealUntil := s.clk + 256 })) ∧
  -- STEAL_SERVE: an empty reply, the head of a stock, or the oldest frame of the deck that may go
  (∀ (c : Nat) (m : StealMsg) (k : Core) (s : State), Hears s c m → m.kind = 0 → k = coreOf s c → answersHeld k = false →
    (k.holder ≠ m.ctx + 1 ∨ k.off = true ∨ k.leaving ≠ 0 ∨ ∀ i < 4, mget none k.transit i ≠ none) →
    ∃ t, exec (.stealServe c) s = .next t ∧ Answered s t c { kind := 2, src := c, dst := m.src, seq := m.seq, ctx := m.ctx }
      ∧ { t with steals := [] } = { s with steals := [] }) ∧
  (∀ (c ctx i : Nat) (m : StealMsg) (k : Core) (o : Option Frame) (s u : State), Hears s c m → m.kind = 0 → k = coreOf s c → Takes s c ctx →
    m.ctx = ctx → (List.range 4).find? (fun i => (mget none k.transit i).isNone) = some i →
    runEngine c 12 (stockOffer c ctx m.src (stocksByTag k.stocks)) s = .done o u →
    ∃ t, exec (.stealServe c) s = .next t
      ∧ (∀ f, o = some f → Answered s t c { kind := 1, src := c, dst := m.src, seq := m.seq, ctx := ctx, frame := some { f with tag := stockTag f.tag } }
          ∧ mget none (coreOf t c).transit i = some ⟨{ f with tag := stockTag f.tag }, m.src, m.seq, 0⟩
          ∧ (mget {} (coreOf t c).stocks f.tag).head = ((mget {} k.stocks f.tag).head + 1) % 2 ^ 64 ∧ (coreOf t c).deck = k.deck)
      ∧ (∀ f, o = none → k.deck.find? (mayGo c m.src) = some f →
          Answered s t c { kind := 1, src := c, dst := m.src, seq := m.seq, ctx := ctx, frame := some f }
          ∧ mget none (coreOf t c).transit i = some ⟨f, m.src, m.seq, 0⟩ ∧ (coreOf t c).deck = k.deck.erase f
          ∧ (coreOf t c).stocks = k.stocks)
      ∧ (o = none → k.deck.find? (mayGo c m.src) = none →
          Answered s t c { kind := 2, src := c, dst := m.src, seq := m.seq, ctx := m.ctx } ∧ (coreOf t c).deck = k.deck)) ∧
  -- STEAL_FRAME_ARRIVAL: pushed and acknowledged, or refused by a core that no longer takes work
  (∀ (c : Nat) (m : StealMsg) (f : Frame) (k : Core) (s : State), Hears s c m → m.kind = 1 → m.frame = some f → k = coreOf s c →
    (coreOpen k = true → k.stealOut = some (m.src, m.seq) → k.holder = m.ctx + 1 → deckCount k < 256 →
      ∃ t, exec (.stealFrameArrival c) s = .next t ∧ Answered s t c { kind := 3, src := c, dst := m.src, seq := m.seq, ctx := m.ctx }
        ∧ coreOf t c = { k with deck := k.deck ++ [f], stealOut := none, stealPos := 0 }) ∧
    ((coreOpen k = false ∨ k.stealOut ≠ some (m.src, m.seq) ∨ k.holder ≠ m.ctx + 1) →
      ∃ t, exec (.stealFrameArrival c) s = .next t ∧ Answered s t c { kind := 4, src := c, dst := m.src, seq := m.seq, ctx := m.ctx }
        ∧ (coreOf t c).deck = k.deck)) ∧
  (∀ (c : Nat) (m : StealMsg) (s : State), Hears s c m → m.kind = 2 → (coreOf s c).stealOut = some (m.src, m.seq) →
    (coreOf s c).holder = m.ctx + 1 →
    ∃ t, exec (.stealFrameArrival c) s = .next t ∧ t.steals = s.steals.eraseP (·.dst == c) ∧ (coreOf t c).stealOut = none) ∧
  -- STEAL_ACK frees the in-transit slot; STEAL_NACK brings its frame to the front of its launch
  (∀ (c i : Nat) (m : StealMsg) (k : Core) (s : State), Hears s c m → m.kind = 3 → k = coreOf s c → k.holder = m.ctx + 1 →
    transitAt k m.src m.seq = some i →
    ∃ t, exec (.stealAck c) s = .next t ∧ t.steals = s.steals.eraseP (·.dst == c)
      ∧ coreOf t c = { k with transit := mput none k.transit i none }) ∧
  (∀ (c ctx i key : Nat) (m : StealMsg) (x : Transit) (la : Launch) (st : Stock) (k : Core) (s u : State), Hears s c m → m.kind = 4 →
    k = coreOf s c → nackedSlot k = none → m.ctx = ctx → k.holder = ctx + 1 → transitAt k m.src m.seq = some i →
    mget none k.transit i = some x → la = launchOf s ctx x.frame.tag → key = returnStock k x.frame.tag → st = mget {} k.stocks key →
    ((stockLog la = 0 ∨ st.used = 0 ∧ k.deck.length < 256) → ∃ t, exec (.stealNack c) s = .next t
      ∧ t.steals = s.steals.eraseP (·.dst == c) ∧ coreOf t c = { k with transit := mput none k.transit i none, deck := x.frame :: k.deck }) ∧
    (stockLog la ≠ 0 → (st.used ≠ 0 ∨ 256 ≤ k.deck.length) →
      runEngine c 12 (vwrite ⟨c, ctx, 15⟩ (stockAddr la (stockCore key c) (st.head + 2 ^ 64 - 1)) (leBytes 64 x.frame.bits.toNat))
        (noteNack c i (dropMsg c s)) = .done () u →
      ∃ t, exec (.stealNack c) s = .next t ∧ mget none (coreOf t c).transit i = none ∧ (coreOf t c).deck = k.deck
        ∧ (mget {} (coreOf t c).stocks key).head = (st.head + 2 ^ 64 - 1) % 2 ^ 64)) ∧
  -- an answer to a core that has been saved is held with its slot until the restore
  ∀ (c key n : Nat) (i : Instr) (m : StealMsg) (y : Transit) (s : State), Hears s c m →
    (i = .stealAck c ∧ m.kind = 3 ∨ i = .stealNack c ∧ m.kind = 4 ∧ nackedSlot (coreOf s c) = none) → slotOf s m = none →
    mget none (mget {} (ctxOf s m.ctx).savedCores key).transit n = some y → y.thief = m.src → y.seq = m.seq →
    ∃ t, exec i s = .next t ∧ t.steals = s.steals.eraseP (·.dst == c)
      ∧ mget none (mget {} (ctxOf t m.ctx).savedCores key).transit n = some { y with answer := if m.kind = 3 then 1 else 2 }

namespace Sys2Proof

/-- Thread `l` of a warp has the access `e` at place `i` of its front, and it may act now (05 R94, R96, 04 R85, 23 R403). -/
structure ActsAt (s : State) (c slot l i : Nat) (e : Access) : Prop where
  at_ : (laneOf (warpOf s c slot) l).front[i]? = some e
  may : e.wait = none ∧ e.gen = (ctxOf s (warpOf s c slot).ctx).gen
  before : ∀ b ∈ (laneOf (warpOf s c slot) l).front.take i, b.wait = none ∧ holdsLater (sectorOf s (secOf c)).a b = false

/-- A store or an atomic may leave: no earlier access of its thread touches its bytes, a release has nothing before it and, at
.fabric, no remote write on its way, and the lower threads of its word go first (04 R88, 05 R94, 12 R263). -/
structure Leaves (s : State) (c slot l i : Nat) (e : Access) : Prop extends ActsAt s c slot l i e where
  clear : ∀ b ∈ (laneOf (warpOf s c slot) l).front.take i, isMemAcc b = true → overlaps b e = false
  release : e.ord ≠ 0 → (∀ b ∈ (laneOf (warpOf s c slot) l).front.take i, isMemAcc b = false) ∧ (e.ord = 5 → ∀ r ∈ s.sent, r.core ≠ c)
  order : lowerLanesClear s c slot l e = true

/-- The place of one access: its page is translated, in memory, and neither damaged nor waiting to be scrubbed. -/
structure Plain (s u : State) (c ctx va n pa : Nat) : Prop where
  sink : sinkWorld s ⟨c, ctx, 0⟩ va = none
  page : 1 ≤ n ∧ va % 65536 + n ≤ 65536
  translated : translate ⟨c, ctx, 0⟩ (.ofNat 64 va) 1 s = .ok pa u
  memory : backed pa = true ∧ isDevice pa = false
  whole : (sectorOf u (homeSector pa)).scrub.contains (pa / 65536) = false ∧ hurtGranules u pa n = []

/-- Byte `k` of the access `e`, as an access of its own. -/
def byteAccess (e : Access) (k : Nat) : Access :=
  { e with va := e.va + .ofNat 64 k, pa := if e.pa == 0 then 0 else e.pa + k, size := 1 }

/-- The accesses of a thread of a warp. -/
def frontOf (s : State) (c slot l : Nat) : List Access := (laneOf (warpOf s c slot) l).front

/-- The access `e`, at place `i` of thread `l` of one warp, is all that waits on a page request (23 R403). -/
structure WaitsAlone (s : State) (x n c slot l i : Nat) (e : Access) : Prop where
  lane : l < 32 ∧ mwf {} (warpOf s c slot).lanes = true
  access : (frontOf s c slot l)[i]? = some e ∧ e.wait = some (x, n)
  accesses : ∀ c' w' l' i' e', (frontOf s c' w' l')[i']? = some e' → e'.wait = some (x, n) → c' = c ∧ w' = slot ∧ l' = l ∧ i' = i
  thread : ∀ b ∈ frontOf s c slot l, b.wait = none ∨ b.wait = some (x, n)
  groups : ∀ c' w' l' v, (laneOf (warpOf s c' w') l').wait = some v → ¬(v.sector = x ∧ v.slot = n)

end Sys2Proof

/-- 04 R84-R86, R88, 05 R93-R97, R101, 12 R263, 23 R403-R406, R408, R413: the steps of a thread's accesses, of the causal queues, of page
requests, generations and the scrubber. -/
def Obligations.MemorySteps : Prop :=
  -- STORE_DRAIN: the store leaves the front; it stands in its sector, takes its place there and goes to the other sectors
  (∀ (c slot l i pa x : Nat) (e : Access) (s u : State), Leaves s c slot l i e → e.kind = .store → x = secOf c →
    Plain s u c (warpOf s c slot).ctx e.va.toNat e.size pa →
    ∃ t, exec (.storeDrain c slot l i) s = .next t
      ∧ laneOf (warpOf t c slot) l = { laneOf (warpOf u c slot) l with front := (frontOf s c slot l).eraseIdx i }
      ∧ (∀ a, mget (0 : Byte) (sectorOf t x).mem a
          = if pa ≤ a ∧ a < pa + e.size then .ofNat 8 (e.x1.toNat / 256 ^ (a - pa)) else mget 0 (sectorOf u x).mem a)
      ∧ (sectorOf t x).a = (sectorOf u x).a.put x ((sectorOf u x).a.at x + 1)
      ∧ (∀ d < 4, d ≠ x → mget [] t.causal (4 * x + d) = mget [] u.causal (4 * x + d) ++
          if samePart u x d then [⟨pa, leBytes e.size e.x1.toNat, (sectorOf t x).a⟩] else [])
      ∧ (∀ y, y ≠ x → sectorOf t y = sectorOf u y)
      ∧ ∀ j, j ≠ c → coreOf t j = coreOf u j) ∧
  -- LOAD_PERFORM: the youngest earlier store of its thread to each byte, else memory
  (∀ (c slot l i : Nat) (e : Access) (bs : List Byte) (s u : State), ActsAt s c slot l i e → e.kind = .load →
    (∀ b ∈ (frontOf s c slot l).take i, b.kind = .store ∨ isMemAcc b = false ∨ overlaps b e = false) →
    vread ⟨c, (warpOf s c slot).ctx, 0⟩ e.va.toNat e.size s = .ok bs u → bs.length = e.size → e.size ≤ 8 →
    ∃ t v, exec (.loadPerform c slot l i) s = .next t ∧ v < 2 ^ (8 * e.size) ∧ frontOf t c slot l = (frontOf s c slot l).eraseIdx i
      ∧ (e.dst ≠ 0 → getX (laneOf (warpOf t c slot) l) e.dst = .ofNat 64 v)
      ∧ (∀ n, n ≠ e.dst → getX (laneOf (warpOf t c slot) l) n = getX (laneOf (warpOf s c slot) l) n)
      ∧ (∀ k < e.size, (∀ b ∈ (frontOf s c slot l).take i, b.kind = .store → overlaps b (byteAccess e k) = false) →
          v / 256 ^ k % 256 = (bs.getD k 0).toNat)
      ∧ (∀ k < e.size, ∀ b, (((frontOf s c slot l).take i).reverse.find? fun b => b.kind == .store && overlaps b (byteAccess e k)) = some b →
          b.va.toNat ≤ e.va.toNat + k → e.va.toNat + k < b.va.toNat + b.size →
          v / 256 ^ k % 256 = b.x1.toNat / 256 ^ (e.va.toNat + k - b.va.toNat) % 256)
      ∧ (∀ p ∈ (warpOf t c slot).board, p.kind = 0 → p.num = e.dst → p.lanes.getLsbD l = false)) ∧
  -- ATOMIC_PERFORM, where no request merges with it: the thread gets what the location held; an acquire holds its later accesses until its sector has caught up
  (∀ (c slot l i old : Nat) (e : Access) (m : Vec4) (s u : State), Leaves s c slot l i e → e.kind = .atomic → mergePeers s c slot l i e = [] →
    l < 32 → atomicVirt ⟨c, (warpOf s c slot).ctx, 0⟩ e.va e.size (fun v => atomNew e.op e.size v e.x1.toNat e.x2.toNat) s = .ok (old, m) u →
    ∃ t, exec (.atomicPerform c slot l i) s = .next t
      ∧ (laneOf (warpOf t c slot) l).stamp = (laneOf (warpOf s c slot) l).stamp.join m
      ∧ frontOf t c slot l = (if e.ord ≠ 0 ∧ e.red = false then (frontOf s c slot l).set i { kind := .hold, stamp := m }
          else (frontOf s c slot l).eraseIdx i)
      ∧ (e.red = false → e.dst ≠ 0 → getX (laneOf (warpOf t c slot) l) e.dst = .ofNat 64 old)
      ∧ (∀ n, ¬(n = e.dst ∧ e.red = false) → getX (laneOf (warpOf t c slot) l) n = getX (laneOf (warpOf s c slot) l) n)
      ∧ { t with cores := [] } = { u with cores := [] }) ∧
  -- CAUSAL_DELIVERY: each byte takes the write only under a greater key
  (∀ (o d key : Nat) (w : CausalWrite) (rest : List CausalWrite) (s : State), o < 4 → d < 4 → o ≠ d →
    mget [] s.causal (4 * o + d) = w :: rest → canDeliver s o d = true → key = w.stamp.sum * 4 + o →
    ∃ t, exec (.causalDelivery o d) s = .next t ∧ mget [] t.causal (4 * o + d) = rest
      ∧ (sectorOf t d).a = (sectorOf s d).a.put o (w.stamp.at o)
      ∧ (∀ i < w.bytes.length, mget (0 : Byte) (sectorOf t d).mem (w.pa + i)
          = if mget 0 (sectorOf s d).keys (w.pa + i) < key then w.bytes.getD i 0 else mget 0 (sectorOf s d).mem (w.pa + i))
      ∧ (∀ i < w.bytes.length, mget 0 (sectorOf t d).keys (w.pa + i) = max (mget 0 (sectorOf s d).keys (w.pa + i)) key)
      ∧ (∀ a, ¬(w.pa ≤ a ∧ a < w.pa + w.bytes.length) → mget (0 : Byte) (sectorOf t d).mem a = mget 0 (sectorOf s d).mem a)
      ∧ (∀ y, y ≠ d → sectorOf t y = sectorOf s y) ∧ t.cores = s.cores) ∧
  -- FENCE_COMPLETE: with its own accesses done it takes its sector's vector, and completes once every sector of its scope has it
  (∀ (c slot l i : Nat) (e : Access) (v : Vec4) (s : State),
    (frontOf s c slot l).findIdx? (fun b => b.kind == .fence) = some i → (frontOf s c slot l)[i]? = some e →
    (∀ b ∈ (frontOf s c slot l).take i, isMemAcc b = false) → (laneOf (warpOf s c slot) l).stamp.le (sectorOf s (secOf c)).a = true →
    v = (if e.armed then e.stamp else (sectorOf s (secOf c)).a) →
    ((∀ d ∈ fenceSectors s c e.ord, v.le (sectorOf s d).a = true) → (e.ord = 5 → ∀ r ∈ s.sent, r.core ≠ c) →
      (laneOf (warpOf s c slot) l).park.kind ≠ 5 →
      ∃ t, exec (.fenceComplete c slot l) s = .next t ∧ { t with cores := [] } = { s with cores := [] }
        ∧ laneOf (warpOf t c slot) l = { laneOf (warpOf s c slot) l with front := (frontOf s c slot l).eraseIdx i }) ∧
    (((∃ d ∈ fenceSectors s c e.ord, v.le (sectorOf s d).a = false) ∨ e.ord = 5 ∧ ∃ r ∈ s.sent, r.core = c) → e.armed = false →
      ∃ t, exec (.fenceComplete c slot l) s = .next t
        ∧ frontOf t c slot l = (frontOf s c slot l).set i { e with armed := true, stamp := v })) ∧
  -- GENERATION_REJECT_REPLAY: the oldest access of an older generation is translated anew
  (∀ (c slot l i pa g : Nat) (e : Access) (s u : State), g = (ctxOf s (warpOf s c slot).ctx).gen →
    (frontOf s c slot l).findIdx? (fun b => isOwnAcc b && b.gen != g && b.wait.isNone) = some i → (frontOf s c slot l)[i]? = some e →
    sinkWorld (modEntry s c slot l i fun b => { b with gen := g }) ⟨c, (warpOf s c slot).ctx, 0⟩ e.va.toNat = none →
    translate ⟨c, (warpOf s c slot).ctx, 0⟩ e.va (match e.kind with | .store => 1 | .atomic => 3 | _ => 0)
      (modEntry s c slot l i fun b => { b with gen := g }) = .ok pa u →
    ∃ t, exec (.generationRejectReplay c slot l) s = .next t
      ∧ frontOf t c slot l = (frontOf s c slot l).set i { e with gen := g, pa := pa }) ∧
  -- ASGEN_BUMP_COMPLETE
  (∀ (ctx : Nat) (s : State), (ctxOf s ctx).busy = true →
    (staleLeft ctx s = false → exec (.asgenBumpComplete ctx) s = .next (modCtx s ctx fun x => { x with busy := false })) ∧
    (staleLeft ctx s = true → exec (.asgenBumpComplete ctx) s = .next s)) ∧
  -- PAGE_REQUEST_RETRY: the slot is free, the answer counts, and what waited on it walks again under the current generation
  (∀ (x n : Nat) (s : State), x < 4 → n < 4096 → (∃ r, (n, r) ∈ (sectorOf s x).posted) → (sectorOf s x).waiting = [] →
    ∃ t, exec (.pageRequestRetry x n) s = .next t ∧ (∀ r, (n, r) ∉ (sectorOf t x).posted)
      ∧ peek t x (pageArea x + 0x10040 + 8 * n) 8 = 0
      ∧ peek t x (pageArea x + 8) 8 = (peek (deliverAll s) x (pageArea x + 8) 8 + 1) % 2 ^ 64
      ∧ ∀ c slot l, mwf {} (warpOf s c slot).lanes = true → frontOf t c slot l = (frontOf s c slot l).map fun e =>
          if e.wait = some (x, n) then { e with wait := none, gen := (ctxOf s (warpOf s c slot).ctx).gen } else e) ∧
  -- PAGE_REQUEST_FAIL: TRANSLATION for the access that waited, HANDLE_WORLD for a VOPEN
  (∀ (x n c slot l i : Nat) (e : Access) (s : State), x < 4 → n < 4096 → (∃ r, (n, r) ∈ (sectorOf s x).posted) → WaitsAlone s x n c slot l i e →
    (sectorOf s x).waiting = [] → e.kind ≠ .query → (warpOf s c slot).kind ≠ .handler →
    ∃ t, exec (.pageRequestFail x n) s = .next t ∧ (groupOf t c (warpOf s c slot).group).halted = true
      ∧ (∃ r ∈ (groupOf t c (warpOf s c slot).group).recs, r.cause = (if e.kind = .vopen then 0x10 else 0x06) ∧ r.lanes = e.lanes ||| 1#32 <<< l ∧ r.pc = e.pc ∧ r.byAccess = true)
      ∧ ∀ b ∈ frontOf t c slot l, b.wait ≠ some (x, n)) ∧
  -- PAGE_SCRUB: every sector reads zeros in the page, which no longer waits
  ∀ (page : Nat) (s : State), (sectorOf s (homeSector (page * 65536))).scrub.contains page = true →
    ∃ t, exec (.pageScrub page) s = .next t
      ∧ (∀ x < 4, ∀ a, mget (0 : Byte) (sectorOf t x).mem a = if a / 65536 = page then 0 else mget 0 (sectorOf s x).mem a)
      ∧ page ∉ (sectorOf t (homeSector (page * 65536))).scrub
      ∧ (∀ g ∈ (sectorOf t (homeSector (page * 65536))).damaged, g / 65536 ≠ page)
      ∧ ∀ ctx, page ∉ (ctxOf t ctx).scrubbing

/-! ## The matrix and beam engines -/

namespace Sys2Proof

/-- May a command start while an earlier one still runs (09 R195, 14 R303)? -/
def MayOverlap (x : MCmd) (wide : Bool) (e : MCmd) : Prop :=
  (x.kind = 0 → wide = false → e.kind ∉ [0, 1, 2]) ∧
  (x.kind ≤ 1 → wide = true → e.kind ∉ [0, 1, 3]) ∧
  (x.kind = 2 → e.kind ∉ [0, 1, 3]) ∧
  (x.kind = 3 → e.kind ≠ 2 ∧ ¬(e.kind ≤ 1 ∧ e.wide = true) ∧ ¬(e.kind = 4 ∧ e.tile = x.tile)) ∧
  (x.kind = 4 → e.tile ≠ x.tile ∧ ¬(e.kind = 5 ∧ e.set = x.set)) ∧
  (x.kind = 5 → ¬(e.kind = 4 ∧ e.set = x.set))

/-- Command `i` of a core may start: its TID entry `t` has been read, its turn has come, its leave is held if it is heavy, and
its event is there (09 R195, R208, 01 R20); `v` is the state in which it acts. -/
structure MayStart (s : State) (c i kind : Nat) (x : MCmd) (t : Tensor) (v : State) : Prop where
  is : (cmdsOf s c)[i]? = some x ∧ x.kind = kind
  ready : ∃ u, cmdTensor c x s = .done t u ∧ nextCmd u c i t = true ∧ (cmdWatts u c x t = 0 ∨ x.leave = 2) ∧ cmdEvent c i x u = some v

/-- From `s` to `t` nothing has changed but the matrix engine of core `c`, whose command `i` now runs with what it read. -/
structure NowRuns (s t : State) (c i : Nat) (x : MCmd) (wide : Bool) (bytes flags : Nat) : Prop where
  core : OnlyCore s t c
  rest : { coreOf t c with matrix := {}, samples := [] } = { coreOf s c with matrix := {}, samples := [] }
  others : ∀ j, j ≠ i → (cmdsOf t c)[j]? = (cmdsOf s c)[j]?
  runs : ∃ y z, (cmdsOf s c)[i]? = some y ∧ (cmdsOf t c)[i]? = some z ∧ z.phase = 1 ∧ z.bytes = bytes ∧ z.flags = flags
    ∧ z.mode = (ctxOf s x.src.ctx).mode ∧ z.wide = wide
    ∧ z = { y with
        phase := 1, bytes := bytes, flags := flags, mode := z.mode, wide := wide,
        sample := z.sample, count := z.count, wtid := z.wtid }
  samples : x.kind ≠ 3 → (coreOf t c).samples = (coreOf s c).samples

/-- The rows of a load or stream from `s`, whose window holds them and on whose bytes no copy works (04 R74, 14 R298). -/
structure RowsRead (s : State) (c : Nat) (x : MCmd) (t : Tensor) (stored : Bool) (n count : Nat) (rows : List RowData) (u : State) : Prop where
  inside : ∀ m < count, ∀ sp ∈ rowSpans t stored (x.row + m) x.elem n, spanIn x.src.size sp = true ∧ spanHeld s c x.src.base sp = false
  read : readRows c x.src t stored x.elem n ((List.range count).map (x.row + ·)) s = (rows, u)

/-- What a row that was not read gives. -/
def noRow : RowData := ⟨0, 0, 0, 0x3F80⟩

/-- A plane as a load leaves it: its record, and word by word its cells (09 R191, R192, 06 R127). -/
structure Filled (p : Plane) (x : MCmd) (t : Tensor) (rows : List RowData) (word : Nat → Nat → Nat) : Prop where
  head : p.format = t.format ∧ p.sparse = (x.kind == 1) ∧ p.rows = x.count_ ∧ p.tid = x.tid
  words : ∀ r < 128, ∀ n < 256, mget 0 p.words (256 * r + n) = .ofNat 16 (word r n)
  bands : ∀ n < 256, mget 0x3F80 p.bands n = .ofNat 16 (rows.getD n noRow).band

/-- The weights of array row `r`, column `n` of a dense load: the elements k0 + k r on of tensor row ρ0 + n, zero outside the
extents and in the rows from R on (09 R192). -/
def denseBits (x : MCmd) (t : Tensor) (rows : List RowData) (r n : Nat) : Nat :=
  if r < x.count_ ∧ x.row + n < t.rows ∧ x.elem + perCell (pairOf t.format) * r < t.d0
  then elemAt (rows.getD n noRow).elems (elemBits t.format * perCell (pairOf t.format)) r else 0

/-- The block scale beside them (09 R191). -/
def denseSide (x : MCmd) (t : Tensor) (rows : List RowData) (r n : Nat) : Nat :=
  if r < x.count_ ∧ x.row + n < t.rows ∧ x.elem + perCell (pairOf t.format) * r < t.d0 ∧ pairOf t.format = 3
  then scaleOf t (rows.getD n noRow) (x.elem + perCell (pairOf t.format) * r) else 0

/-- The bits of a group of four kept elements of eight: those stored, or those that the metadata selects (14 R298). -/
def keptBits (t : Tensor) (elems h r : Nat) : Nat :=
  if t.sparse then elemAt elems 32 r
  else elemAt elems 8 (8 * r + h % 8) + 2 ^ 8 * elemAt elems 8 (8 * r + h / 8 % 8) + 2 ^ 16 * elemAt elems 8 (8 * r + h / 64 % 8)
    + 2 ^ 24 * elemAt elems 8 (8 * r + h / 512 % 8)

/-- A loaded cell of a sparse load: 32 bits and metadata; 0x0688 stands where there is no group (14 R298, 06 R128). -/
def sparseBits (x : MCmd) (t : Tensor) (rows : List RowData) (ms : List (List Nat)) (r n : Nat) : Nat × Nat :=
  if r < x.count_ ∧ x.row + n < t.rows ∧ x.elem + 8 * r < t.d0
  then (keptBits t (rows.getD n noRow).elems ((ms.getD r []).getD n 0x0688) r, (ms.getD r []).getD n 0x0688) else (0, 0x0688)

/-- A command faults at its start (14 R294, 25 R435): it is held where it stands, and the bundle that issued it takes the fault. -/
def HeldByFault (s t : State) (c i : Nat) (x : MCmd) (cause : Nat) (addr : Word) : Prop :=
  t = commandFault c x.src cause addr (modCmd s c i fun y => { y with phase := 2 }) ∧
  ((warpOf s c x.src.slot).serial = x.src.serial → (warpOf s c x.src.slot).st ≠ .free → (warpOf s c x.src.slot).kind ≠ .handler →
    FaultTaken {
      cause := cause, addr := addr, core := c, slot := x.src.slot, lanes := x.src.lanes, pc := x.src.pc,
      words := x.src.words, word := x.src.word, byCommand := true } s t)

/-- The beam engine of core `c` takes up the query `q`, one of those at work that may act, and stands at `v` (08 R188). -/
def TakesUp (s : State) (c : Nat) (q : Query) (v : State) : Prop :=
  ∃ rs i u, rs = readyQueries (coreOf s c) ∧ rs ≠ [] ∧ (i, u) = (if rs.length = 1 then (0, s) else pick s rs.length) ∧
    (coreOf u c).beams[rs.getD i 0]? = some q ∧ v = takeUp c (rs.getD i 0) u

end Sys2Proof

/-- 09 R191-R198, 14 R295, R298-R303, 06 R127-R134, 08 R171-R188: the commands of the matrix engine start, act and complete;
the beam engine takes a step of one of the sixteen queries at work. -/
def Obligations.EngineSteps : Prop :=
  -- the turn of a command: every earlier one runs, and the conditions of its kind hold
  (∀ (s : State) (c i : Nat) (t : Tensor) (x : MCmd), (cmdsOf s c)[i]? = some x → x.kind ≤ 5 →
    (nextCmd s c i t = true ↔ x.phase = 0 ∧ engineStops (coreOf s c) = false ∧
      ∀ e ∈ (cmdsOf s c).take i, e.phase = 1 ∧ MayOverlap x (wideLoad x t) e)) ∧
  -- WSWAP: a narrow pair changes its active plane, a wide one nothing
  (∀ (c i : Nat) (x : MCmd) (t : Tensor) (s v : State), MayStart s c i 2 x t v →
    ∃ u, exec (.swapStart c i) s = .next u ∧ NowRuns v u c i x false 0 0
      ∧ { (coreOf u c).matrix with cmds := [], active := 0 } = { (coreOf v c).matrix with cmds := [], active := 0 }
      ∧ (coreOf u c).matrix.active = if (coreOf v c).matrix.wide then (coreOf v c).matrix.active else 1 - (coreOf v c).matrix.active) ∧
  -- a narrow WLOAD fills the shadow plane; after a wide pair the active plane holds nothing
  (∀ (c i : Nat) (x : MCmd) (t : Tensor) (rows : List RowData) (s v w : State), MayStart s c i 0 x t v →
    loadBad x t = false → wideLoad x t = false → RowsRead v c x t false (perCell (pairOf t.format) * x.count_) 256 rows w →
    ∃ u bytes, exec (.weightLoadStart c i) s = .next u ∧ NowRuns w u c i x false bytes 0
      ∧ { (coreOf u c).matrix with cmds := [], planes := [], wide := false } = { (coreOf w c).matrix with cmds := [], planes := [], wide := false }
      ∧ (coreOf u c).matrix.wide = false
      ∧ Filled (planeOf u c (1 - (coreOf w c).matrix.active)) x t rows (denseBits x t rows)
      ∧ planeOf u c (coreOf w c).matrix.active
          = if (coreOf w c).matrix.wide then {} else planeOf w c (coreOf w c).matrix.active) ∧
  -- a wide WLOAD fills both planes and the side store
  (∀ (c i : Nat) (x : MCmd) (t : Tensor) (rows : List RowData) (s v w : State), MayStart s c i 0 x t v →
    loadBad x t = false → wideLoad x t = true → RowsRead v c x t false (perCell (pairOf t.format) * x.count_) 256 rows w →
    ∃ u bytes, exec (.weightLoadStart c i) s = .next u ∧ NowRuns w u c i x true bytes 0
      ∧ { (coreOf u c).matrix with cmds := [], planes := [], wide := false, side := [] }
          = { (coreOf w c).matrix with cmds := [], planes := [], wide := false, side := [] }
      ∧ (coreOf u c).matrix.wide = true
      ∧ Filled (planeOf u c 0) x t rows (denseBits x t rows)
      ∧ Filled (planeOf u c 1) x t rows (fun r n => denseBits x t rows r n / 2 ^ 16)
      ∧ ∀ r < 128, ∀ n < 256, mget 0 (coreOf u c).matrix.side (256 * r + n) = .ofNat 16 (denseSide x t rows r n)) ∧
  -- WLOADSP with its metadata
  (∀ (c i : Nat) (x : MCmd) (t : Tensor) (rows : List RowData) (ms : List (List Nat)) (s v w y : State), MayStart s c i 1 x t v →
    loadBad x t = false → RowsRead v c x t t.sparse (8 * x.count_) 256 rows w →
    spanHeld v c x.src.base (x.x2.toNat % 2 ^ 20, 512 * x.count_) = false →
    readMetas c x t x.count_ 0 w = (ms, none, y) →
    ∃ u bytes flags, exec (.weightLoadStart c i) s = .next u ∧ NowRuns y u c i x true bytes flags
      ∧ (coreOf u c).matrix.wide = true
      ∧ Filled (planeOf u c 0) x t rows (fun r n => (sparseBits x t rows ms r n).1)
      ∧ Filled (planeOf u c 1) x t rows (fun r n => (sparseBits x t rows ms r n).1 / 2 ^ 16)
      ∧ (∀ r < 128, ∀ n < 256, mget 0 (coreOf u c).matrix.side (256 * r + n) = .ofNat 16 (sparseBits x t rows ms r n).2)
      ∧ (t.sparse = true → flags = 0) ∧ (flags = 0 ∨ flags = flSKIPNF)) ∧
  -- the faults of a load at its start: TID_INVALID, and SPARSE_META at the first malformed halfword
  (∀ (c i kind : Nat) (x : MCmd) (t : Tensor) (s v : State), MayStart s c i kind x t v → kind ≤ 1 →
    (loadBad x t = true ∨ ∃ m < 256, ∃ sp ∈ rowSpans t t.sparse (x.row + m) x.elem (loadK x t * x.count_), spanIn x.src.size sp = false) →
    ∃ u, exec (.weightLoadStart c i) s = .next u ∧ HeldByFault v u c i x 0x0C 0) ∧
  (∀ (c i a : Nat) (x : MCmd) (t : Tensor) (rows : List RowData) (ms : List (List Nat)) (s v w y : State), MayStart s c i 1 x t v →
    loadBad x t = false → RowsRead v c x t t.sparse (8 * x.count_) 256 rows w →
    spanHeld v c x.src.base (x.x2.toNat % 2 ^ 20, 512 * x.count_) = false →
    readMetas c x t x.count_ 0 w = (ms, some a, y) →
    ∃ u z, exec (.weightLoadStart c i) s = .next u ∧ HeldByFault z u c i x 0x0D (.ofNat 64 a) ∧ cmdsOf z c = cmdsOf y c
      ∧ ∀ r < ms.length, ∀ n < 256, mget 0 (coreOf z c).matrix.side (256 * r + n) = .ofNat 16 (sparseBits x t rows ms r n).2) ∧
  -- MSTREAM: the words of its M rows, the kind bit and the band records
  (∀ (c i k row0 : Nat) (x : MCmd) (t : Tensor) (p : Weights) (rows : List RowData) (s v w : State), MayStart s c i 3 x t v →
    p = activeWeights (coreOf v c).matrix → streamBad x t p = false → k = fld x.cmd.toNat 9 8 → row0 = fld x.cmd.toNat 16 10 →
    RowsRead v c x t false (streamN p t) x.count_ rows w →
    ∃ u bytes flags, exec (.streamStart c i) s = .next u ∧ NowRuns w u c i x false bytes flags
      ∧ { (coreOf u c).matrix with cmds := [], tiles := [] } = { (coreOf w c).matrix with cmds := [], tiles := [] }
      ∧ (∀ j, j ≠ k → tileOf u c j = tileOf w c j)
      ∧ (tileOf u c k).count = (tileOf w c k).count ∧ (tileOf u c k).int = pairInt (pairOf t.format)
      ∧ (tileOf u c k).colBand = (planeOf v c (coreOf v c).matrix.active).bands
      ∧ (∀ j, mget 0x3F80 (tileOf u c k).rowBand j = if row0 ≤ j ∧ j < row0 + x.count_
          then .ofNat 16 (rows.getD (j - row0) noRow).band else mget 0x3F80 (tileOf w c k).rowBand j)
      ∧ (∀ m n, n < 256 → mget 0 (tileOf u c k).words (256 * m + n) = if row0 ≤ m ∧ m < row0 + x.count_
          then .ofNat 32 (streamWord x t p (rows.getD (m - row0) noRow) (mget 0 (tileOf w c k).words (256 * m + n)).toNat n).1
          else mget 0 (tileOf w c k).words (256 * m + n))
      ∧ ∀ b, mget 0 (coreOf u c).samples b = if b = x.src.ctx ∧ (ctxOf w b).mode = 0
          then mget 0 (coreOf w c).samples b + 1 else mget 0 (coreOf w c).samples b) ∧
  -- an INT8 word of a pass is the old word and the products of all 128 cells, modulo 2^32
  (∀ (x : MCmd) (t : Tensor) (p : Weights) (d : RowData) (old n : Nat), t.format = 8 → p.format = 8 → p.sparse = false → old < 2 ^ 32 →
    ((streamWord x t p d old n).1 : Int) = (signed 32 old + ((List.range 128).map fun r =>
      signed 8 ((p.cell r n).1 % 256) * signed 8 (elemAt d.elems 8 (2 * r))
        + signed 8 ((p.cell r n).1 / 256 % 256) * signed 8 (elemAt d.elems 8 (2 * r + 1))).sum) % 2 ^ 32) ∧
  -- a floating-point word: NaN makes the default NaN, opposed infinities an invalid operation, an infinity itself
  (∀ vs : List Machine.Num, (.nan ∈ vs → passWord vs = (f32.dnan, 0)) ∧
    (.nan ∉ vs → .inf true ∈ vs → .inf false ∈ vs → passWord vs = (f32.dnan, flNV)) ∧
    (.nan ∉ vs → .inf true ∉ vs → .inf false ∈ vs → passWord vs = (f32.infCode, 0)) ∧
    (.nan ∉ vs → .inf true ∈ vs → .inf false ∉ vs → passWord vs = (f32.sign true + f32.infCode, 0))) ∧
  -- MDRAIN: its rows through the drain chain into the window; ZERO clears the tile
  (∀ (c i k bias : Nat) (x : MCmd) (t : Tensor) (tile : Tile) (word : Nat → Nat → Nat) (s v w : State), MayStart s c i 4 x t v →
    k = fld x.cmd.toNat 9 8 → tile = tileOf v c k → drainBad x t tile.int = false →
    (∀ m < 128, spanIn x.src.size (drainSpan x t m).1 = true) →
    (bitAt x.cmd.toNat 12 = false ∧ w = v ∧ bias = 0 ∨ bitAt x.cmd.toNat 12 = true ∧ epiWord v c x.set 131 % 4 = 0
      ∧ epiWord v c x.set 131 + 1024 ≤ x.src.size ∧ spanRead c x.src (epiWord v c x.set 131, 1024) v = (bias, w)) →
    (∀ m n, word m n = (drainWord (drainCfg x t tile.int) (epiWord v c x.set) (mget 0 tile.words (m * 256 + n)).toNat
      (mget 0x3F80 tile.colBand n).toNat (mget 0x3F80 tile.rowBand m).toNat (elemAt bias 32 n)
      (if bitAt x.cmd.toNat 14 = true ∧ fld x.cmd.toNat 18 16 = 4 then (drainSeeds 32768 x.x2).getD (m * 256 + n) 0 else 0)).1) →
    ∃ u y bytes flags, exec (.drainStart c i) s = .next u
      ∧ y = drainWrite c x t (fun m => if m < 128 then (List.range 256).map (word m) else []) w
      ∧ NowRuns y u c i x false bytes flags
      ∧ (∀ j, tileOf u c j = if j = k ∧ bitAt x.cmd.toNat 15 = true then { count := (tileOf w c k).count } else tileOf w c j)
      ∧ ∀ a, a / 8 * 8 ∉ (coreOf w c).padBad →
          (∀ m < 128, ¬(x.src.base + (drainSpan x t m).1.1 ≤ a ∧ a < x.src.base + (drainSpan x t m).1.1 + (drainSpan x t m).1.2)) →
          mget (0 : Byte) (coreOf u c).pad a = mget 0 (coreOf w c).pad a) ∧
  -- EPISET: 144 words into its set, or ENGINE_ENTRY with the set as it was
  (∀ (c i val : Nat) (x : MCmd) (t : Tensor) (s v w : State), MayStart s c i 5 x t v →
    spanRead c x.src (x.x1.toNat % 2 ^ 20, 576) v = (val, w) →
    (nonFinite (f32.decode (elemAt val 32 128)) = false → nonFinite (f32.decode (elemAt val 32 129)) = false →
      ltNum (f32.decode (elemAt val 32 128)) (f32.decode (elemAt val 32 129)) = true → val / 2 ^ 4224 = 0 →
      ∃ u, exec (.episetStart c i) s = .next u ∧ NowRuns w u c i x false 0 0
        ∧ { (coreOf u c).matrix with cmds := [], epi := [] } = { (coreOf w c).matrix with cmds := [], epi := [] }
        ∧ ∀ j n, n < 144 → epiWord u c j n = if j = x.set then elemAt val 32 n else epiWord w c j n) ∧
    (nonFinite (f32.decode (elemAt val 32 128)) = true ∨ nonFinite (f32.decode (elemAt val 32 129)) = true ∨
      ltNum (f32.decode (elemAt val 32 128)) (f32.decode (elemAt val 32 129)) = false ∨ val / 2 ^ 4224 ≠ 0 →
      ∃ u, exec (.episetStart c i) s = .next u ∧ HeldByFault w u c i x 0x0E 0)) ∧
  -- a command that has run completes: flags, the count-down of its object, its pulse, its tile's count, in this order
  (∀ (c i : Nat) (x : MCmd) (s a b d : State), (cmdsOf s c)[i]? = some x → x.phase = 1 → x.sample = none → objReady s c x.obj = true →
    a = commandFlags c x.src.ctx x.mode x.flags x.obj s → b = (match x.obj with | some o => countDown a c o x.bytes | none => a) →
    d = (if bitAt x.cmd.toNat 57 then pulse c (fld x.cmd.toNat 56 52) b else b) →
    ∃ u, exec (.matrixCommandComplete c i) s = .next u ∧ cmdsOf u c = (cmdsOf s c).eraseIdx i
      ∧ (∀ j, tileOf u c j = if x.tile = some j then { tileOf s c j with count := (tileOf s c j).count - 1 } else tileOf s c j)
      ∧ (coreOf u c).pad = (coreOf d c).pad ∧ (coreOf u c).events = (coreOf d c).events ∧ u.ctxs = a.ctxs
      ∧ (x.mode = 0 ∨ x.obj = none → MergesFlags s u x.src.ctx x.flags)
      ∧ (x.leave = 0 → u.sectors = s.sectors)) ∧
  -- the beam engine: a bad record leaves with its reason; a query starts with its slots; an empty stack ends it; at a pop, as
  -- its core begins to drain, it is handed over
  (∀ (c : Nat) (q : Query) (s u v : State), TakesUp s c q v →
    (q.bad ≠ 0 → recordBad ⟨c, q.ctx, 4⟩ (beamOf q.ray q.image) q v = .ok () u → exec (.beamQueryStart c) s = .next u) ∧
    (q.bad = 0 → q.started = false → initSlots ⟨c, q.ctx, 4⟩ (beamOf q.ray q.image) v = .ok () u →
      exec (.beamQueryStart c) s = .next (modQuery c (fun q => { q with started := true }) u)) ∧
    (q.bad = 0 → q.started = true → q.stack = [] → finish ⟨c, q.ctx, 4⟩ (beamOf q.ray q.image) q v = .ok () u →
      exec (.beamQueryStart c) s = .next u) ∧
    (q.bad = 0 → q.started = true → q.stack ≠ [] → q.toEnd = false → (coreOf s c).draining = true →
      drainBeam ⟨c, q.ctx, 4⟩ (beamOf q.ray q.image) q v = .ok true u → exec (.beamQueryStart c) s = .next u)) ∧
  -- a leaf popped from its stack: its triangles are tried in ascending order
  (∀ (c e d va : Nat) (q : Query) (st : List Nat) (s u v : State), TakesUp s c q v →
    (coreOf s c).draining = false ∨ q.toEnd = true → q.bad = 0 → q.started = true →
    q.failed = [] → q.stack = st ++ [e] → e / 2 ^ 30 = 2 → va = (beamOf q.ray q.image).root + 64 * (e % 2 ^ 28) →
    vreadN ⟨c, q.ctx, 4⟩ va (64 * (fld e 29 28 + 1)) v = .ok d u →
    ∃ t, exec (.beamQueryStart c) s = .next t ∧ t = modQuery c (fun _ => (List.range (fld e 29 28 + 1)).foldl
      (fun q k => triangle (beamOf q.ray q.image) (d / 2 ^ (512 * k) % 2 ^ 512) q) { q with stack := st }) u)

/-! ## Chain entries -/

namespace Sys2Proof

/-- The starts of chain entries: their OP, core and queue (09 R201). -/
def chainStart : Instr → Option (Nat × Nat × Nat)
  | .chainCopy c q => some (1, c, q)
  | .chainStrided c q => some (2, c, q)
  | .chainGather c q => some (3, c, q)
  | .chainScatter c q => some (4, c, q)
  | .chainNmgather c q => some (5, c, q)
  | .chainMaskrow c q => some (6, c, q)
  | .chainInstar c q => some (7, c, q)
  | .rwrite c q => some (8, c, q)
  | .rreduce c q => some (9, c, q)
  | .chainLoop c q => some (10, c, q)
  | .chainCond c q => some (11, c, q)
  | .chainQfence c q => some (12, c, q)
  | .chainFollow c q => some (13, c, q)
  | .chainSignal c q => some (14, c, q)
  | _ => none

/-- Queue `q` of core `c` stands before the entry `e`, which has not started: read now, or as it was read when the queue began
to wait (05 R103), with its index list and mask; `bad`: a FOLLOW whose tensor cannot serve. -/
structure AtEntry (s : State) (c q : Nat) (h : Head) (k : CopyQ) (e : Nat) (idx : List Nat) (mask : Nat) (bad : Bool) (v : State) :
    Prop where
  queue : k = copyQOf s c q ∧ k.cur = some h ∧ k.err = false ∧ k.landed = false ∧ k.failed = false ∧ k.started = false
    ∧ k.waitCond = false
  going : engineStops (coreOf s c) = false
  read : ∃ u w, (if k.waitEv = true ∨ k.waitPwr = true then e = k.entry.toNat ∧ u = s else padNum c h.src k.off 32 s = (e, u))
    ∧ entryLists c h.src e u = (idx, mask, w) ∧ followCheck c q h e w = .done bad v

/-- The event of an entry is taken: it needs none, it has it, or its line has one count more than the sinks before it take
(09 R208, R209). -/
def EventMet (c q : Nat) (e : Entry) (v w : State) : Prop :=
  ((bitAt e 11 = false ∨ (copyQOf v c q).evTaken = true) ∧ w = v) ∨
  (bitAt e 11 = true ∧ (copyQOf v c q).evTaken = false ∧
    sinksAhead c q (fld e 21 17) v < mget 0 (coreOf v c).events (fld e 21 17) ∧ takeEvent c (fld e 21 17) v = some w)

/-- The entry's own work is done (05 R104, 04 R74): its ranges are free, and it goes on at `next` once it has completed. -/
structure Landed (s t : State) (c q bytes flags next : Nat) : Prop where
  core : OnlyCore s t c
  rest : { coreOf t c with queues := [], ranges := [] } = { coreOf s c with queues := [], ranges := [] }
  ranges : (coreOf t c).ranges = (coreOf s c).ranges.filter fun r => r.2.2 != q
  queues : ∀ p, copyQOf t c p = if p = q then { copyQOf s c q with
    landed := true, bytes := (copyQOf s c q).bytes + bytes, flags := (copyQOf s c q).flags ||| flags, next := next, waitCond := false }
    else copyQOf s c p

/-- A queue has stopped at its entry with ERR; its ranges are free (09 R204). -/
structure QueueStopped (s t : State) (c q : Nat) : Prop where
  err : (copyQOf t c q).err = true ∧ (copyQOf t c q).started = false ∧ (copyQOf t c q).off = (copyQOf s c q).off
    ∧ (copyQOf t c q).cur = (copyQOf s c q).cur ∧ (copyQOf t c q).heads = (copyQOf s c q).heads
  ranges : ∀ r ∈ (coreOf t c).ranges, r.2.2 ≠ q
  others : ∀ p, p ≠ q → copyQOf t c p = copyQOf s c p
  tiles : ∀ k, tileOf t c k = tileOf s c k

/-- The unit of a queue has no page request open, and none has just failed. -/
def UnitFree (s : State) (c q : Nat) : Prop := (∀ w ∈ (coreOf s c).unitWait, w.1 ≠ q) ∧ q ∉ (coreOf s c).unitFail

/-- The units of an entry run one after another to the end, from tally `a` to tally `b`. -/
def UnitsRun (c q : Nat) (e : Entry) (mask : Nat) (unit : Nat × Nat → M Nat) : List (Nat × Nat) → Tally → State → Tally → State → Prop
  | [], a, s, b, t => a = b ∧ s = t
  | x :: xs, a, s, b, t => UnitFree s c q ∧ ∃ g u, unit x s = .ok g u ∧
      UnitsRun c q e mask unit xs ⟨a.prog + x.2, a.bytes + unitBytes e mask x, a.flags ||| g⟩ u b t

/-- The units that a queue has left run to the end (05 R106). -/
abbrev LeftRun (c q : Nat) (k : CopyQ) (e : Entry) (unit : Nat × Nat → M Nat) (s : State) (b : Tally) (t : State) : Prop :=
  UnitsRun c q e k.mask unit (leftUnits k.prog0 (unitOrder e k.seed)) { prog := k.prog0 } s b t

/-- `n` bytes have been moved: read at `a`, written at `b`. -/
def Moved (c : Nat) (o : Origin) (e : Entry) (agent a b n : Nat) (s t : State) : Prop :=
  ∃ bs u, copyRead c o (eSrcPad e) a n agent s = .ok bs u ∧ copyWrite c o (eDstPad e) b bs u = .ok () t

/-- Test(v) of a COND against its operand (09 R202). -/
def CondHolds (t v x : Nat) : Prop :=
  (t = 0 ∧ v = x) ∨ (t = 1 ∧ v ≠ x) ∨ (t = 2 ∧ v < x) ∨ (t = 3 ∧ x ≤ v) ∨ (t = 4 ∧ v &&& x = x) ∨ (t = 5 ∧ v &&& x ≠ 0)

end Sys2Proof

/-- 09 R199-R207, 05 R104, R105, R107, 04 R74, 24 R425, R426: the steps of a chain's entries. -/
def Obligations.ChainSteps : Prop :=
  -- a well-formed entry starts: its event is taken, its ranges are registered
  (∀ (c q : Nat) (h : Head) (k : CopyQ) (e : Nat) (idx : List Nat) (mask : Nat) (bad : Bool) (own rs : List Span) (s v w : State),
    AtEntry s c q h k e idx mask bad v → malformed v h k.off e idx bad = none → EventMet c q e v w →
    eMoves e mask ≤ 65536 ∨ (copyQOf v c q).leave = 2 → entryRanges e idx = (own, rs) →
    ((coreOf v c).ranges.filter (·.2.2 != q)).length + own.length + rs.length ≤ 64 →
    ∃ u, gate (eOp e) c q s = .go h (copyQOf u c q) e u
      ∧ copyQOf u c q = { copyQOf v c q with
          entry := .ofNat 256 e, started := true, evTaken := (copyQOf v c q).evTaken || bitAt e 11, waitEv := false, waitPwr := false,
          idx := idx, mask := mask, seed := v.choice, mode := (ctxOf v h.src.ctx).mode }
      ∧ (coreOf u c).ranges = (coreOf v c).ranges.filter (·.2.2 != q) ++ rs.map (widen h.src q)
      ∧ (coreOf u c).events = (coreOf w c).events ∧ (coreOf u c).pad = (coreOf v c).pad) ∧
  -- a malformed one stops its queue; an event or leave that is not there makes it wait
  (∀ (i : Instr) (op c q reason : Nat) (h : Head) (k : CopyQ) (e : Nat) (idx : List Nat) (mask : Nat) (bad : Bool) (s v : State),
    chainStart i = some (op, c, q) → AtEntry s c q h k e idx mask bad v → op = eOp e ∨ op = 1 ∧ (eOp e = 0 ∨ 15 ≤ eOp e) →
    malformed v h k.off e idx bad = some reason → ∃ t, exec i s = .next t ∧ QueueStopped s t c q) ∧
  (∀ (i : Instr) (op c q : Nat) (h : Head) (k : CopyQ) (e : Nat) (idx : List Nat) (mask : Nat) (bad : Bool) (s v : State),
    chainStart i = some (op, c, q) → AtEntry s c q h k e idx mask bad v → op = eOp e → malformed v h k.off e idx bad = none →
    (bitAt e 11 = true → (copyQOf v c q).evTaken = false → (copyQOf v c q).waitEv = false →
      mget 0 (coreOf v c).events (fld e 21 17) ≤ sinksAhead c q (fld e 21 17) v →
      ∃ t, exec i s = .next t ∧ copyQOf t c q = { copyQOf v c q with entry := .ofNat 256 e, waitEv := true }) ∧
    (∀ w, EventMet c q e v w → 65536 < eMoves e mask → (copyQOf v c q).leave ≠ 2 → (copyQOf v c q).waitPwr = false →
      ∃ t, exec i s = .next t ∧ copyQOf t c q = { copyQOf v c q with
        entry := .ofNat 256 e, evTaken := (copyQOf v c q).evTaken || bitAt e 11, waitEv := false, waitPwr := true })) ∧
  -- its units: pieces that end at the destination's 4,096-byte boundaries, rows or elements, in any order; packets in order
  (∀ (e : Entry) (n : Nat), (unitOrder e n).Perm (eUnits e) ∧ (eOp e = 8 ∨ eOp e = 9 → unitOrder e n = eUnits e)) ∧
  (∀ (e : Entry), (eOp e = 1 ∨ eOp e = 13 → (∀ x ∈ eUnits e, 1 ≤ x.2 ∧ x.1 + x.2 ≤ eLen e ∧ (eDst e + x.1) % 4096 + x.2 ≤ 4096) ∧
      ((eUnits e).map (·.2)).sum = eLen e ∧ (eUnits e).Pairwise fun x y => x.1 + x.2 ≤ y.1) ∧
    (eOp e = 2 ∨ eOp e = 6 → eUnits e = (List.range (eRows e)).map fun p => (p, 1)) ∧
    (3 ≤ eOp e → eOp e ≤ 5 → eUnits e = (List.range (eLen e)).map fun p => (p, 1))) ∧
  -- COPY, STRIDED, GATHER, SCATTER, NMGATHER, MASKROW: unit after unit, then the entry has landed
  (∀ (i : Instr) (op c q : Nat) (h : Head) (k : CopyQ) (e : Nat) (b : Tally) (s u v : State), chainStart i = some (op, c, q) →
    1 ≤ op → op ≤ 6 → gate op c q s = .go h k e u → LeftRun c q k e (copyUnit c h.src e k.idx k.mask) u b v →
    ∃ t, exec i s = .next t ∧ Landed v t c q b.bytes b.flags (k.off + 32)) ∧
  -- a unit moves its piece, row or element; a masked-out row is zero-filled or left out, and reported if it is not finite
  (∀ (c n mask : Nat) (x : Nat × Nat) (o : Origin) (e : Entry) (idx : List Nat) (s t : State),
    (eOp e = 1 ∨ eOp e = 13 → Moved c o e 2 (eSrc e + x.1) (eDst e + x.1) x.2 s t → copyUnit c o e idx mask x s = .ok 0 t) ∧
    (eOp e = 2 → Moved c o e 2 (stepAddr (eSrc e) (x.1 * eSStride e)) (stepAddr (eDst e) (x.1 * eDStride e)) (eRowLen e) s t →
      copyUnit c o e idx mask x s = .ok 0 t) ∧
    (eOp e = 3 → Moved c o e 2 (eSrc e + idx.getD x.1 0 * eEsize e) (eDst e + x.1 * eEsize e) (eEsize e) s t →
      copyUnit c o e idx mask x s = .ok 0 t) ∧
    (eOp e = 4 → Moved c o e 2 (eSrc e + x.1 * eEsize e) (eDst e + idx.getD x.1 0 * eEsize e) (eEsize e) s t →
      copyUnit c o e idx mask x s = .ok 0 t) ∧
    (eOp e = 5 → Moved c o e 8 (eSrc e + idx.getD x.1 0 * eEsize e) (eDst e + x.1 * eEsize e) (eEsize e) s t →
      copyUnit c o e idx mask x s = .ok 0 t) ∧
    (eOp e = 6 → bitAt mask x.1 = true → n = (if bitAt e 62 then ((List.range x.1).filter (bitAt mask ·)).length else x.1) →
      Moved c o e 2 (stepAddr (eSrc e) (x.1 * eSStride e)) (eDst e + n * eRowLen e) (eRowLen e) s t →
      copyUnit c o e idx mask x s = .ok 0 t) ∧
    (eOp e = 6 → bitAt mask x.1 = false → fld e 61 54 = 0 → bitAt e 62 = true → copyUnit c o e idx mask x s = .ok 0 s) ∧
    (eOp e = 6 → bitAt mask x.1 = false → fld e 61 54 = 0 → bitAt e 62 = false →
      copyWrite c o (eDstPad e) (eDst e + x.1 * eRowLen e) (List.replicate (eRowLen e) 0) s = .ok () t →
      copyUnit c o e idx mask x s = .ok 0 t) ∧
    (∀ bs, eOp e = 6 → bitAt mask x.1 = false → fld e 61 54 ≠ 0 → bitAt e 62 = true →
      copyRead c o (eSrcPad e) (stepAddr (eSrc e) (x.1 * eSStride e)) (eRowLen e) 2 s = .ok bs t →
      copyUnit c o e idx mask x s = .ok (if rowNonFinite (fld e 61 54) bs then flSKIPNF else 0) t)) ∧
  -- INSTAR: its output lands in the window; a malformed code stops the queue
  (∀ (c q : Nat) (h : Head) (k : CopyQ) (e : Nat) (out : Option (List Byte)) (s u v : State),
    gate 7 c q s = .go h k e u → UnitFree u c q → instarOut c h.src e u = .ok out v →
    (∀ bs, out = some bs → ∃ t, exec (.chainInstar c q) s = .next t
      ∧ Landed (engWrite v c (h.src.base + eDst e) bs) t c q bs.length 0 (k.off + 32)) ∧
    (out = none → ∃ t, exec (.chainInstar c q) s = .next t ∧ QueueStopped v t c q)) ∧
  -- RWRITE and RREDUCE: packets of at most 512 bytes in rising order, then the entry has landed
  (∀ (i : Instr) (op c q : Nat) (h : Head) (k : CopyQ) (e : Nat) (b : Tally) (s u v : State), chainStart i = some (op, c, q) →
    op = 8 ∨ op = 9 → gate op c q s = .go h k e u → LeftRun c q k e (remoteUnit c q h.src e) u b v →
    ∃ t, exec i s = .next t ∧ Landed v t c q b.bytes b.flags (k.off + 32)) ∧
  (∀ (c q z : Nat) (x : Nat × Nat) (o : Origin) (e : Entry) (bs : List Byte) (s u : State), c < 192 → q < 8 → eOp e = 8 ∨ eOp e = 9 →
    z = (if eOp e = 9 then ropSize (fld e 49 46) else 1) → x.2 * z ≤ 512 → copyRead c o (eSrcPad e) (eSrc e + x.1 * z) (x.2 * z) 2 s = .ok bs u →
    bs.length = x.2 * z →
    ∃ t r, remoteUnit c q o e x s = .ok 0 t ∧ t.sent = u.sent ++ [r] ∧ r.bytes = bs ∧ r.pkg = fld e 45 38
      ∧ r.va = (eDst e + x.1 * z) % 2 ^ 57 ∧ r.rop = (if eOp e = 9 then fld e 49 46 + 1 else 0) ∧ r.det = (eOp e == 9 && bitAt e 50)
      ∧ r.ctx = o.ctx ∧ r.core = c ∧ r.q = q ∧ r.window = windowNow u
      ∧ ∃ y, (mget {} t.ports (sendPort u (secOf c))).outbox = (mget {} u.ports (sendPort u (secOf c))).outbox ++ [y]
        ∧ y.1 = 1 ∧ y.2.1 = (bs.length + 31) / 32 + 1 ∧ pKind y.2.2.2 = (if eOp e = 9 then 0x11 else 0x10) ∧ pDst y.2.2.2 = r.pkg
        ∧ pAddr y.2.2.2 = r.va ∧ pLen y.2.2.2 = bs.length ∧ pSendq y.2.2.2 = 8 * c + q ∧ pWindow y.2.2.2 = r.window % 2 ^ 32
        ∧ y.2.2.2 / 2 ^ 256 = ofBytes bs) ∧
  -- LOOP: REMAIN counts down and the body's addresses are stepped; at 0 both are as they were, and the chain goes on
  (∀ (c q : Nat) (h : Head) (k : CopyQ) (e : Nat) (s u : State), gate 10 c q s = .go h k e u →
    (0 < fld e 255 224 → ∃ t, exec (.chainLoop c q) s = .next t ∧ Landed
      (stepBody c h.src (signed 32 (fld e 95 64)) (signed 32 (fld e 159 128)) ((k.off - eTarget e) / 32) (eTarget e)
        (engWrite u c (h.src.base + k.off + 28) (leBytes 4 (fld e 255 224 - 1)))) t c q 0 0 (eTarget e)) ∧
    (fld e 255 224 = 0 → ∃ t, exec (.chainLoop c q) s = .next t ∧ Landed
      (stepBody c h.src (-((eLen e : Int) * signed 32 (fld e 95 64))) (-((eLen e : Int) * signed 32 (fld e 159 128)))
        ((k.off - eTarget e) / 32) (eTarget e) (engWrite u c (h.src.base + k.off + 28) (leBytes 4 (eLen e)))) t c q 0 0 (k.off + 32))) ∧
  -- COND reads its word: it goes on, polls, or jumps; COND_POLL reads again no sooner than 64 clk later
  (∀ (i : Instr) (c q : Nat) (h : Head) (k : CopyQ) (e : Nat) (bs : List Byte) (s u v : State),
    (i = .chainCond c q ∧ (copyQOf s c q).waitCond = false ∧ gate 11 c q s = .go h k e u) ∨
      (i = .condPoll c q ∧ u = s ∧ k = copyQOf s c q ∧ h = curHead k ∧ e = k.entry.toNat ∧ k.waitCond = true ∧ k.err = false
        ∧ k.landed = false ∧ k.failed = false ∧ engineStops (coreOf s c) = false ∧ k.polled + 64 ≤ s.clk) →
    fld e 60 58 ≤ 5 → UnitFree u c q → copyRead c h.src (eSrcPad e) (eSrc e) 8 2 u = .ok bs v →
    (CondHolds (fld e 60 58) (ofBytes bs) (fld e 255 192) → ∃ t, exec i s = .next t ∧ Landed v t c q 0 0 (k.off + 32)) ∧
    (¬CondHolds (fld e 60 58) (ofBytes bs) (fld e 255 192) → bitAt e 61 = false →
      ∃ t, exec i s = .next t ∧ Landed v t c q 0 0 (eTarget e)) ∧
    (¬CondHolds (fld e 60 58) (ofBytes bs) (fld e 255 192) → bitAt e 61 = true →
      ∃ t, exec i s = .next t ∧ copyQOf t c q = { copyQOf v c q with waitCond := true, polled := v.clk }
        ∧ ∀ r ∈ (coreOf t c).ranges, r.2.2 ≠ q)) ∧
  -- QFENCE: the chains that the named queues held when it started have ended
  (∀ (c q : Nat) (h : Head) (k : CopyQ) (e : Nat) (s u : State), gate 12 c q s = .go h k e u →
    ((copyQOf s c q).started = false → (∀ j < 8, j ≠ q → bitAt e (38 + j) = true → (copyQOf u c j).kicks ≤ (copyQOf u c j).ends) →
      ∃ t, exec (.chainQfence c q) s = .next t ∧ Landed (modCopyQ u c q fun k => { k with fence := [] }) t c q 0 0 (k.off + 32)) ∧
    ((copyQOf s c q).started = false → (∃ j < 8, j ≠ q ∧ bitAt e (38 + j) = true ∧ (copyQOf u c j).ends < (copyQOf u c j).kicks) →
      ∃ t, exec (.chainQfence c q) s = .next t ∧ (copyQOf t c q).landed = (copyQOf u c q).landed
        ∧ ∀ j < 8, mget 0 (copyQOf t c q).fence j = if j ≠ q ∧ bitAt e (38 + j) = true then (copyQOf u c j).kicks else 0)) ∧
  -- FOLLOW: the copy, its ranges free once it has landed; then its matrix command reaches the engine, as soon as that has room
  (∀ (c q : Nat) (h : Head) (k : CopyQ) (e : Nat) (b : Tally) (s u w : State),
    gate 13 c q s = .go h k e u → LeftRun c q k e (copyUnit c h.src e [] 0) u b w →
    (matrixRoom w c = true → ∃ t, exec (.chainFollow c q) s = .next t
      ∧ Landed (acceptCmd c (followCmd h e) w) t c q b.bytes b.flags (k.off + 32) ∧ cmdsOf t c = cmdsOf w c ++ [followCmd h e]) ∧
    (matrixRoom w c = false → k.prog0 ≠ eLen e → ∃ t, exec (.chainFollow c q) s = .next t ∧ (copyQOf t c q).prog0 = b.prog
      ∧ (copyQOf t c q).landed = (copyQOf w c q).landed ∧ cmdsOf t c = cmdsOf w c ∧ ∀ r ∈ (coreOf t c).ranges, r.2.2 ≠ q)) ∧
  -- SIGNAL: a release; it stores its value or adds it, in the window or in memory
  (∀ (c q : Nat) (h : Head) (k : CopyQ) (e : Nat) (s u v : State), gate 14 c q s = .go h k e u → UnitFree u c q →
    (fld e 40 38 = 4 → remoteOut u c = false) →
    (bitAt e 41 = false → copyWrite c h.src (eDstPad e) (eDst e) (leBytes 8 (fld e 255 192)) u = .ok () v →
      ∃ t, exec (.chainSignal c q) s = .next t ∧ Landed v t c q 0 0 (k.off + 32)) ∧
    (∀ old, bitAt e 41 = true → eDstPad e = false →
      vatomic ⟨c, h.src.ctx, 2⟩ (eDst e) 8 (fun old => some ((old + fld e 255 192) % 2 ^ 64)) u = .ok old v →
      ∃ t, exec (.chainSignal c q) s = .next t ∧ Landed v t c q 0 0 (k.off + 32)) ∧
    (∀ bs w, bitAt e 41 = true → eDstPad e = true → padRead u c h.src.ctx 2 (h.src.base + eDst e) 8 2 = (bs, w) →
      ∃ t, exec (.chainSignal c q) s = .next t
        ∧ Landed (engWrite w c (h.src.base + eDst e) (leBytes 8 (ofBytes bs + fld e 255 192))) t c q 0 0 (k.off + 32))) ∧
  -- CHAIN_ENTRY_COMPLETE: flags, count-down, pulse; then the next entry, or the next chain
  (∀ (c q e : Nat) (h : Head) (k k' : CopyQ) (obj : Option Nat) (s a b d : State), k = copyQOf s c q → k.landed = true → h = curHead k →
    e = k.entry.toNat → obj = (eObj e).map (h.src.base + ·) → objReady s c obj = true →
    a = commandFlags c h.src.ctx k.mode k.flags obj s → b = (match obj with | some o => countDown a c o k.bytes | none => a) →
    d = (if bitAt e 10 then pulse c (fld e 16 12) b else b) →
    k' = { k with
      landed := false, started := false, bytes := 0, flags := 0, evTaken := false, leave := 0, prog0 := 0, prog1 := 0,
      off := k.next, entry := 0, idx := [], mask := 0, seed := 0, mode := 0 } →
    ∃ t, exec (.chainEntryComplete c q) s = .next t ∧ (coreOf t c).pad = (coreOf d c).pad ∧ (coreOf t c).events = (coreOf d c).events
      ∧ t.ctxs = a.ctxs
      ∧ (¬(k.next = k.off + 32 ∧ eLast e = true) → copyQOf t c q = k' ∧ ∀ j, tileOf t c j = tileOf s c j)
      ∧ (k.next = k.off + 32 → eLast e = true →
          copyQOf t c q = (match k.heads with
            | [] => { k' with ends := k.ends + 1, cur := none }
            | x :: r => { k' with ends := k.ends + 1, heads := r, cur := some x, off := x.off })
          ∧ ∀ j, tileOf t c j = if j < 4 ∧ bitAt h.tiles j = true
              then { tileOf s c j with count := (tileOf s c j).count - 1 } else tileOf s c j)) ∧
  -- CHAIN_ACCESS_FAILED: the queue stops with reason 12 and keeps its progress
  ∀ (c q : Nat) (s : State), (copyQOf s c q).failed = true → ∃ t, exec (.chainAccessFailed c q) s = .next t ∧ QueueStopped s t c q
    ∧ (copyQOf t c q).failed = false ∧ (copyQOf t c q).prog0 = (copyQOf s c q).prog0

/-! ## FloxLink -/

namespace Sys2Proof

/-- What follows another block in sequence: BSEQ counts modulo 256 (21 R361). -/
def hdrSeq (h : BitVec 20) : BitVec 8 := .ofNat 8 (fld h.toNat 19 12)
/-- The far side's BACK. -/
def hdrBack (h : BitVec 20) : BitVec 8 := .ofNat 8 (fld h.toNat 11 4)

/-- Nothing but the ports and the list of remote writes under way has changed. -/
def OnlyLinks (s t : State) : Prop := { t with ports := [], sent := [] } = { s with ports := [], sent := [] }

/-- What a packet event carries: port, KIND, channel, whether it has a payload, whether it is fabric traffic, the KIND of the
error record of a discard, the header flit and the payload (21 R363, R364, 24 R419). -/
structure Packet where
  port : Nat
  kind : Nat
  vc : Nat
  payload : Bool
  fabric : Bool
  log : Nat
  hdr : BitVec 256
  data : List Byte

/-- The packet events. -/
def packetOf : Instr → Option Packet
  | .rdreq p h d => some ⟨p, 0x01, 0, false, false, 3, h, d⟩
  | .wrreq p h d => some ⟨p, 0x03, 0, true, false, 3, h, d⟩
  | .mrdreq p h d => some ⟨p, 0x04, 0, false, false, 3, h, d⟩
  | .mwrreq p h d => some ⟨p, 0x06, 0, true, false, 3, h, d⟩
  | .rwritePacket p h d => some ⟨p, 0x10, 1, true, true, 1, h, d⟩
  | .rreducePacket p h d => some ⟨p, 0x11, 1, true, true, 2, h, d⟩
  | .timePacket p h d => some ⟨p, 0x20, 2, true, false, 3, h, d⟩
  | .creditPacket p h => some ⟨p, 0x30, 3, false, false, 3, h, []⟩
  | _ => none

/-- A packet keeps the form of its kind (21 R363, R364): reserved bits zero, its channel, as many data flits as its LEN asks, and
the fields that it does not use zero; a TAG may stand in any request (log 19). -/
structure GoodForm (P : Packet) (h : Nat) : Prop where
  is : h = P.hdr.toNat ∧ pKind h = P.kind
  reserved : bitAt h 240 = false ∧ fld h 95 91 = 0 ∧ fld h 58 0 = 0
  channel : pVc h = P.vc
  size : P.data.length = (if P.payload then pLen h else 0) ∧ pFlits h = (if P.payload then (pLen h + 31) / 32 else 0)
  fields : if P.fabric then pTag h = 0 ∧ pSendq h < 1536 ∧ pDomain h ≠ 0
    else pSrc h = 0 ∧ pDst h = 0 ∧ pDomain h = 0 ∧ pWindow h = 0 ∧ pSendq h = 0 ∧ pRop h = 0 ∧ pDet h = false

/-- The state once a packet's credit has been given back, on its own channel (21 R362). -/
def credited (P : Packet) (s : State) : State := returnCredit P.port (pVc P.hdr.toNat) (pFlits P.hdr.toNat + 1) s

/-- One packet more stands on a port's list, on channel `vc`; nothing else of `s` has changed. -/
structure Posted (s t : State) (p vc kind : Nat) (data : List Byte) (v : Nat) : Prop where
  only : { t with ports := [] } = { s with ports := [] }
  others : ∀ j, j ≠ p → portAt t j = portAt s j
  port : portAt t p = { portAt s p with outbox := (portAt s p).outbox ++ [(vc, (data.length + 31) / 32 + 1, 0, v)] }
  header : pKind v = kind ∧ pVc v = vc ∧ pFlits v = (data.length + 31) / 32 ∧ v / 2 ^ 256 = ofBytes data

/-- A port sends its packets under credit, those of one channel in order, at most 20 flits a block (21 R361, R362); `held`: its
remote writes wait for those left on another port (23 R416, log 9). -/
structure BlockFilled (k : Port) (held : Bool) (out rest : List (Nat × Nat × Nat × Nat)) : Prop where
  order : ∀ vc, (out.filter (·.1 == vc)) ++ (rest.filter (·.1 == vc)) = k.outbox.filter (·.1 == vc)
  room : (out.map (·.2.1)).sum ≤ 20
  credit : flitsOf 0 out ≤ k.credit0 ∧ flitsOf 1 out ≤ k.credit1 ∧ flitsOf 2 out ≤ k.credit2
  first : ∀ x r, k.outbox = x :: r → x.2.1 ≤ 20 → x.1 = 3 ∨ x.1 = 0 ∧ x.2.1 ≤ k.credit0 ∨ x.1 = 1 ∧ held = false ∧ x.2.1 ≤ k.credit1 ∨
    x.1 = 2 ∧ x.2.1 ≤ k.credit2 → out.head? = some x
  holds : held = true → ∀ x ∈ out, x.1 ≠ 1

/-- The remote writes of a sector wait on port `far`, its lowest port that is up (21 R365, 23 R416): what stood on its other ports
comes first, in the ports' order; `o` gives the ports' lists before, `up` which of them are up. -/
structure Carried (t : State) (x far : Nat) (up : Nat → Bool) (o : Nat → List (Nat × Nat × Nat × Nat)) : Prop where
  lowest : far / 6 = x ∧ up far = true ∧ ∀ j, j / 6 = x → j < far → up j = false
  carries : (portAt t far).outbox = (((List.range 6).map (6 * x + ·)).filter (· != far)).flatMap (fun j => (o j).filter (·.1 == 1)) ++ o far
  others : ∀ j, j / 6 = x → j ≠ far → (portAt t j).outbox = (o j).filter (·.1 != 1)

end Sys2Proof

/-- 21 R361-R365, R379, 05 R107, 23 R416, R417, 24 R419, R430: blocks, credit, packets and received remote writes. -/
def Obligations.LinkSteps : Prop :=
  -- BLOCK_RECEIVE: the next block in sequence is accepted, with its BACK; another one is discarded and sets BNAK
  (∀ (p : Nat) (good : Bool) (h : BitVec 20) (s : State), (portAt s p).up = true →
    (good = true → hdrSeq h = (portAt s p).rx + 1 → ∃ t, exec (.blockReceive p good h) s = .next t ∧ OnlyLinks s t
      ∧ (∀ j, j ≠ p → portAt t j = portAt s j) ∧ (portAt t p).rx = (portAt s p).rx + 1 ∧ (portAt t p).back = hdrBack h
      ∧ (portAt t p).kept = (portAt s p).kept.filter (fun b => sentAfter (hdrBack h) b.1)
      ∧ (portAt t p).unacked = (if hdrBack h = (portAt s p).back then (portAt s p).unacked else 0)
      ∧ (portAt t p).resend = (if h.getLsbD 3 = true
          then (((portAt s p).kept.filter fun b => sentAfter (hdrBack h) b.1).map (·.1)).reverse else (portAt s p).resend)
      ∧ t.sent = s.sent) ∧
    (good = false ∨ hdrSeq h ≠ (portAt s p).rx + 1 → ∃ t, exec (.blockReceive p good h) s = .next t
      ∧ OnlyLinks s t ∧ t.sent = s.sent ∧ ∀ j, portAt t j = if j = p then { portAt s p with bnak := true } else portAt s j)) ∧
  -- BLOCK_SEND: packets under credit, kept among the last 128 blocks
  (∀ (p : Nat) (s : State), (portAt s p).up = true → (portAt s p).resend = [] → (portAt s p).unacked < 128 →
    ∃ t out rest, exec (.blockSend p) s = .next t ∧ OnlyLinks s t ∧ t.sent = s.sent ∧ BlockFilled (portAt s p) (remoteElsewhere s p) out rest
      ∧ ∀ j, portAt t j = if j = p then { portAt s p with
          bseq := (portAt s p).bseq + 1, bnak := false, unacked := (portAt s p).unacked + 1, outbox := rest,
          kept := (((portAt s p).bseq, out) :: (portAt s p).kept).take 128, credit0 := (portAt s p).credit0 - flitsOf 0 out,
          credit1 := (portAt s p).credit1 - flitsOf 1 out, credit2 := (portAt s p).credit2 - flitsOf 2 out } else portAt s j) ∧
  (∀ (p : Nat) (b : BitVec 8) (rest : List (BitVec 8)) (s : State), (portAt s p).up = true → (portAt s p).resend = b :: rest →
    (portAt s p).unacked < 128 → ∃ t, exec (.blockResend p) s = .next t ∧ OnlyLinks s t ∧ t.sent = s.sent
      ∧ ∀ j, portAt t j = if j = p then { portAt s p with resend := rest, bnak := false, unacked := (portAt s p).unacked + 1 }
          else portAt s j) ∧
  -- LINK_DOWN: what was not known to arrive waits to be sent again, remote writes on the lowest port of the sector that is up;
  -- LINK_RETRAIN_COMPLETE: the port starts anew, and carries them if it is now the lowest
  (∀ (p : Nat) (all : List (Nat × Nat × Nat × Nat)) (s : State), (portAt s p).up = true →
    all = (portAt s p).kept.reverse.flatMap (·.2) ++ (portAt s p).outbox →
    ∃ t, exec (.linkDown p) s = .next t ∧ OnlyLinks s t ∧ t.sent = s.sent ∧ (portAt t p).up = false ∧ (portAt t p).kept = []
      ∧ ((∀ j, j / 6 = p / 6 → j ≠ p → (portAt s j).up = false) → (portAt t p).outbox = all.filter (·.1 != 3))
      ∧ ∀ far up, up = (fun j => j != p && (portAt s j).up) → far / 6 = p / 6 → up far = true → (∀ j, j / 6 = p / 6 → j < far → up j = false) →
          Carried t (p / 6) far up fun j => if j = p then all.filter (·.1 != 3) else (portAt s j).outbox) ∧
  (∀ (p far : Nat) (up : Nat → Bool) (s : State), (portAt s p).up = false → up = (fun j => j == p || (portAt s j).up) →
    far / 6 = p / 6 → up far = true → (∀ j, j / 6 = p / 6 → j < far → up j = false) →
    ∃ t, exec (.linkRetrainComplete p) s = .next t ∧ OnlyLinks s t ∧ t.sent = s.sent
      ∧ { portAt t p with outbox := [] } = {} ∧ (∀ j, j ≠ p → { portAt t j with outbox := [] } = { portAt s j with outbox := [] })
      ∧ Carried t (p / 6) far up fun j => (portAt s j).outbox) ∧
  -- a packet of a reserved KIND, and one that breaks the form of its kind, are discarded and logged
  (∀ (i : Instr) (P : Packet) (s : State), packetOf i = some P →
    (pKind P.hdr.toNat ∉ [0x01, 0x02, 0x03, 0x04, 0x05, 0x06, 0x10, 0x11, 0x20, 0x30] →
      exec i s = .next (dropPacket P.port P.hdr.toNat 3 0 2 (credited P s))) ∧
    (pKind P.hdr.toNat = P.kind → ¬GoodForm P P.hdr.toNat →
      exec i s = .next (dropPacket P.port P.hdr.toNat P.log
        (if P.kind = 0x20 ∨ P.kind = 0x30 then 0 else pAddr P.hdr.toNat) 3 (credited P s)))) ∧
  (∀ (p vc n : Nat) (s : State), vc < 3 → n < 65536 → ∃ v, Posted s (returnCredit p vc n s) p 3 0x30 [] v ∧ pAddr v = n * 2 ^ (16 * vc)) ∧
  (∀ (p vc n : Nat) (s : State), 3 ≤ vc → returnCredit p vc n s = s) ∧
  -- RDREQ and WRREQ reach the device registers
  (∀ (p h : Nat) (hdr : BitVec 256) (data : List Byte) (s u : State), GoodForm ⟨p, 0x01, 0, false, false, 3, hdr, data⟩ h →
    u = credited ⟨p, 0x01, 0, false, false, 3, hdr, data⟩ s → pLen h = 8 → registerAddr (pAddr h) = true →
    ∃ t v, exec (.rdreq p hdr data) s = .next t
      ∧ Posted (afterRead (pAddr h) u) t p 0 0x02 (leBytes 8 (readRegister u (pAddr h)).toNat) v ∧ pTag v = pTag h ∧ pLen v = 8) ∧
  (∀ (p h : Nat) (hdr : BitVec 256) (data : List Byte) (s u : State), GoodForm ⟨p, 0x03, 0, true, false, 3, hdr, data⟩ h →
    u = credited ⟨p, 0x03, 0, true, false, 3, hdr, data⟩ s → pLen h = 8 → registerAddr (pAddr h) = true →
    exec (.wrreq p hdr data) s = .next (writeRegister (pAddr h) (.ofNat 64 (ofBytes data)) u)) ∧
  -- MRDREQ and MWRREQ reach memory through the home slice; one that breaks their rules is discarded
  (∀ (p h : Nat) (hdr : BitVec 256) (data bs : List Byte) (s u w : State), GoodForm ⟨p, 0x04, 0, false, false, 3, hdr, data⟩ h →
    u = credited ⟨p, 0x04, 0, false, false, 3, hdr, data⟩ s →
    (pAddr h < 2 ^ 52 → memoryRequestOk u (pAddr h) (pLen h) = true → readPhys (hostWho (pAddr h)) (pAddr h) (pLen h) 0 u = .ok bs w → bs.length = pLen h →
      ∃ t v, exec (.mrdreq p hdr data) s = .next t ∧ Posted w t p 0 0x05 bs v ∧ pTag v = pTag h ∧ pLen v = pLen h) ∧
    (2 ^ 52 ≤ pAddr h ∨ memoryRequestOk u (pAddr h) (pLen h) = false →
      exec (.mrdreq p hdr data) s = .next (dropPacket p h 3 (pAddr h) (if pAddr h < 2 ^ 52 then 4 else 3) u))) ∧
  (∀ (p h : Nat) (hdr : BitVec 256) (data : List Byte) (s u : State), GoodForm ⟨p, 0x06, 0, true, false, 3, hdr, data⟩ h →
    u = credited ⟨p, 0x06, 0, true, false, 3, hdr, data⟩ s →
    (pAddr h < 2 ^ 52 → memoryRequestOk u (pAddr h) (pLen h) = true → backed (pAddr h) = true →
      exec (.mwrreq p hdr data) s = .next (hostWords (pLen h / 8) (pAddr h) data u)) ∧
    (2 ^ 52 ≤ pAddr h ∨ memoryRequestOk u (pAddr h) (pLen h) = false →
      exec (.mwrreq p hdr data) s = .next (dropPacket p h 3 (pAddr h) (if pAddr h < 2 ^ 52 then 4 else 3) u))) ∧
  (∀ (a : Nat) (bs : List Byte) (s : State), statusSlot a = none → hostWord a bs s = storeAt s (homeSector a) a bs) ∧
  -- what a memory request must be: 8-byte words, at most 512 bytes, inside one 4,096-byte page; before READY in the second tier
  (∀ (s : State) (a n : Nat), memoryRequestOk s a n = true ↔ a % 8 = 0 ∧ n % 8 = 0 ∧ n ≠ 0 ∧ n ≤ 512 ∧ a % 4096 + n ≤ 4096
    ∧ (s.mgmt.ready = true ∨ inTier2 a = true)) ∧
  -- RWRITE and RREDUCE packets wait to be applied in the context that they name; one that names none is discarded
  (∀ (i : Instr) (p h kind log rop : Nat) (hdr : BitVec 256) (data : List Byte) (s u : State),
    (i = .rwritePacket p hdr data ∧ kind = 0x10 ∧ log = 1 ∧ rop = 0 ∧ pRop h = 0 ∧ pDet h = false) ∨
      (i = .rreducePacket p hdr data ∧ kind = 0x11 ∧ log = 2 ∧ rop = pRop h + 1 ∧ pRop h < 6
        ∧ pLen h % ropSize (pRop h) = 0 ∧ pAddr h % ropSize (pRop h) = 0) →
    GoodForm ⟨p, kind, 1, true, true, log, hdr, data⟩ h → u = credited ⟨p, kind, 1, true, true, log, hdr, data⟩ s →
    pAddr h < 2 ^ 57 → 1 ≤ pLen h → pLen h ≤ 512 →
    (∀ ctx, fabricCtx u h = some ctx → ∃ r, exec i s = .next { u with received := u.received ++ [r] } ∧ r.core = pSendq h / 8
      ∧ r.q = pSendq h % 8 ∧ r.pkg = pSrc h ∧ r.ctx = ctx ∧ r.va = pAddr h ∧ r.bytes = data ∧ r.window = pWindow h ∧ r.rop = rop
      ∧ r.det = pDet h ∧ r.wait = none ∧ r.failed = false) ∧
    (fabricCtx u h = none → exec i s = .next (dropPacket p h log (pAddr h) 1 u))) ∧
  -- REMOTE_WRITE_APPLY: the writes of one window queue are applied in order; one that is refused is dropped; a late one is logged
  (∀ (i : Nat) (r : Remote) (s : State), s.received[i]? = some r → r.wait = none →
    (∀ o ∈ s.received.take i, ¬(o.core = r.core ∧ o.q = r.q ∧ o.pkg = r.pkg ∧ o.ctx = r.ctx)) →
    (r.failed = true → exec (.remoteWriteApply i) s = .next { s with received := s.received.eraseIdx i }) ∧
    (∀ u, r.failed = false → applyRemote r s = .ok () u →
      (lateness (windowNow u) r.window = 0 → exec (.remoteWriteApply i) s = .next { u with received := u.received.eraseIdx i }) ∧
      (lateness (windowNow u) r.window ≠ 0 → exec (.remoteWriteApply i) s = .next (logError { u with received := u.received.eraseIdx i }
        r.sector 0x4B r.va (ctxOf u r.ctx).gen (r.ctx / 64) (r.ctx % 64) 255
        (detail 15 2 (if r.rop = 0 then 1 else 2) (r.pkg % 256 * 2 ^ 24 + min (lateness (windowNow u) r.window) 0xFFFFFF))))) ∧
    (∀ x a u, r.failed = false → applyRemote r s = .error (.fail x a) u →
      exec (.remoteWriteApply i) s = .next { s with received := s.received.eraseIdx i }) ∧
    (r.rop = 0 → applyRemote r s = vwrite ⟨sectorUnit r.sector, r.ctx, 2⟩ r.va r.bytes s)) ∧
  -- at its target, which is outside, one that was sent is applied when its window queue's earlier ones are and its port has sent it
  (∀ (j : Nat) (r : Remote) (s : State), s.sent[j]? = some r →
    (∀ o ∈ s.sent.take j, ¬(o.core = r.core ∧ o.q = r.q ∧ o.pkg = r.pkg ∧ o.ctx = r.ctx)) →
    (∀ p ∈ s.ports, ∀ x ∈ p.2.outbox, x.2.2.1 ≠ r.ident) →
    exec (.remoteWriteApply (s.received.length + j)) s = .next { s with sent := s.sent.eraseIdx j }) ∧
  -- TIME and CREDIT packets
  (∀ (p h : Nat) (hdr : BitVec 256) (data : List Byte) (s u : State), GoodForm ⟨p, 0x20, 2, true, false, 3, hdr, data⟩ h →
    u = credited ⟨p, 0x20, 2, true, false, 3, hdr, data⟩ s → pAddr h = 0 → 1 ≤ pLen h → pLen h ≤ 64 →
    (u.mgmt.ptpEn = true → u.mgmt.ptpPort.toNat = p → exec (.timePacket p hdr data) s = .next (ptpMessage data u)) ∧
    (u.mgmt.ptpEn = false ∨ u.mgmt.ptpPort.toNat ≠ p → exec (.timePacket p hdr data) s = .next (dropPacket p h 3 0 5 u))) ∧
  (∀ (m : List Byte) (s : State), { ptpMessage m s with mgmt := {} } = { s with mgmt := {} } ∧
    (m.length < 44 ∨ netField m 4 1 ≠ s.mgmt.ptpDomain.toNat → ptpMessage m s = s)) ∧
  ∀ (p h : Nat) (hdr : BitVec 256) (s : State), GoodForm ⟨p, 0x30, 3, false, false, 3, hdr, []⟩ h → pTag h = 0 → pLen h = 0 →
    pAddr h < 2 ^ 48 → ∃ t, exec (.creditPacket p hdr) s = .next t ∧ OnlyLinks s t ∧ t.sent = s.sent
      ∧ ∀ j, portAt t j = if j = p then { portAt s p with
          credit0 := (portAt s p).credit0 + fld (pAddr h) 15 0, credit1 := (portAt s p).credit1 + fld (pAddr h) 31 16,
          credit2 := (portAt s p).credit2 + fld (pAddr h) 47 32 } else portAt s j

/-! ## Handlers, health, time, boot -/

namespace Sys2Proof

/-- HANDLER_DISPATCH may look for entries: the group has halted with its stores drained, its context runs, its records and its halt
table have been written; `t` is the trap table that its records are to use, `v` the state in which it has been read (22 R392-R394,
R396). -/
structure MayDispatch (s : State) (c g : Nat) (k : Group) (t : Nat) (v : State) : Prop where
  is : k = groupOf s c g ∧ k.halted = true ∧ openRecs k ≠ []
  stopped : groupHalted s c k = true ∧ (ctxOf s k.ctx).in_ = true
  written : (∀ r ∈ k.recs, r.wait = none ∧ r.written = true) ∧ k.tabDue = false
  table : trapTab ⟨c, k.ctx, 0⟩ (k.tab.getD (recField s k.ctx 383 320)) s = .ok t v

/-- A handler thread for the record `r` (22 R394): its entry, x1 the record, x2 the cause, x3 the group, every other register 0. -/
def HandlerThread (x : Lane) (entry group : Nat) (r : FaultRec) : Prop :=
  x.pc = entry ∧ x.st = .ready ∧ x.trapRec = .ofNat 64 r.addr ∧ getX x 1 = .ofNat 64 r.addr ∧ getX x 2 = .ofNat 64 r.cause
    ∧ getX x 3 = .ofNat 64 group ∧ ∀ n, n ∉ [1, 2, 3] → getX x n = 0

/-- A warp's state is damaged: the fault follows with its next bundle that reads it (22 R399). -/
def HurtsWarp (s t : State) (c slot : Nat) (e : Nat × Nat × Nat) : Prop :=
  ∀ j, warpOf t c j = if j = slot ∧ (warpOf s c j).st ≠ .free then { warpOf s c j with hurt := (warpOf s c j).hurt ++ [e] } else warpOf s c j

/-- The fault of a watchdog that has run out (22 R400): cause 0x14, ADDR what the first parked thread waits on. -/
def watchInfo (u : State) (c sl : Nat) : FaultInfo :=
  let w := warpOf u c sl
  let ls := (liveLanes w).filter fun l => (laneOf w l).st == .parked
  let x := laneOf w (ls.headD 0)
  { cause := 0x14, addr := x.park.op, core := c, slot := sl, lanes := maskOf ls, pc := x.pc, words := x.park.words,
    widx := x.park.widx, word := x.park.word, watchdog := true }

/-- HEALTH once a sector has lost a core (22 R388): COREOFF rises to 48 at most, DEGRADED and REPLACE_REQUESTED are set. -/
def healthOff (h : Nat) : Nat := putBits (putBits (putBits h 55 48 (min 48 (fld h 55 48 + 1))) 63 63 1) 62 62 1

end Sys2Proof

/-- 22 R388, R392-R400, 23 R409, R415, R417, 04 R91, 21 R377-R380: handlers, the watchdog, soft errors, retraining, time, display
frames, attestation, boot. -/
def Obligations.FaultAndServiceSteps : Prop :=
  -- HANDLER_DISPATCH: records without an entry go to the host; those with one to a handler warp, a thread for each
  (∀ (c g t : Nat) (k : Group) (s v : State), MayDispatch s c g k t v →
    ((∀ i ∈ openRecs k, trapEntry t (k.recs.getD i {}).cause = none) →
      exec (.handlerDispatch c g) s = .next ((openRecs k).foldl (fun s i => toHost s c g i) v)) ∧
    ((∀ i ∈ openRecs k, (trapEntry t (k.recs.getD i {}).cause).isSome = true) → (openRecs k).length ≤ 32 →
      freeSlots (coreOf v c) ≠ [] → regsUsed (coreOf v c) + fld t 473 464 ≤ 4096 →
      ∃ u slot, exec (.handlerDispatch c g) s = .next u ∧ (warpOf v c slot).st = .free
        ∧ (warpOf u c slot).st = .loading ∧ (warpOf u c slot).kind = .handler ∧ (warpOf u c slot).ctx = (groupOf v c g).ctx
        ∧ (warpOf u c slot).regsN = fld t 473 464
        ∧ (∀ j i, (openRecs k)[j]? = some i → HandlerThread (laneOf (warpOf u c slot) j)
            ((trapEntry t (k.recs.getD i {}).cause).getD 0) (if g < 64 then k.index else 0xFFFFFFFF) (k.recs.getD i {}))
        ∧ (∀ j, (openRecs k).length ≤ j → (laneOf (warpOf u c slot) j).st = ({} : Lane).st)
        ∧ ∀ j, j ≠ slot → warpOf u c j = warpOf v c j) ∧
    ((∀ i ∈ openRecs k, (trapEntry t (k.recs.getD i {}).cause).isSome = true) → (openRecs k).length ≤ 32 →
      freeSlots (coreOf v c) = [] → k.waitSince = none →
      exec (.handlerDispatch c g) s = .next (modGroup v c g fun k => { k with waitSince := some v.clk }))) ∧
  -- the halt table of a group whose records are written comes first (22 R392)
  (∀ (c g : Nat) (k : Group) (s u : State), k = groupOf s c g → k.halted = true → groupHalted s c k = true → (ctxOf s k.ctx).in_ = true →
    (∀ r ∈ k.recs, r.wait = none ∧ r.written = true) → k.tabDue = true → writeTable ⟨c, k.ctx, 0⟩ g s = .ok () u →
    exec (.handlerDispatch c g) s = .next (modGroup u c g fun k => { k with tabDue := false })) ∧
  -- HANDLER_RESOURCE_TIMEOUT: 10 µs without room send the records to the host
  (∀ (c g since : Nat) (k : Group) (s : State), k = groupOf s c g → k.waitSince = some since → since + 14000 ≤ s.clk →
    exec (.handlerResourceTimeout c g) s = .next
      (modGroup ((openRecs k).foldl (fun s i => toHost s c g i) s) c g fun k => { k with waitSince := none })) ∧
  -- WATCHDOG: WDLIMIT milliseconds, of those that count, with every live thread parked
  (∀ (c g since tab sl : Nat) (k : Group) (pre post : List Nat) (s u : State), k = groupOf s c g → k.parkedSince = some since →
    k.halted = false → allParked s c g = true → (ctxOf s k.ctx).timedFrom.isSome = true →
    (∀ j ∈ k.slots, (warpOf s c j).kind ≠ .handler) → trapTab ⟨c, k.ctx, 0⟩ (recField s k.ctx 383 320) s = .ok tab u →
    (warpOf u c sl).kind ≠ .handler → watchLimit tab ≠ 0 → since + watchLimit tab * 1400000 ≤ watchTime u k.ctx → k.slots = pre ++ sl :: post →
    (∀ j ∈ pre, ∀ l ∈ liveLanes (warpOf u c j), (laneOf (warpOf u c j) l).st ≠ .parked) →
    (∃ l ∈ liveLanes (warpOf u c sl), (laneOf (warpOf u c sl) l).st = .parked) →
    ∃ t, exec (.watchdog c g) s = .next t ∧ FaultTaken (watchInfo u c sl) u t) ∧
  -- SOFT_ERROR: hard ones damage their place or zero it and hurt its owner
  (∀ (pa : Nat) (s : State), backed pa = true → ∃ t, exec (.softError (.memory pa) true) s = .next t
    ∧ (∀ x, x ≠ homeSector pa → sectorOf t x = sectorOf s x)
    ∧ { sectorOf t (homeSector pa) with damaged := [] } = { sectorOf s (homeSector pa) with damaged := [] }
    ∧ ∀ y, y ∈ (sectorOf t (homeSector pa)).damaged ↔ y ∈ (sectorOf s (homeSector pa)).damaged ∨ y = granule pa) ∧
  (∀ (pa : Nat) (s : State), backed pa = true → ∃ t, exec (.softError (.sram pa) true) s = .next t
    ∧ (∀ x, x ≠ homeSector pa → sectorOf t x = sectorOf s x)
    ∧ { sectorOf t (homeSector pa) with sramBad := [] } = { sectorOf s (homeSector pa) with sramBad := [] }
    ∧ ∀ y, y ∈ (sectorOf t (homeSector pa)).sramBad ↔ y ∈ (sectorOf s (homeSector pa)).sramBad ∨ y = pa / 8 * 8) ∧
  (∀ (c a : Nat) (s : State), ∃ t, exec (.softError (.pad c a) true) s = .next t ∧ OnlyCore s t c
    ∧ { coreOf t c with padBad := [] } = { coreOf s c with padBad := [] }
    ∧ ∀ y, y ∈ (coreOf t c).padBad ↔ y ∈ (coreOf s c).padBad ∨ y = a / 8 * 8) ∧
  (∀ (x : SoftWhere) (c slot : Nat) (e : Nat × Nat × Nat) (s : State),
    (∃ l n, x = .register c slot l n ∧ e = (0, l, n)) ∨ (∃ l, x = .predicates c slot l ∧ e = (1, l, 0)) ∨
      (∃ l, x = .code c slot l ∧ e = (2, l, 0)) ∨ (∃ k, x = .mask c slot k ∧ e = (3, 0, k)) ∨
      (∃ l, x = .pcEntry c slot l ∧ e = (4, l, 0)) ∨ (∃ l, x = .skipCount c slot l ∧ e = (5, l, 0)) →
    ∃ t, exec (.softError x true) s = .next t ∧ OnlyCore s t c ∧ HurtsWarp s t c slot e) ∧
  (∀ (c i : Nat) (f : Frame) (s : State), (coreOf s c).deck[i]? = some f → ∃ t, exec (.softError (.deck c i) true) s = .next t
    ∧ OnlyCore s t c ∧ (coreOf t c).deck = (coreOf s c).deck.modify i (fun f => { f with bits := 0 })
    ∧ ∀ g, groupOf t c g = if (∃ e ∈ (coreOf s c).groups, e.1 = g ∧ e.2.launch = f.tag)
        then { groupOf s c g with damaged := true } else groupOf s c g) ∧
  (∀ (c g n : Nat) (s : State), (∃ e ∈ (coreOf s c).groups, e.1 = g) → ∃ t, exec (.softError (.barrier c g n) true) s = .next t
    ∧ OnlyCore s t c ∧ (groupOf t c g).damaged = true
    ∧ ∀ m, mget {} (groupOf t c g).bars m = if m = n then {} else mget {} (groupOf s c g).bars m) ∧
  (∀ (c k r j : Nat) (s : State), ∃ t, exec (.softError (.tile c k r j) true) s = .next t ∧ OnlyCore s t c
    ∧ (∀ m, mget 0 (tileOf t c k).words m = if m = r * 256 + j then 0 else mget 0 (tileOf s c k).words m)
    ∧ ∀ g, groupOf t c g = if g < 64 ∧ (∃ e ∈ (coreOf s c).groups, e.1 = g)
        then { groupOf s c g with damaged := true } else groupOf s c g) ∧
  (∀ (c p r j : Nat) (s : State), ∃ t, exec (.softError (.weight c p r j) true) s = .next t ∧ OnlyCore s t c
    ∧ { coreOf t c with matrix := {} } = { coreOf s c with matrix := {} }
    ∧ ∀ q m, mget 0 (mget {} (coreOf t c).matrix.planes q).words m =
        if q = p ∧ m = r * 256 + j then 0 else mget 0 (mget {} (coreOf s c).matrix.planes q).words m) ∧
  -- a corrected one counts; the third of a row within 24 hours takes a spare row, the last spare sets REPLACE_REQUESTED
  (∀ (x row addr source h : Nat) (s : State) (hits : List (Nat × Nat)), h = health s x →
    hits = (sectorOf s x).rowHits.filter (fun e => s.clk < e.2 + 24 * 3600 * 1400000000) →
    ((hits.filter (·.1 == row)).length < 2 ∨ fld h 47 32 = 0 →
      corrected x row addr source s = putHealth (modSector s x fun k => { k with rowHits := hits ++ [(row, s.clk)] }) x
        (putBits h 31 0 (fld h 31 0 + 1))) ∧
    (∀ v, 2 ≤ (hits.filter (·.1 == row)).length → 0 < fld h 47 32 →
      v = putBits (putBits (putBits h 31 0 (fld h 31 0 + 1)) 47 32 (fld h 47 32 - 1)) 62 62 1 →
      corrected x row addr source s = logError (putHealth (modSector s x fun k => { k with rowHits := hits.filter (·.1 != row) }) x
        (if fld h 47 32 = 1 then putBits v 63 63 1 else v)) x 0x47 addr 0 ((partOf s x).getD 0) 0 255
        (detail source 15 3 (fld h 47 32 - 1)))) ∧
  (∀ (pa : Nat) (s : State), backed pa = true →
    (∃ row, exec (.softError (.memory pa) false) s
      = .next (corrected (homeSector pa) row (pa / 1024 * 1024) (if inTier2 pa then 3 else 2) s)) ∧
    ∃ row, exec (.softError (.sram pa) false) s = .next (corrected (homeSector pa) row (pa / 64 * 64) 1 s)) ∧
  (∀ (x : SoftWhere) (c : Nat) (s : State),
    (∃ i, x = .deck c i) ∨ (∃ l, x = .code c 0 l) ∨ (∃ g n, x = .barrier c g n) ∨ (∃ k r j, x = .tile c k r j) ∨ (∃ sl l n, x = .register c sl l n) →
    ∃ row, exec (.softError x false) s = .next (corrected (secOf c) row 0 4 s)) ∧
  -- CORE_DISABLED: the core leaves its holder, and the sector's HEALTH says so
  (∀ (c source : Nat) (s : State), c < 192 → (coreOf s c).off = false → ∃ u, u = modCore (logError (putHealth s (secOf c)
      (healthOff (health s (secOf c)))) (secOf c) 0x48 0 0
      (if (coreOf s c).holder = 0 then (partOf s (secOf c)).getD 0 else ((coreOf s c).holder - 1) / 64)
      (if (coreOf s c).holder = 0 then 0 else ((coreOf s c).holder - 1) % 64) c
      (detail source 15 3 ((coreOf s c).groups.filter fun g => g.1 < 64).length)) c (fun k => { k with off := true })
    ∧ exec (.coreDisabled c source) s = .next (if (coreOf s c).holder = 0 then u else leaveCore 2 40 c u)
    ∧ (coreOf u c).off = true ∧ (coreOf u c).holder = (coreOf s c).holder) ∧
  -- HBM_RETRAIN: the next channel after each interval; a deadline save defers it for 2 ms at most
  (∀ (n : Nat) (k : Stack) (s : State), k = stackAt s n → k.en = true → k.last + k.interval * 1400000 ≤ s.clk →
    (saveRuns s (n / 2) = false ∨ (∃ since, k.since = some since ∧ since + 2800000 ≤ s.clk) →
      ∃ t, exec (.hbmRetrain n) s = .next t ∧ { t with hbm := [] } = { s with hbm := [] } ∧ (∀ j, j ≠ n → stackAt t j = stackAt s j)
        ∧ (stackAt t n).lastCh = .ofNat 8 k.nextCh ∧ (stackAt t n).count = k.count + 1 ∧ (stackAt t n).last = s.clk
        ∧ (stackAt t n).since = none ∧ (stackAt t n).en = true ∧ (stackAt t n).interval = k.interval) ∧
    (saveRuns s (n / 2) = true → k.since = none → ∃ t, exec (.hbmRetrain n) s = .next t ∧ { t with hbm := [] } = { s with hbm := [] }
      ∧ ∀ j, stackAt t j = if j = n then { k with deferred := true, since := some s.clk } else stackAt s j)) ∧
  -- PTP_LOCK and its loss, SYNC_INTERVAL
  (∀ (time : Nat) (offset : BitVec 32) (s : State),
    (s.mgmt.ptpEn = true → ∃ t, exec (.ptpLock time offset) s = .next t ∧ t.mgmt = { s.mgmt with
        locked := true, everLocked := true, offset := offset }
      ∧ fabtime t = time
      ∧ { t with mgmt := {}, fabBase := 0, fabClk := 0, fabNum := 0, fabDen := 0 }
          = { s with mgmt := {}, fabBase := 0, fabClk := 0, fabNum := 0, fabDen := 0 }) ∧
    (s.mgmt.ptpEn = false → exec (.ptpLock time offset) s = .next s)) ∧
  (∀ s : State, exec .ptpLockLoss s = .next { s with mgmt := { s.mgmt with locked := false } }) ∧
  (∀ s : State, (s.mgmt.ptpEn = true → ∃ t bs v, exec .syncInterval s = .next t ∧ bs.length = 44
      ∧ Posted s { t with mgmt := s.mgmt } s.mgmt.ptpPort.toNat 2 0x20 bs v ∧ pLen v = 44
      ∧ netField bs 0 1 = 1 ∧ netField bs 4 1 = s.mgmt.ptpDomain.toNat ∧ netField bs 30 2 = s.mgmt.ptpSeq % 65536
      ∧ t.mgmt = { s.mgmt with ptpReq := some (s.mgmt.ptpSeq, fabtime s), ptpSeq := (s.mgmt.ptpSeq + 1) % 65536 }) ∧
    (s.mgmt.ptpEn = false → exec .syncInterval s = .next s)) ∧
  -- FRAME_ENCODE_COMPLETE: header, temporal unit and padding in the ring, or a frame dropped; the waiting one is next
  (∀ (ctx h surf time : Nat) (k : DHead) (s u : State), k = headOf s ctx h → k.encoding = some (surf, time) →
    (ctxOf s ctx).wait = none → (ctxOf s ctx).failed = false →
    (encodeFrame (ctxWho s ctx 15) k surf time s = .ok none u → exec (.frameEncodeComplete ctx h) s = .next
      (modHead u ctx h fun k => { k with drops := k.drops + 1, encoding := k.waiting, waiting := none })) ∧
    ∀ n, encodeFrame (ctxWho s ctx 15) k surf time s = .ok (some n) u → exec (.frameEncodeComplete ctx h) s = .next
      (modHead (deliverAll u) ctx h fun k => { k with
        frames := k.frames + 1, pos := k.pos + n, encoding := k.waiting, waiting := none })) ∧
  (∀ (w : Who) (k : DHead) (surf time log : Nat) (pixels bs : List Byte) (s u : State), log = k.out.toNat % 32 →
    vread w surf (surfaceBytes k.cfg) s = .ok pixels u → bs = frameBytes k.frames time (temporalUnit k.cfg k.frames pixels) →
    (log < 16 ∨ 30 < log ∨ 2 ^ log < bs.length → encodeFrame w k surf time s = .ok none u) ∧
    ∀ v, 16 ≤ log → log ≤ 30 → bs.length ≤ 2 ^ log → ringWrite w (fld k.out.toNat 56 12 * 4096) (2 ^ log) k.pos bs u = .ok () v →
      encodeFrame w k surf time s = .ok (some bs.length) v) ∧
  (∀ (n time : Nat) (x : List Byte), (frameBytes n time x).length = (16 + x.length + 63) / 64 * 64
    ∧ ofBytes ((frameBytes n time x).take 4) = n % 2 ^ 32 ∧ ofBytes (((frameBytes n time x).drop 4).take 4) = x.length % 2 ^ 32
    ∧ ofBytes (((frameBytes n time x).drop 8).take 8) = time % 2 ^ 64 ∧ ((frameBytes n time x).drop 16).take x.length = x
    ∧ ∀ b ∈ (frameBytes n time x).drop (16 + x.length), b = 0) ∧
  -- ATTEST_COMPLETE: nonce, measurement, the hash of the limits and partitions, serial, count, then a signature of 64 bytes
  (∀ s : State, s.mgmt.attBusy = true → ∃ t regs sig, exec .attestComplete s = .next t
    ∧ regs = (List.range 4).flatMap (fun x => leBytes 8 (pglim s x)) ++ (List.range 4).flatMap (fun p => leBytes 8 (partValue (partAt s p)))
    ∧ t.mgmt = { s.mgmt with
        attBusy := false, attDone := true, reports := s.mgmt.reports + 1,
        report := (List.range 4).flatMap (fun i => leBytes 8 (mget 0 s.mgmt.nonce i).toNat) ++ s.mgmt.measurement ++ sha256 regs
          ++ (List.range 16).map Config.serial ++ leBytes 8 (s.mgmt.reports + 1) ++ List.replicate 8 0 ++ sig }
    ∧ sig.length = 64 ∧ { t with mgmt := {}, choice := 0 } = { s with mgmt := {}, choice := 0 }) ∧
  -- BOOT_COMPLETE: READY if and only if the image's trailer signs the rest of it
  (∀ (s : State) (img body : List Byte), s.mgmt.booting = true → img = firmware s → body = img.take (img.length - 64) →
    ∃ t, exec .bootComplete s = .next t ∧
      if 64 ≤ img.length ∧ ecdsaOk Config.vendorKey (ofBE (sha256 body)) (ofBE ((img.drop (img.length - 64)).take 32))
          (ofBE ((img.drop (img.length - 64)).drop 32)) = true
      then t.mgmt = { s.mgmt with
          booting := false, ready := true, version := Config.firmwareVersion img, measurement := sha256 body }
      else t = { s with mgmt := { s.mgmt with booting := false, fail := true } })

end
end

