-- ==== Sys2Proof/Laws/State.lean ====
section
/-! SUPPORT. What each update of a record leaves as it was: one lemma per field per update, and what it sets. -/

namespace Sys2Proof.Machine

@[simp] theorem setCore_on (s : State) (c : Nat) (x : Core) : (setCore s c x).on = s.on := rfl
@[simp] theorem setCore_clk (s : State) (c : Nat) (x : Core) : (setCore s c x).clk = s.clk := rfl
@[simp] theorem setCore_fabBase (s : State) (c : Nat) (x : Core) : (setCore s c x).fabBase = s.fabBase := rfl
@[simp] theorem setCore_fabClk (s : State) (c : Nat) (x : Core) : (setCore s c x).fabClk = s.fabClk := rfl
@[simp] theorem setCore_fabNum (s : State) (c : Nat) (x : Core) : (setCore s c x).fabNum = s.fabNum := rfl
@[simp] theorem setCore_fabDen (s : State) (c : Nat) (x : Core) : (setCore s c x).fabDen = s.fabDen := rfl
@[simp] theorem setCore_sectors (s : State) (c : Nat) (x : Core) : (setCore s c x).sectors = s.sectors := rfl
@[simp] theorem setCore_causal (s : State) (c : Nat) (x : Core) : (setCore s c x).causal = s.causal := rfl
@[simp] theorem setCore_atomics (s : State) (c : Nat) (x : Core) : (setCore s c x).atomics = s.atomics := rfl
@[simp] theorem setCore_power (s : State) (c : Nat) (x : Core) : (setCore s c x).power = s.power := rfl
@[simp] theorem setCore_mgmt (s : State) (c : Nat) (x : Core) : (setCore s c x).mgmt = s.mgmt := rfl
@[simp] theorem setCore_hbm (s : State) (c : Nat) (x : Core) : (setCore s c x).hbm = s.hbm := rfl
@[simp] theorem setCore_parts (s : State) (c : Nat) (x : Core) : (setCore s c x).parts = s.parts := rfl
@[simp] theorem setCore_ctxs (s : State) (c : Nat) (x : Core) : (setCore s c x).ctxs = s.ctxs := rfl
@[simp] theorem setCore_ports (s : State) (c : Nat) (x : Core) : (setCore s c x).ports = s.ports := rfl
@[simp] theorem setCore_steals (s : State) (c : Nat) (x : Core) : (setCore s c x).steals = s.steals := rfl
@[simp] theorem setCore_sent (s : State) (c : Nat) (x : Core) : (setCore s c x).sent = s.sent := rfl
@[simp] theorem setCore_received (s : State) (c : Nat) (x : Core) : (setCore s c x).received = s.received := rfl
@[simp] theorem setCore_remoteIdent (s : State) (c : Nat) (x : Core) : (setCore s c x).remoteIdent = s.remoteIdent := rfl
@[simp] theorem setCore_issue (s : State) (c : Nat) (x : Core) : (setCore s c x).issue = s.issue := rfl
@[simp] theorem setCore_agenda (s : State) (c : Nat) (x : Core) : (setCore s c x).agenda = s.agenda := rfl
@[simp] theorem setCore_focus (s : State) (c : Nat) (x : Core) : (setCore s c x).focus = s.focus := rfl
@[simp] theorem setCore_choice (s : State) (c : Nat) (x : Core) : (setCore s c x).choice = s.choice := rfl

@[simp] theorem modCore_on (s : State) (c : Nat) (f : Core → Core) : (modCore s c f).on = s.on := rfl
@[simp] theorem modCore_clk (s : State) (c : Nat) (f : Core → Core) : (modCore s c f).clk = s.clk := rfl
@[simp] theorem modCore_fabBase (s : State) (c : Nat) (f : Core → Core) : (modCore s c f).fabBase = s.fabBase := rfl
@[simp] theorem modCore_fabClk (s : State) (c : Nat) (f : Core → Core) : (modCore s c f).fabClk = s.fabClk := rfl
@[simp] theorem modCore_fabNum (s : State) (c : Nat) (f : Core → Core) : (modCore s c f).fabNum = s.fabNum := rfl
@[simp] theorem modCore_fabDen (s : State) (c : Nat) (f : Core → Core) : (modCore s c f).fabDen = s.fabDen := rfl
@[simp] theorem modCore_sectors (s : State) (c : Nat) (f : Core → Core) : (modCore s c f).sectors = s.sectors := rfl
@[simp] theorem modCore_causal (s : State) (c : Nat) (f : Core → Core) : (modCore s c f).causal = s.causal := rfl
@[simp] theorem modCore_atomics (s : State) (c : Nat) (f : Core → Core) : (modCore s c f).atomics = s.atomics := rfl
@[simp] theorem modCore_power (s : State) (c : Nat) (f : Core → Core) : (modCore s c f).power = s.power := rfl
@[simp] theorem modCore_mgmt (s : State) (c : Nat) (f : Core → Core) : (modCore s c f).mgmt = s.mgmt := rfl
@[simp] theorem modCore_hbm (s : State) (c : Nat) (f : Core → Core) : (modCore s c f).hbm = s.hbm := rfl
@[simp] theorem modCore_parts (s : State) (c : Nat) (f : Core → Core) : (modCore s c f).parts = s.parts := rfl
@[simp] theorem modCore_ctxs (s : State) (c : Nat) (f : Core → Core) : (modCore s c f).ctxs = s.ctxs := rfl
@[simp] theorem modCore_ports (s : State) (c : Nat) (f : Core → Core) : (modCore s c f).ports = s.ports := rfl
@[simp] theorem modCore_steals (s : State) (c : Nat) (f : Core → Core) : (modCore s c f).steals = s.steals := rfl
@[simp] theorem modCore_sent (s : State) (c : Nat) (f : Core → Core) : (modCore s c f).sent = s.sent := rfl
@[simp] theorem modCore_received (s : State) (c : Nat) (f : Core → Core) : (modCore s c f).received = s.received := rfl
@[simp] theorem modCore_remoteIdent (s : State) (c : Nat) (f : Core → Core) : (modCore s c f).remoteIdent = s.remoteIdent := rfl
@[simp] theorem modCore_issue (s : State) (c : Nat) (f : Core → Core) : (modCore s c f).issue = s.issue := rfl
@[simp] theorem modCore_agenda (s : State) (c : Nat) (f : Core → Core) : (modCore s c f).agenda = s.agenda := rfl
@[simp] theorem modCore_focus (s : State) (c : Nat) (f : Core → Core) : (modCore s c f).focus = s.focus := rfl
@[simp] theorem modCore_choice (s : State) (c : Nat) (f : Core → Core) : (modCore s c f).choice = s.choice := rfl

@[simp] theorem setWarp_on (s : State) (c w : Nat) (x : Warp) : (setWarp s c w x).on = s.on := rfl
@[simp] theorem setWarp_clk (s : State) (c w : Nat) (x : Warp) : (setWarp s c w x).clk = s.clk := rfl
@[simp] theorem setWarp_fabBase (s : State) (c w : Nat) (x : Warp) : (setWarp s c w x).fabBase = s.fabBase := rfl
@[simp] theorem setWarp_fabClk (s : State) (c w : Nat) (x : Warp) : (setWarp s c w x).fabClk = s.fabClk := rfl
@[simp] theorem setWarp_fabNum (s : State) (c w : Nat) (x : Warp) : (setWarp s c w x).fabNum = s.fabNum := rfl
@[simp] theorem setWarp_fabDen (s : State) (c w : Nat) (x : Warp) : (setWarp s c w x).fabDen = s.fabDen := rfl
@[simp] theorem setWarp_sectors (s : State) (c w : Nat) (x : Warp) : (setWarp s c w x).sectors = s.sectors := rfl
@[simp] theorem setWarp_causal (s : State) (c w : Nat) (x : Warp) : (setWarp s c w x).causal = s.causal := rfl
@[simp] theorem setWarp_atomics (s : State) (c w : Nat) (x : Warp) : (setWarp s c w x).atomics = s.atomics := rfl
@[simp] theorem setWarp_power (s : State) (c w : Nat) (x : Warp) : (setWarp s c w x).power = s.power := rfl
@[simp] theorem setWarp_mgmt (s : State) (c w : Nat) (x : Warp) : (setWarp s c w x).mgmt = s.mgmt := rfl
@[simp] theorem setWarp_hbm (s : State) (c w : Nat) (x : Warp) : (setWarp s c w x).hbm = s.hbm := rfl
@[simp] theorem setWarp_parts (s : State) (c w : Nat) (x : Warp) : (setWarp s c w x).parts = s.parts := rfl
@[simp] theorem setWarp_ctxs (s : State) (c w : Nat) (x : Warp) : (setWarp s c w x).ctxs = s.ctxs := rfl
@[simp] theorem setWarp_ports (s : State) (c w : Nat) (x : Warp) : (setWarp s c w x).ports = s.ports := rfl
@[simp] theorem setWarp_steals (s : State) (c w : Nat) (x : Warp) : (setWarp s c w x).steals = s.steals := rfl
@[simp] theorem setWarp_sent (s : State) (c w : Nat) (x : Warp) : (setWarp s c w x).sent = s.sent := rfl
@[simp] theorem setWarp_received (s : State) (c w : Nat) (x : Warp) : (setWarp s c w x).received = s.received := rfl
@[simp] theorem setWarp_remoteIdent (s : State) (c w : Nat) (x : Warp) : (setWarp s c w x).remoteIdent = s.remoteIdent := rfl
@[simp] theorem setWarp_issue (s : State) (c w : Nat) (x : Warp) : (setWarp s c w x).issue = s.issue := rfl
@[simp] theorem setWarp_agenda (s : State) (c w : Nat) (x : Warp) : (setWarp s c w x).agenda = s.agenda := rfl
@[simp] theorem setWarp_focus (s : State) (c w : Nat) (x : Warp) : (setWarp s c w x).focus = s.focus := rfl
@[simp] theorem setWarp_choice (s : State) (c w : Nat) (x : Warp) : (setWarp s c w x).choice = s.choice := rfl

@[simp] theorem modWarp_on (s : State) (c w : Nat) (f : Warp → Warp) : (modWarp s c w f).on = s.on := rfl
@[simp] theorem modWarp_clk (s : State) (c w : Nat) (f : Warp → Warp) : (modWarp s c w f).clk = s.clk := rfl
@[simp] theorem modWarp_fabBase (s : State) (c w : Nat) (f : Warp → Warp) : (modWarp s c w f).fabBase = s.fabBase := rfl
@[simp] theorem modWarp_fabClk (s : State) (c w : Nat) (f : Warp → Warp) : (modWarp s c w f).fabClk = s.fabClk := rfl
@[simp] theorem modWarp_fabNum (s : State) (c w : Nat) (f : Warp → Warp) : (modWarp s c w f).fabNum = s.fabNum := rfl
@[simp] theorem modWarp_fabDen (s : State) (c w : Nat) (f : Warp → Warp) : (modWarp s c w f).fabDen = s.fabDen := rfl
@[simp] theorem modWarp_sectors (s : State) (c w : Nat) (f : Warp → Warp) : (modWarp s c w f).sectors = s.sectors := rfl
@[simp] theorem modWarp_causal (s : State) (c w : Nat) (f : Warp → Warp) : (modWarp s c w f).causal = s.causal := rfl
@[simp] theorem modWarp_atomics (s : State) (c w : Nat) (f : Warp → Warp) : (modWarp s c w f).atomics = s.atomics := rfl
@[simp] theorem modWarp_power (s : State) (c w : Nat) (f : Warp → Warp) : (modWarp s c w f).power = s.power := rfl
@[simp] theorem modWarp_mgmt (s : State) (c w : Nat) (f : Warp → Warp) : (modWarp s c w f).mgmt = s.mgmt := rfl
@[simp] theorem modWarp_hbm (s : State) (c w : Nat) (f : Warp → Warp) : (modWarp s c w f).hbm = s.hbm := rfl
@[simp] theorem modWarp_parts (s : State) (c w : Nat) (f : Warp → Warp) : (modWarp s c w f).parts = s.parts := rfl
@[simp] theorem modWarp_ctxs (s : State) (c w : Nat) (f : Warp → Warp) : (modWarp s c w f).ctxs = s.ctxs := rfl
@[simp] theorem modWarp_ports (s : State) (c w : Nat) (f : Warp → Warp) : (modWarp s c w f).ports = s.ports := rfl
@[simp] theorem modWarp_steals (s : State) (c w : Nat) (f : Warp → Warp) : (modWarp s c w f).steals = s.steals := rfl
@[simp] theorem modWarp_sent (s : State) (c w : Nat) (f : Warp → Warp) : (modWarp s c w f).sent = s.sent := rfl
@[simp] theorem modWarp_received (s : State) (c w : Nat) (f : Warp → Warp) : (modWarp s c w f).received = s.received := rfl
@[simp] theorem modWarp_remoteIdent (s : State) (c w : Nat) (f : Warp → Warp) : (modWarp s c w f).remoteIdent = s.remoteIdent := rfl
@[simp] theorem modWarp_issue (s : State) (c w : Nat) (f : Warp → Warp) : (modWarp s c w f).issue = s.issue := rfl
@[simp] theorem modWarp_agenda (s : State) (c w : Nat) (f : Warp → Warp) : (modWarp s c w f).agenda = s.agenda := rfl
@[simp] theorem modWarp_focus (s : State) (c w : Nat) (f : Warp → Warp) : (modWarp s c w f).focus = s.focus := rfl
@[simp] theorem modWarp_choice (s : State) (c w : Nat) (f : Warp → Warp) : (modWarp s c w f).choice = s.choice := rfl

@[simp] theorem modGroup_on (s : State) (c g : Nat) (f : Group → Group) : (modGroup s c g f).on = s.on := rfl
@[simp] theorem modGroup_clk (s : State) (c g : Nat) (f : Group → Group) : (modGroup s c g f).clk = s.clk := rfl
@[simp] theorem modGroup_fabBase (s : State) (c g : Nat) (f : Group → Group) : (modGroup s c g f).fabBase = s.fabBase := rfl
@[simp] theorem modGroup_fabClk (s : State) (c g : Nat) (f : Group → Group) : (modGroup s c g f).fabClk = s.fabClk := rfl
@[simp] theorem modGroup_fabNum (s : State) (c g : Nat) (f : Group → Group) : (modGroup s c g f).fabNum = s.fabNum := rfl
@[simp] theorem modGroup_fabDen (s : State) (c g : Nat) (f : Group → Group) : (modGroup s c g f).fabDen = s.fabDen := rfl
@[simp] theorem modGroup_sectors (s : State) (c g : Nat) (f : Group → Group) : (modGroup s c g f).sectors = s.sectors := rfl
@[simp] theorem modGroup_causal (s : State) (c g : Nat) (f : Group → Group) : (modGroup s c g f).causal = s.causal := rfl
@[simp] theorem modGroup_atomics (s : State) (c g : Nat) (f : Group → Group) : (modGroup s c g f).atomics = s.atomics := rfl
@[simp] theorem modGroup_power (s : State) (c g : Nat) (f : Group → Group) : (modGroup s c g f).power = s.power := rfl
@[simp] theorem modGroup_mgmt (s : State) (c g : Nat) (f : Group → Group) : (modGroup s c g f).mgmt = s.mgmt := rfl
@[simp] theorem modGroup_hbm (s : State) (c g : Nat) (f : Group → Group) : (modGroup s c g f).hbm = s.hbm := rfl
@[simp] theorem modGroup_parts (s : State) (c g : Nat) (f : Group → Group) : (modGroup s c g f).parts = s.parts := rfl
@[simp] theorem modGroup_ctxs (s : State) (c g : Nat) (f : Group → Group) : (modGroup s c g f).ctxs = s.ctxs := rfl
@[simp] theorem modGroup_ports (s : State) (c g : Nat) (f : Group → Group) : (modGroup s c g f).ports = s.ports := rfl
@[simp] theorem modGroup_steals (s : State) (c g : Nat) (f : Group → Group) : (modGroup s c g f).steals = s.steals := rfl
@[simp] theorem modGroup_sent (s : State) (c g : Nat) (f : Group → Group) : (modGroup s c g f).sent = s.sent := rfl
@[simp] theorem modGroup_received (s : State) (c g : Nat) (f : Group → Group) : (modGroup s c g f).received = s.received := rfl
@[simp] theorem modGroup_remoteIdent (s : State) (c g : Nat) (f : Group → Group) : (modGroup s c g f).remoteIdent = s.remoteIdent := rfl
@[simp] theorem modGroup_issue (s : State) (c g : Nat) (f : Group → Group) : (modGroup s c g f).issue = s.issue := rfl
@[simp] theorem modGroup_agenda (s : State) (c g : Nat) (f : Group → Group) : (modGroup s c g f).agenda = s.agenda := rfl
@[simp] theorem modGroup_focus (s : State) (c g : Nat) (f : Group → Group) : (modGroup s c g f).focus = s.focus := rfl
@[simp] theorem modGroup_choice (s : State) (c g : Nat) (f : Group → Group) : (modGroup s c g f).choice = s.choice := rfl

@[simp] theorem modCopyQ_on (s : State) (c q : Nat) (f : CopyQ → CopyQ) : (modCopyQ s c q f).on = s.on := rfl
@[simp] theorem modCopyQ_clk (s : State) (c q : Nat) (f : CopyQ → CopyQ) : (modCopyQ s c q f).clk = s.clk := rfl
@[simp] theorem modCopyQ_fabBase (s : State) (c q : Nat) (f : CopyQ → CopyQ) : (modCopyQ s c q f).fabBase = s.fabBase := rfl
@[simp] theorem modCopyQ_fabClk (s : State) (c q : Nat) (f : CopyQ → CopyQ) : (modCopyQ s c q f).fabClk = s.fabClk := rfl
@[simp] theorem modCopyQ_fabNum (s : State) (c q : Nat) (f : CopyQ → CopyQ) : (modCopyQ s c q f).fabNum = s.fabNum := rfl
@[simp] theorem modCopyQ_fabDen (s : State) (c q : Nat) (f : CopyQ → CopyQ) : (modCopyQ s c q f).fabDen = s.fabDen := rfl
@[simp] theorem modCopyQ_sectors (s : State) (c q : Nat) (f : CopyQ → CopyQ) : (modCopyQ s c q f).sectors = s.sectors := rfl
@[simp] theorem modCopyQ_causal (s : State) (c q : Nat) (f : CopyQ → CopyQ) : (modCopyQ s c q f).causal = s.causal := rfl
@[simp] theorem modCopyQ_atomics (s : State) (c q : Nat) (f : CopyQ → CopyQ) : (modCopyQ s c q f).atomics = s.atomics := rfl
@[simp] theorem modCopyQ_power (s : State) (c q : Nat) (f : CopyQ → CopyQ) : (modCopyQ s c q f).power = s.power := rfl
@[simp] theorem modCopyQ_mgmt (s : State) (c q : Nat) (f : CopyQ → CopyQ) : (modCopyQ s c q f).mgmt = s.mgmt := rfl
@[simp] theorem modCopyQ_hbm (s : State) (c q : Nat) (f : CopyQ → CopyQ) : (modCopyQ s c q f).hbm = s.hbm := rfl
@[simp] theorem modCopyQ_parts (s : State) (c q : Nat) (f : CopyQ → CopyQ) : (modCopyQ s c q f).parts = s.parts := rfl
@[simp] theorem modCopyQ_ctxs (s : State) (c q : Nat) (f : CopyQ → CopyQ) : (modCopyQ s c q f).ctxs = s.ctxs := rfl
@[simp] theorem modCopyQ_ports (s : State) (c q : Nat) (f : CopyQ → CopyQ) : (modCopyQ s c q f).ports = s.ports := rfl
@[simp] theorem modCopyQ_steals (s : State) (c q : Nat) (f : CopyQ → CopyQ) : (modCopyQ s c q f).steals = s.steals := rfl
@[simp] theorem modCopyQ_sent (s : State) (c q : Nat) (f : CopyQ → CopyQ) : (modCopyQ s c q f).sent = s.sent := rfl
@[simp] theorem modCopyQ_received (s : State) (c q : Nat) (f : CopyQ → CopyQ) : (modCopyQ s c q f).received = s.received := rfl
@[simp] theorem modCopyQ_remoteIdent (s : State) (c q : Nat) (f : CopyQ → CopyQ) : (modCopyQ s c q f).remoteIdent = s.remoteIdent := rfl
@[simp] theorem modCopyQ_issue (s : State) (c q : Nat) (f : CopyQ → CopyQ) : (modCopyQ s c q f).issue = s.issue := rfl
@[simp] theorem modCopyQ_agenda (s : State) (c q : Nat) (f : CopyQ → CopyQ) : (modCopyQ s c q f).agenda = s.agenda := rfl
@[simp] theorem modCopyQ_focus (s : State) (c q : Nat) (f : CopyQ → CopyQ) : (modCopyQ s c q f).focus = s.focus := rfl
@[simp] theorem modCopyQ_choice (s : State) (c q : Nat) (f : CopyQ → CopyQ) : (modCopyQ s c q f).choice = s.choice := rfl

@[simp] theorem modSector_on (s : State) (x : Nat) (f : Sector → Sector) : (modSector s x f).on = s.on := rfl
@[simp] theorem modSector_clk (s : State) (x : Nat) (f : Sector → Sector) : (modSector s x f).clk = s.clk := rfl
@[simp] theorem modSector_fabBase (s : State) (x : Nat) (f : Sector → Sector) : (modSector s x f).fabBase = s.fabBase := rfl
@[simp] theorem modSector_fabClk (s : State) (x : Nat) (f : Sector → Sector) : (modSector s x f).fabClk = s.fabClk := rfl
@[simp] theorem modSector_fabNum (s : State) (x : Nat) (f : Sector → Sector) : (modSector s x f).fabNum = s.fabNum := rfl
@[simp] theorem modSector_fabDen (s : State) (x : Nat) (f : Sector → Sector) : (modSector s x f).fabDen = s.fabDen := rfl
@[simp] theorem modSector_cores (s : State) (x : Nat) (f : Sector → Sector) : (modSector s x f).cores = s.cores := rfl
@[simp] theorem modSector_causal (s : State) (x : Nat) (f : Sector → Sector) : (modSector s x f).causal = s.causal := rfl
@[simp] theorem modSector_atomics (s : State) (x : Nat) (f : Sector → Sector) : (modSector s x f).atomics = s.atomics := rfl
@[simp] theorem modSector_power (s : State) (x : Nat) (f : Sector → Sector) : (modSector s x f).power = s.power := rfl
@[simp] theorem modSector_mgmt (s : State) (x : Nat) (f : Sector → Sector) : (modSector s x f).mgmt = s.mgmt := rfl
@[simp] theorem modSector_hbm (s : State) (x : Nat) (f : Sector → Sector) : (modSector s x f).hbm = s.hbm := rfl
@[simp] theorem modSector_parts (s : State) (x : Nat) (f : Sector → Sector) : (modSector s x f).parts = s.parts := rfl
@[simp] theorem modSector_ctxs (s : State) (x : Nat) (f : Sector → Sector) : (modSector s x f).ctxs = s.ctxs := rfl
@[simp] theorem modSector_ports (s : State) (x : Nat) (f : Sector → Sector) : (modSector s x f).ports = s.ports := rfl
@[simp] theorem modSector_steals (s : State) (x : Nat) (f : Sector → Sector) : (modSector s x f).steals = s.steals := rfl
@[simp] theorem modSector_sent (s : State) (x : Nat) (f : Sector → Sector) : (modSector s x f).sent = s.sent := rfl
@[simp] theorem modSector_received (s : State) (x : Nat) (f : Sector → Sector) : (modSector s x f).received = s.received := rfl
@[simp] theorem modSector_remoteIdent (s : State) (x : Nat) (f : Sector → Sector) : (modSector s x f).remoteIdent = s.remoteIdent := rfl
@[simp] theorem modSector_issue (s : State) (x : Nat) (f : Sector → Sector) : (modSector s x f).issue = s.issue := rfl
@[simp] theorem modSector_agenda (s : State) (x : Nat) (f : Sector → Sector) : (modSector s x f).agenda = s.agenda := rfl
@[simp] theorem modSector_focus (s : State) (x : Nat) (f : Sector → Sector) : (modSector s x f).focus = s.focus := rfl
@[simp] theorem modSector_choice (s : State) (x : Nat) (f : Sector → Sector) : (modSector s x f).choice = s.choice := rfl

@[simp] theorem modCtx_on (s : State) (x : Nat) (f : Ctx → Ctx) : (modCtx s x f).on = s.on := rfl
@[simp] theorem modCtx_clk (s : State) (x : Nat) (f : Ctx → Ctx) : (modCtx s x f).clk = s.clk := rfl
@[simp] theorem modCtx_fabBase (s : State) (x : Nat) (f : Ctx → Ctx) : (modCtx s x f).fabBase = s.fabBase := rfl
@[simp] theorem modCtx_fabClk (s : State) (x : Nat) (f : Ctx → Ctx) : (modCtx s x f).fabClk = s.fabClk := rfl
@[simp] theorem modCtx_fabNum (s : State) (x : Nat) (f : Ctx → Ctx) : (modCtx s x f).fabNum = s.fabNum := rfl
@[simp] theorem modCtx_fabDen (s : State) (x : Nat) (f : Ctx → Ctx) : (modCtx s x f).fabDen = s.fabDen := rfl
@[simp] theorem modCtx_cores (s : State) (x : Nat) (f : Ctx → Ctx) : (modCtx s x f).cores = s.cores := rfl
@[simp] theorem modCtx_sectors (s : State) (x : Nat) (f : Ctx → Ctx) : (modCtx s x f).sectors = s.sectors := rfl
@[simp] theorem modCtx_causal (s : State) (x : Nat) (f : Ctx → Ctx) : (modCtx s x f).causal = s.causal := rfl
@[simp] theorem modCtx_atomics (s : State) (x : Nat) (f : Ctx → Ctx) : (modCtx s x f).atomics = s.atomics := rfl
@[simp] theorem modCtx_power (s : State) (x : Nat) (f : Ctx → Ctx) : (modCtx s x f).power = s.power := rfl
@[simp] theorem modCtx_mgmt (s : State) (x : Nat) (f : Ctx → Ctx) : (modCtx s x f).mgmt = s.mgmt := rfl
@[simp] theorem modCtx_hbm (s : State) (x : Nat) (f : Ctx → Ctx) : (modCtx s x f).hbm = s.hbm := rfl
@[simp] theorem modCtx_parts (s : State) (x : Nat) (f : Ctx → Ctx) : (modCtx s x f).parts = s.parts := rfl
@[simp] theorem modCtx_ports (s : State) (x : Nat) (f : Ctx → Ctx) : (modCtx s x f).ports = s.ports := rfl
@[simp] theorem modCtx_steals (s : State) (x : Nat) (f : Ctx → Ctx) : (modCtx s x f).steals = s.steals := rfl
@[simp] theorem modCtx_sent (s : State) (x : Nat) (f : Ctx → Ctx) : (modCtx s x f).sent = s.sent := rfl
@[simp] theorem modCtx_received (s : State) (x : Nat) (f : Ctx → Ctx) : (modCtx s x f).received = s.received := rfl
@[simp] theorem modCtx_remoteIdent (s : State) (x : Nat) (f : Ctx → Ctx) : (modCtx s x f).remoteIdent = s.remoteIdent := rfl
@[simp] theorem modCtx_issue (s : State) (x : Nat) (f : Ctx → Ctx) : (modCtx s x f).issue = s.issue := rfl
@[simp] theorem modCtx_agenda (s : State) (x : Nat) (f : Ctx → Ctx) : (modCtx s x f).agenda = s.agenda := rfl
@[simp] theorem modCtx_focus (s : State) (x : Nat) (f : Ctx → Ctx) : (modCtx s x f).focus = s.focus := rfl
@[simp] theorem modCtx_choice (s : State) (x : Nat) (f : Ctx → Ctx) : (modCtx s x f).choice = s.choice := rfl

@[simp] theorem modQueue_on (s : State) (c q : Nat) (f : LQueue → LQueue) : (modQueue s c q f).on = s.on := rfl
@[simp] theorem modQueue_clk (s : State) (c q : Nat) (f : LQueue → LQueue) : (modQueue s c q f).clk = s.clk := rfl
@[simp] theorem modQueue_fabBase (s : State) (c q : Nat) (f : LQueue → LQueue) : (modQueue s c q f).fabBase = s.fabBase := rfl
@[simp] theorem modQueue_fabClk (s : State) (c q : Nat) (f : LQueue → LQueue) : (modQueue s c q f).fabClk = s.fabClk := rfl
@[simp] theorem modQueue_fabNum (s : State) (c q : Nat) (f : LQueue → LQueue) : (modQueue s c q f).fabNum = s.fabNum := rfl
@[simp] theorem modQueue_fabDen (s : State) (c q : Nat) (f : LQueue → LQueue) : (modQueue s c q f).fabDen = s.fabDen := rfl
@[simp] theorem modQueue_cores (s : State) (c q : Nat) (f : LQueue → LQueue) : (modQueue s c q f).cores = s.cores := rfl
@[simp] theorem modQueue_sectors (s : State) (c q : Nat) (f : LQueue → LQueue) : (modQueue s c q f).sectors = s.sectors := rfl
@[simp] theorem modQueue_causal (s : State) (c q : Nat) (f : LQueue → LQueue) : (modQueue s c q f).causal = s.causal := rfl
@[simp] theorem modQueue_atomics (s : State) (c q : Nat) (f : LQueue → LQueue) : (modQueue s c q f).atomics = s.atomics := rfl
@[simp] theorem modQueue_power (s : State) (c q : Nat) (f : LQueue → LQueue) : (modQueue s c q f).power = s.power := rfl
@[simp] theorem modQueue_mgmt (s : State) (c q : Nat) (f : LQueue → LQueue) : (modQueue s c q f).mgmt = s.mgmt := rfl
@[simp] theorem modQueue_hbm (s : State) (c q : Nat) (f : LQueue → LQueue) : (modQueue s c q f).hbm = s.hbm := rfl
@[simp] theorem modQueue_parts (s : State) (c q : Nat) (f : LQueue → LQueue) : (modQueue s c q f).parts = s.parts := rfl
@[simp] theorem modQueue_ports (s : State) (c q : Nat) (f : LQueue → LQueue) : (modQueue s c q f).ports = s.ports := rfl
@[simp] theorem modQueue_steals (s : State) (c q : Nat) (f : LQueue → LQueue) : (modQueue s c q f).steals = s.steals := rfl
@[simp] theorem modQueue_sent (s : State) (c q : Nat) (f : LQueue → LQueue) : (modQueue s c q f).sent = s.sent := rfl
@[simp] theorem modQueue_received (s : State) (c q : Nat) (f : LQueue → LQueue) : (modQueue s c q f).received = s.received := rfl
@[simp] theorem modQueue_remoteIdent (s : State) (c q : Nat) (f : LQueue → LQueue) : (modQueue s c q f).remoteIdent = s.remoteIdent := rfl
@[simp] theorem modQueue_issue (s : State) (c q : Nat) (f : LQueue → LQueue) : (modQueue s c q f).issue = s.issue := rfl
@[simp] theorem modQueue_agenda (s : State) (c q : Nat) (f : LQueue → LQueue) : (modQueue s c q f).agenda = s.agenda := rfl
@[simp] theorem modQueue_focus (s : State) (c q : Nat) (f : LQueue → LQueue) : (modQueue s c q f).focus = s.focus := rfl
@[simp] theorem modQueue_choice (s : State) (c q : Nat) (f : LQueue → LQueue) : (modQueue s c q f).choice = s.choice := rfl

@[simp] theorem modLaunch_on (s : State) (c t : Nat) (f : Launch → Launch) : (modLaunch s c t f).on = s.on := rfl
@[simp] theorem modLaunch_clk (s : State) (c t : Nat) (f : Launch → Launch) : (modLaunch s c t f).clk = s.clk := rfl
@[simp] theorem modLaunch_fabBase (s : State) (c t : Nat) (f : Launch → Launch) : (modLaunch s c t f).fabBase = s.fabBase := rfl
@[simp] theorem modLaunch_fabClk (s : State) (c t : Nat) (f : Launch → Launch) : (modLaunch s c t f).fabClk = s.fabClk := rfl
@[simp] theorem modLaunch_fabNum (s : State) (c t : Nat) (f : Launch → Launch) : (modLaunch s c t f).fabNum = s.fabNum := rfl
@[simp] theorem modLaunch_fabDen (s : State) (c t : Nat) (f : Launch → Launch) : (modLaunch s c t f).fabDen = s.fabDen := rfl
@[simp] theorem modLaunch_cores (s : State) (c t : Nat) (f : Launch → Launch) : (modLaunch s c t f).cores = s.cores := rfl
@[simp] theorem modLaunch_sectors (s : State) (c t : Nat) (f : Launch → Launch) : (modLaunch s c t f).sectors = s.sectors := rfl
@[simp] theorem modLaunch_causal (s : State) (c t : Nat) (f : Launch → Launch) : (modLaunch s c t f).causal = s.causal := rfl
@[simp] theorem modLaunch_atomics (s : State) (c t : Nat) (f : Launch → Launch) : (modLaunch s c t f).atomics = s.atomics := rfl
@[simp] theorem modLaunch_power (s : State) (c t : Nat) (f : Launch → Launch) : (modLaunch s c t f).power = s.power := rfl
@[simp] theorem modLaunch_mgmt (s : State) (c t : Nat) (f : Launch → Launch) : (modLaunch s c t f).mgmt = s.mgmt := rfl
@[simp] theorem modLaunch_hbm (s : State) (c t : Nat) (f : Launch → Launch) : (modLaunch s c t f).hbm = s.hbm := rfl
@[simp] theorem modLaunch_parts (s : State) (c t : Nat) (f : Launch → Launch) : (modLaunch s c t f).parts = s.parts := rfl
@[simp] theorem modLaunch_ports (s : State) (c t : Nat) (f : Launch → Launch) : (modLaunch s c t f).ports = s.ports := rfl
@[simp] theorem modLaunch_steals (s : State) (c t : Nat) (f : Launch → Launch) : (modLaunch s c t f).steals = s.steals := rfl
@[simp] theorem modLaunch_sent (s : State) (c t : Nat) (f : Launch → Launch) : (modLaunch s c t f).sent = s.sent := rfl
@[simp] theorem modLaunch_received (s : State) (c t : Nat) (f : Launch → Launch) : (modLaunch s c t f).received = s.received := rfl
@[simp] theorem modLaunch_remoteIdent (s : State) (c t : Nat) (f : Launch → Launch) : (modLaunch s c t f).remoteIdent = s.remoteIdent := rfl
@[simp] theorem modLaunch_issue (s : State) (c t : Nat) (f : Launch → Launch) : (modLaunch s c t f).issue = s.issue := rfl
@[simp] theorem modLaunch_agenda (s : State) (c t : Nat) (f : Launch → Launch) : (modLaunch s c t f).agenda = s.agenda := rfl
@[simp] theorem modLaunch_focus (s : State) (c t : Nat) (f : Launch → Launch) : (modLaunch s c t f).focus = s.focus := rfl
@[simp] theorem modLaunch_choice (s : State) (c t : Nat) (f : Launch → Launch) : (modLaunch s c t f).choice = s.choice := rfl

@[simp] theorem modPart_on (s : State) (p : Nat) (f : Part → Part) : (modPart s p f).on = s.on := rfl
@[simp] theorem modPart_clk (s : State) (p : Nat) (f : Part → Part) : (modPart s p f).clk = s.clk := rfl
@[simp] theorem modPart_fabBase (s : State) (p : Nat) (f : Part → Part) : (modPart s p f).fabBase = s.fabBase := rfl
@[simp] theorem modPart_fabClk (s : State) (p : Nat) (f : Part → Part) : (modPart s p f).fabClk = s.fabClk := rfl
@[simp] theorem modPart_fabNum (s : State) (p : Nat) (f : Part → Part) : (modPart s p f).fabNum = s.fabNum := rfl
@[simp] theorem modPart_fabDen (s : State) (p : Nat) (f : Part → Part) : (modPart s p f).fabDen = s.fabDen := rfl
@[simp] theorem modPart_cores (s : State) (p : Nat) (f : Part → Part) : (modPart s p f).cores = s.cores := rfl
@[simp] theorem modPart_sectors (s : State) (p : Nat) (f : Part → Part) : (modPart s p f).sectors = s.sectors := rfl
@[simp] theorem modPart_causal (s : State) (p : Nat) (f : Part → Part) : (modPart s p f).causal = s.causal := rfl
@[simp] theorem modPart_atomics (s : State) (p : Nat) (f : Part → Part) : (modPart s p f).atomics = s.atomics := rfl
@[simp] theorem modPart_power (s : State) (p : Nat) (f : Part → Part) : (modPart s p f).power = s.power := rfl
@[simp] theorem modPart_mgmt (s : State) (p : Nat) (f : Part → Part) : (modPart s p f).mgmt = s.mgmt := rfl
@[simp] theorem modPart_hbm (s : State) (p : Nat) (f : Part → Part) : (modPart s p f).hbm = s.hbm := rfl
@[simp] theorem modPart_ctxs (s : State) (p : Nat) (f : Part → Part) : (modPart s p f).ctxs = s.ctxs := rfl
@[simp] theorem modPart_ports (s : State) (p : Nat) (f : Part → Part) : (modPart s p f).ports = s.ports := rfl
@[simp] theorem modPart_steals (s : State) (p : Nat) (f : Part → Part) : (modPart s p f).steals = s.steals := rfl
@[simp] theorem modPart_sent (s : State) (p : Nat) (f : Part → Part) : (modPart s p f).sent = s.sent := rfl
@[simp] theorem modPart_received (s : State) (p : Nat) (f : Part → Part) : (modPart s p f).received = s.received := rfl
@[simp] theorem modPart_remoteIdent (s : State) (p : Nat) (f : Part → Part) : (modPart s p f).remoteIdent = s.remoteIdent := rfl
@[simp] theorem modPart_issue (s : State) (p : Nat) (f : Part → Part) : (modPart s p f).issue = s.issue := rfl
@[simp] theorem modPart_agenda (s : State) (p : Nat) (f : Part → Part) : (modPart s p f).agenda = s.agenda := rfl
@[simp] theorem modPart_focus (s : State) (p : Nat) (f : Part → Part) : (modPart s p f).focus = s.focus := rfl
@[simp] theorem modPart_choice (s : State) (p : Nat) (f : Part → Part) : (modPart s p f).choice = s.choice := rfl

@[simp] theorem iMod_on (s : State) (f : Warp → Warp) : (iMod s f).on = s.on := rfl
@[simp] theorem iMod_clk (s : State) (f : Warp → Warp) : (iMod s f).clk = s.clk := rfl
@[simp] theorem iMod_fabBase (s : State) (f : Warp → Warp) : (iMod s f).fabBase = s.fabBase := rfl
@[simp] theorem iMod_fabClk (s : State) (f : Warp → Warp) : (iMod s f).fabClk = s.fabClk := rfl
@[simp] theorem iMod_fabNum (s : State) (f : Warp → Warp) : (iMod s f).fabNum = s.fabNum := rfl
@[simp] theorem iMod_fabDen (s : State) (f : Warp → Warp) : (iMod s f).fabDen = s.fabDen := rfl
@[simp] theorem iMod_sectors (s : State) (f : Warp → Warp) : (iMod s f).sectors = s.sectors := rfl
@[simp] theorem iMod_causal (s : State) (f : Warp → Warp) : (iMod s f).causal = s.causal := rfl
@[simp] theorem iMod_atomics (s : State) (f : Warp → Warp) : (iMod s f).atomics = s.atomics := rfl
@[simp] theorem iMod_power (s : State) (f : Warp → Warp) : (iMod s f).power = s.power := rfl
@[simp] theorem iMod_mgmt (s : State) (f : Warp → Warp) : (iMod s f).mgmt = s.mgmt := rfl
@[simp] theorem iMod_hbm (s : State) (f : Warp → Warp) : (iMod s f).hbm = s.hbm := rfl
@[simp] theorem iMod_parts (s : State) (f : Warp → Warp) : (iMod s f).parts = s.parts := rfl
@[simp] theorem iMod_ctxs (s : State) (f : Warp → Warp) : (iMod s f).ctxs = s.ctxs := rfl
@[simp] theorem iMod_ports (s : State) (f : Warp → Warp) : (iMod s f).ports = s.ports := rfl
@[simp] theorem iMod_steals (s : State) (f : Warp → Warp) : (iMod s f).steals = s.steals := rfl
@[simp] theorem iMod_sent (s : State) (f : Warp → Warp) : (iMod s f).sent = s.sent := rfl
@[simp] theorem iMod_received (s : State) (f : Warp → Warp) : (iMod s f).received = s.received := rfl
@[simp] theorem iMod_remoteIdent (s : State) (f : Warp → Warp) : (iMod s f).remoteIdent = s.remoteIdent := rfl
@[simp] theorem iMod_issue (s : State) (f : Warp → Warp) : (iMod s f).issue = s.issue := rfl
@[simp] theorem iMod_agenda (s : State) (f : Warp → Warp) : (iMod s f).agenda = s.agenda := rfl
@[simp] theorem iMod_focus (s : State) (f : Warp → Warp) : (iMod s f).focus = s.focus := rfl
@[simp] theorem iMod_choice (s : State) (f : Warp → Warp) : (iMod s f).choice = s.choice := rfl

@[simp] theorem iModLane_on (s : State) (l : Nat) (f : Lane → Lane) : (iModLane s l f).on = s.on := rfl
@[simp] theorem iModLane_clk (s : State) (l : Nat) (f : Lane → Lane) : (iModLane s l f).clk = s.clk := rfl
@[simp] theorem iModLane_fabBase (s : State) (l : Nat) (f : Lane → Lane) : (iModLane s l f).fabBase = s.fabBase := rfl
@[simp] theorem iModLane_fabClk (s : State) (l : Nat) (f : Lane → Lane) : (iModLane s l f).fabClk = s.fabClk := rfl
@[simp] theorem iModLane_fabNum (s : State) (l : Nat) (f : Lane → Lane) : (iModLane s l f).fabNum = s.fabNum := rfl
@[simp] theorem iModLane_fabDen (s : State) (l : Nat) (f : Lane → Lane) : (iModLane s l f).fabDen = s.fabDen := rfl
@[simp] theorem iModLane_sectors (s : State) (l : Nat) (f : Lane → Lane) : (iModLane s l f).sectors = s.sectors := rfl
@[simp] theorem iModLane_causal (s : State) (l : Nat) (f : Lane → Lane) : (iModLane s l f).causal = s.causal := rfl
@[simp] theorem iModLane_atomics (s : State) (l : Nat) (f : Lane → Lane) : (iModLane s l f).atomics = s.atomics := rfl
@[simp] theorem iModLane_power (s : State) (l : Nat) (f : Lane → Lane) : (iModLane s l f).power = s.power := rfl
@[simp] theorem iModLane_mgmt (s : State) (l : Nat) (f : Lane → Lane) : (iModLane s l f).mgmt = s.mgmt := rfl
@[simp] theorem iModLane_hbm (s : State) (l : Nat) (f : Lane → Lane) : (iModLane s l f).hbm = s.hbm := rfl
@[simp] theorem iModLane_parts (s : State) (l : Nat) (f : Lane → Lane) : (iModLane s l f).parts = s.parts := rfl
@[simp] theorem iModLane_ctxs (s : State) (l : Nat) (f : Lane → Lane) : (iModLane s l f).ctxs = s.ctxs := rfl
@[simp] theorem iModLane_ports (s : State) (l : Nat) (f : Lane → Lane) : (iModLane s l f).ports = s.ports := rfl
@[simp] theorem iModLane_steals (s : State) (l : Nat) (f : Lane → Lane) : (iModLane s l f).steals = s.steals := rfl
@[simp] theorem iModLane_sent (s : State) (l : Nat) (f : Lane → Lane) : (iModLane s l f).sent = s.sent := rfl
@[simp] theorem iModLane_received (s : State) (l : Nat) (f : Lane → Lane) : (iModLane s l f).received = s.received := rfl
@[simp] theorem iModLane_remoteIdent (s : State) (l : Nat) (f : Lane → Lane) : (iModLane s l f).remoteIdent = s.remoteIdent := rfl
@[simp] theorem iModLane_issue (s : State) (l : Nat) (f : Lane → Lane) : (iModLane s l f).issue = s.issue := rfl
@[simp] theorem iModLane_agenda (s : State) (l : Nat) (f : Lane → Lane) : (iModLane s l f).agenda = s.agenda := rfl
@[simp] theorem iModLane_focus (s : State) (l : Nat) (f : Lane → Lane) : (iModLane s l f).focus = s.focus := rfl
@[simp] theorem iModLane_choice (s : State) (l : Nat) (f : Lane → Lane) : (iModLane s l f).choice = s.choice := rfl

@[simp] theorem putX_on (s : State) (n lat : Nat) (vs : List (Nat × Word)) : (putX s n lat vs).on = s.on := rfl
@[simp] theorem putX_clk (s : State) (n lat : Nat) (vs : List (Nat × Word)) : (putX s n lat vs).clk = s.clk := rfl
@[simp] theorem putX_fabBase (s : State) (n lat : Nat) (vs : List (Nat × Word)) : (putX s n lat vs).fabBase = s.fabBase := rfl
@[simp] theorem putX_fabClk (s : State) (n lat : Nat) (vs : List (Nat × Word)) : (putX s n lat vs).fabClk = s.fabClk := rfl
@[simp] theorem putX_fabNum (s : State) (n lat : Nat) (vs : List (Nat × Word)) : (putX s n lat vs).fabNum = s.fabNum := rfl
@[simp] theorem putX_fabDen (s : State) (n lat : Nat) (vs : List (Nat × Word)) : (putX s n lat vs).fabDen = s.fabDen := rfl
@[simp] theorem putX_sectors (s : State) (n lat : Nat) (vs : List (Nat × Word)) : (putX s n lat vs).sectors = s.sectors := rfl
@[simp] theorem putX_causal (s : State) (n lat : Nat) (vs : List (Nat × Word)) : (putX s n lat vs).causal = s.causal := rfl
@[simp] theorem putX_atomics (s : State) (n lat : Nat) (vs : List (Nat × Word)) : (putX s n lat vs).atomics = s.atomics := rfl
@[simp] theorem putX_power (s : State) (n lat : Nat) (vs : List (Nat × Word)) : (putX s n lat vs).power = s.power := rfl
@[simp] theorem putX_mgmt (s : State) (n lat : Nat) (vs : List (Nat × Word)) : (putX s n lat vs).mgmt = s.mgmt := rfl
@[simp] theorem putX_hbm (s : State) (n lat : Nat) (vs : List (Nat × Word)) : (putX s n lat vs).hbm = s.hbm := rfl
@[simp] theorem putX_parts (s : State) (n lat : Nat) (vs : List (Nat × Word)) : (putX s n lat vs).parts = s.parts := rfl
@[simp] theorem putX_ctxs (s : State) (n lat : Nat) (vs : List (Nat × Word)) : (putX s n lat vs).ctxs = s.ctxs := rfl
@[simp] theorem putX_ports (s : State) (n lat : Nat) (vs : List (Nat × Word)) : (putX s n lat vs).ports = s.ports := rfl
@[simp] theorem putX_steals (s : State) (n lat : Nat) (vs : List (Nat × Word)) : (putX s n lat vs).steals = s.steals := rfl
@[simp] theorem putX_sent (s : State) (n lat : Nat) (vs : List (Nat × Word)) : (putX s n lat vs).sent = s.sent := rfl
@[simp] theorem putX_received (s : State) (n lat : Nat) (vs : List (Nat × Word)) : (putX s n lat vs).received = s.received := rfl
@[simp] theorem putX_remoteIdent (s : State) (n lat : Nat) (vs : List (Nat × Word)) : (putX s n lat vs).remoteIdent = s.remoteIdent := rfl
@[simp] theorem putX_issue (s : State) (n lat : Nat) (vs : List (Nat × Word)) : (putX s n lat vs).issue = s.issue := rfl
@[simp] theorem putX_agenda (s : State) (n lat : Nat) (vs : List (Nat × Word)) : (putX s n lat vs).agenda = s.agenda := rfl
@[simp] theorem putX_focus (s : State) (n lat : Nat) (vs : List (Nat × Word)) : (putX s n lat vs).focus = s.focus := rfl
@[simp] theorem putX_choice (s : State) (n lat : Nat) (vs : List (Nat × Word)) : (putX s n lat vs).choice = s.choice := rfl

@[simp] theorem putP_on (s : State) (n lat : Nat) (vs : List (Nat × Bool)) : (putP s n lat vs).on = s.on := rfl
@[simp] theorem putP_clk (s : State) (n lat : Nat) (vs : List (Nat × Bool)) : (putP s n lat vs).clk = s.clk := rfl
@[simp] theorem putP_fabBase (s : State) (n lat : Nat) (vs : List (Nat × Bool)) : (putP s n lat vs).fabBase = s.fabBase := rfl
@[simp] theorem putP_fabClk (s : State) (n lat : Nat) (vs : List (Nat × Bool)) : (putP s n lat vs).fabClk = s.fabClk := rfl
@[simp] theorem putP_fabNum (s : State) (n lat : Nat) (vs : List (Nat × Bool)) : (putP s n lat vs).fabNum = s.fabNum := rfl
@[simp] theorem putP_fabDen (s : State) (n lat : Nat) (vs : List (Nat × Bool)) : (putP s n lat vs).fabDen = s.fabDen := rfl
@[simp] theorem putP_sectors (s : State) (n lat : Nat) (vs : List (Nat × Bool)) : (putP s n lat vs).sectors = s.sectors := rfl
@[simp] theorem putP_causal (s : State) (n lat : Nat) (vs : List (Nat × Bool)) : (putP s n lat vs).causal = s.causal := rfl
@[simp] theorem putP_atomics (s : State) (n lat : Nat) (vs : List (Nat × Bool)) : (putP s n lat vs).atomics = s.atomics := rfl
@[simp] theorem putP_power (s : State) (n lat : Nat) (vs : List (Nat × Bool)) : (putP s n lat vs).power = s.power := rfl
@[simp] theorem putP_mgmt (s : State) (n lat : Nat) (vs : List (Nat × Bool)) : (putP s n lat vs).mgmt = s.mgmt := rfl
@[simp] theorem putP_hbm (s : State) (n lat : Nat) (vs : List (Nat × Bool)) : (putP s n lat vs).hbm = s.hbm := rfl
@[simp] theorem putP_parts (s : State) (n lat : Nat) (vs : List (Nat × Bool)) : (putP s n lat vs).parts = s.parts := rfl
@[simp] theorem putP_ctxs (s : State) (n lat : Nat) (vs : List (Nat × Bool)) : (putP s n lat vs).ctxs = s.ctxs := rfl
@[simp] theorem putP_ports (s : State) (n lat : Nat) (vs : List (Nat × Bool)) : (putP s n lat vs).ports = s.ports := rfl
@[simp] theorem putP_steals (s : State) (n lat : Nat) (vs : List (Nat × Bool)) : (putP s n lat vs).steals = s.steals := rfl
@[simp] theorem putP_sent (s : State) (n lat : Nat) (vs : List (Nat × Bool)) : (putP s n lat vs).sent = s.sent := rfl
@[simp] theorem putP_received (s : State) (n lat : Nat) (vs : List (Nat × Bool)) : (putP s n lat vs).received = s.received := rfl
@[simp] theorem putP_remoteIdent (s : State) (n lat : Nat) (vs : List (Nat × Bool)) : (putP s n lat vs).remoteIdent = s.remoteIdent := rfl
@[simp] theorem putP_issue (s : State) (n lat : Nat) (vs : List (Nat × Bool)) : (putP s n lat vs).issue = s.issue := rfl
@[simp] theorem putP_agenda (s : State) (n lat : Nat) (vs : List (Nat × Bool)) : (putP s n lat vs).agenda = s.agenda := rfl
@[simp] theorem putP_focus (s : State) (n lat : Nat) (vs : List (Nat × Bool)) : (putP s n lat vs).focus = s.focus := rfl
@[simp] theorem putP_choice (s : State) (n lat : Nat) (vs : List (Nat × Bool)) : (putP s n lat vs).choice = s.choice := rfl

@[simp] theorem iMoved_on (s : State) (ls : List Nat) : (iMoved s ls).on = s.on := rfl
@[simp] theorem iMoved_clk (s : State) (ls : List Nat) : (iMoved s ls).clk = s.clk := rfl
@[simp] theorem iMoved_fabBase (s : State) (ls : List Nat) : (iMoved s ls).fabBase = s.fabBase := rfl
@[simp] theorem iMoved_fabClk (s : State) (ls : List Nat) : (iMoved s ls).fabClk = s.fabClk := rfl
@[simp] theorem iMoved_fabNum (s : State) (ls : List Nat) : (iMoved s ls).fabNum = s.fabNum := rfl
@[simp] theorem iMoved_fabDen (s : State) (ls : List Nat) : (iMoved s ls).fabDen = s.fabDen := rfl
@[simp] theorem iMoved_cores (s : State) (ls : List Nat) : (iMoved s ls).cores = s.cores := rfl
@[simp] theorem iMoved_sectors (s : State) (ls : List Nat) : (iMoved s ls).sectors = s.sectors := rfl
@[simp] theorem iMoved_causal (s : State) (ls : List Nat) : (iMoved s ls).causal = s.causal := rfl
@[simp] theorem iMoved_atomics (s : State) (ls : List Nat) : (iMoved s ls).atomics = s.atomics := rfl
@[simp] theorem iMoved_power (s : State) (ls : List Nat) : (iMoved s ls).power = s.power := rfl
@[simp] theorem iMoved_mgmt (s : State) (ls : List Nat) : (iMoved s ls).mgmt = s.mgmt := rfl
@[simp] theorem iMoved_hbm (s : State) (ls : List Nat) : (iMoved s ls).hbm = s.hbm := rfl
@[simp] theorem iMoved_parts (s : State) (ls : List Nat) : (iMoved s ls).parts = s.parts := rfl
@[simp] theorem iMoved_ctxs (s : State) (ls : List Nat) : (iMoved s ls).ctxs = s.ctxs := rfl
@[simp] theorem iMoved_ports (s : State) (ls : List Nat) : (iMoved s ls).ports = s.ports := rfl
@[simp] theorem iMoved_steals (s : State) (ls : List Nat) : (iMoved s ls).steals = s.steals := rfl
@[simp] theorem iMoved_sent (s : State) (ls : List Nat) : (iMoved s ls).sent = s.sent := rfl
@[simp] theorem iMoved_received (s : State) (ls : List Nat) : (iMoved s ls).received = s.received := rfl
@[simp] theorem iMoved_remoteIdent (s : State) (ls : List Nat) : (iMoved s ls).remoteIdent = s.remoteIdent := rfl
@[simp] theorem iMoved_agenda (s : State) (ls : List Nat) : (iMoved s ls).agenda = s.agenda := rfl
@[simp] theorem iMoved_focus (s : State) (ls : List Nat) : (iMoved s ls).focus = s.focus := rfl
@[simp] theorem iMoved_choice (s : State) (ls : List Nat) : (iMoved s ls).choice = s.choice := rfl

@[simp] theorem stallIssue_on (s : State) : (stallIssue s).on = s.on := rfl
@[simp] theorem stallIssue_clk (s : State) : (stallIssue s).clk = s.clk := rfl
@[simp] theorem stallIssue_fabBase (s : State) : (stallIssue s).fabBase = s.fabBase := rfl
@[simp] theorem stallIssue_fabClk (s : State) : (stallIssue s).fabClk = s.fabClk := rfl
@[simp] theorem stallIssue_fabNum (s : State) : (stallIssue s).fabNum = s.fabNum := rfl
@[simp] theorem stallIssue_fabDen (s : State) : (stallIssue s).fabDen = s.fabDen := rfl
@[simp] theorem stallIssue_cores (s : State) : (stallIssue s).cores = s.cores := rfl
@[simp] theorem stallIssue_sectors (s : State) : (stallIssue s).sectors = s.sectors := rfl
@[simp] theorem stallIssue_causal (s : State) : (stallIssue s).causal = s.causal := rfl
@[simp] theorem stallIssue_atomics (s : State) : (stallIssue s).atomics = s.atomics := rfl
@[simp] theorem stallIssue_power (s : State) : (stallIssue s).power = s.power := rfl
@[simp] theorem stallIssue_mgmt (s : State) : (stallIssue s).mgmt = s.mgmt := rfl
@[simp] theorem stallIssue_hbm (s : State) : (stallIssue s).hbm = s.hbm := rfl
@[simp] theorem stallIssue_parts (s : State) : (stallIssue s).parts = s.parts := rfl
@[simp] theorem stallIssue_ctxs (s : State) : (stallIssue s).ctxs = s.ctxs := rfl
@[simp] theorem stallIssue_ports (s : State) : (stallIssue s).ports = s.ports := rfl
@[simp] theorem stallIssue_steals (s : State) : (stallIssue s).steals = s.steals := rfl
@[simp] theorem stallIssue_sent (s : State) : (stallIssue s).sent = s.sent := rfl
@[simp] theorem stallIssue_received (s : State) : (stallIssue s).received = s.received := rfl
@[simp] theorem stallIssue_remoteIdent (s : State) : (stallIssue s).remoteIdent = s.remoteIdent := rfl
@[simp] theorem stallIssue_agenda (s : State) : (stallIssue s).agenda = s.agenda := rfl
@[simp] theorem stallIssue_focus (s : State) : (stallIssue s).focus = s.focus := rfl
@[simp] theorem stallIssue_choice (s : State) : (stallIssue s).choice = s.choice := rfl

@[simp] theorem setLane_st (w : Warp) (l : Nat) (x : Lane) : (setLane w l x).st = w.st := rfl
@[simp] theorem setLane_kind (w : Warp) (l : Nat) (x : Lane) : (setLane w l x).kind = w.kind := rfl
@[simp] theorem setLane_ctx (w : Warp) (l : Nat) (x : Lane) : (setLane w l x).ctx = w.ctx := rfl
@[simp] theorem setLane_launch (w : Warp) (l : Nat) (x : Lane) : (setLane w l x).launch = w.launch := rfl
@[simp] theorem setLane_group (w : Warp) (l : Nat) (x : Lane) : (setLane w l x).group = w.group := rfl
@[simp] theorem setLane_windex (w : Warp) (l : Nat) (x : Lane) : (setLane w l x).windex = w.windex := rfl
@[simp] theorem setLane_serial (w : Warp) (l : Nat) (x : Lane) : (setLane w l x).serial = w.serial := rfl
@[simp] theorem setLane_masks (w : Warp) (l : Nat) (x : Lane) : (setLane w l x).masks = w.masks := rfl
@[simp] theorem setLane_order (w : Warp) (l : Nat) (x : Lane) : (setLane w l x).order = w.order := rfl
@[simp] theorem setLane_prefer (w : Warp) (l : Nat) (x : Lane) : (setLane w l x).prefer = w.prefer := rfl
@[simp] theorem setLane_fidNext (w : Warp) (l : Nat) (x : Lane) : (setLane w l x).fidNext = w.fidNext := rfl
@[simp] theorem setLane_regsN (w : Warp) (l : Nat) (x : Lane) : (setLane w l x).regsN = w.regsN := rfl
@[simp] theorem setLane_padBase (w : Warp) (l : Nat) (x : Lane) : (setLane w l x).padBase = w.padBase := rfl
@[simp] theorem setLane_padSize (w : Warp) (l : Nat) (x : Lane) : (setLane w l x).padSize = w.padSize := rfl
@[simp] theorem setLane_age (w : Warp) (l : Nat) (x : Lane) : (setLane w l x).age = w.age := rfl
@[simp] theorem setLane_retired (w : Warp) (l : Nat) (x : Lane) : (setLane w l x).retired = w.retired := rfl
@[simp] theorem setLane_skidLeft (w : Warp) (l : Nat) (x : Lane) : (setLane w l x).skidLeft = w.skidLeft := rfl
@[simp] theorem setLane_skid (w : Warp) (l : Nat) (x : Lane) : (setLane w l x).skid = w.skid := rfl
@[simp] theorem setLane_halting (w : Warp) (l : Nat) (x : Lane) : (setLane w l x).halting = w.halting := rfl
@[simp] theorem setLane_board (w : Warp) (l : Nat) (x : Lane) : (setLane w l x).board = w.board := rfl
@[simp] theorem setLane_hurt (w : Warp) (l : Nat) (x : Lane) : (setLane w l x).hurt = w.hurt := rfl
@[simp] theorem setLane_compact (w : Warp) (l : Nat) (x : Lane) : (setLane w l x).compact = w.compact := rfl

@[simp] theorem modLane_st (w : Warp) (l : Nat) (f : Lane → Lane) : (modLane w l f).st = w.st := rfl
@[simp] theorem modLane_kind (w : Warp) (l : Nat) (f : Lane → Lane) : (modLane w l f).kind = w.kind := rfl
@[simp] theorem modLane_ctx (w : Warp) (l : Nat) (f : Lane → Lane) : (modLane w l f).ctx = w.ctx := rfl
@[simp] theorem modLane_launch (w : Warp) (l : Nat) (f : Lane → Lane) : (modLane w l f).launch = w.launch := rfl
@[simp] theorem modLane_group (w : Warp) (l : Nat) (f : Lane → Lane) : (modLane w l f).group = w.group := rfl
@[simp] theorem modLane_windex (w : Warp) (l : Nat) (f : Lane → Lane) : (modLane w l f).windex = w.windex := rfl
@[simp] theorem modLane_serial (w : Warp) (l : Nat) (f : Lane → Lane) : (modLane w l f).serial = w.serial := rfl
@[simp] theorem modLane_masks (w : Warp) (l : Nat) (f : Lane → Lane) : (modLane w l f).masks = w.masks := rfl
@[simp] theorem modLane_order (w : Warp) (l : Nat) (f : Lane → Lane) : (modLane w l f).order = w.order := rfl
@[simp] theorem modLane_prefer (w : Warp) (l : Nat) (f : Lane → Lane) : (modLane w l f).prefer = w.prefer := rfl
@[simp] theorem modLane_fidNext (w : Warp) (l : Nat) (f : Lane → Lane) : (modLane w l f).fidNext = w.fidNext := rfl
@[simp] theorem modLane_regsN (w : Warp) (l : Nat) (f : Lane → Lane) : (modLane w l f).regsN = w.regsN := rfl
@[simp] theorem modLane_padBase (w : Warp) (l : Nat) (f : Lane → Lane) : (modLane w l f).padBase = w.padBase := rfl
@[simp] theorem modLane_padSize (w : Warp) (l : Nat) (f : Lane → Lane) : (modLane w l f).padSize = w.padSize := rfl
@[simp] theorem modLane_age (w : Warp) (l : Nat) (f : Lane → Lane) : (modLane w l f).age = w.age := rfl
@[simp] theorem modLane_retired (w : Warp) (l : Nat) (f : Lane → Lane) : (modLane w l f).retired = w.retired := rfl
@[simp] theorem modLane_skidLeft (w : Warp) (l : Nat) (f : Lane → Lane) : (modLane w l f).skidLeft = w.skidLeft := rfl
@[simp] theorem modLane_skid (w : Warp) (l : Nat) (f : Lane → Lane) : (modLane w l f).skid = w.skid := rfl
@[simp] theorem modLane_halting (w : Warp) (l : Nat) (f : Lane → Lane) : (modLane w l f).halting = w.halting := rfl
@[simp] theorem modLane_board (w : Warp) (l : Nat) (f : Lane → Lane) : (modLane w l f).board = w.board := rfl
@[simp] theorem modLane_hurt (w : Warp) (l : Nat) (f : Lane → Lane) : (modLane w l f).hurt = w.hurt := rfl
@[simp] theorem modLane_compact (w : Warp) (l : Nat) (f : Lane → Lane) : (modLane w l f).compact = w.compact := rfl

@[simp] theorem addPending_st (w : Warp) (kind num : Nat) (lanes : W32) (due : Nat) : (addPending w kind num lanes due).st = w.st := by
  unfold addPending; split <;> rfl
@[simp] theorem addPending_kind (w : Warp) (kind num : Nat) (lanes : W32) (due : Nat) : (addPending w kind num lanes due).kind = w.kind := by
  unfold addPending; split <;> rfl
@[simp] theorem addPending_ctx (w : Warp) (kind num : Nat) (lanes : W32) (due : Nat) : (addPending w kind num lanes due).ctx = w.ctx := by
  unfold addPending; split <;> rfl
@[simp] theorem addPending_launch (w : Warp) (kind num : Nat) (lanes : W32) (due : Nat) : (addPending w kind num lanes due).launch = w.launch := by
  unfold addPending; split <;> rfl
@[simp] theorem addPending_group (w : Warp) (kind num : Nat) (lanes : W32) (due : Nat) : (addPending w kind num lanes due).group = w.group := by
  unfold addPending; split <;> rfl
@[simp] theorem addPending_windex (w : Warp) (kind num : Nat) (lanes : W32) (due : Nat) : (addPending w kind num lanes due).windex = w.windex := by
  unfold addPending; split <;> rfl
@[simp] theorem addPending_serial (w : Warp) (kind num : Nat) (lanes : W32) (due : Nat) : (addPending w kind num lanes due).serial = w.serial := by
  unfold addPending; split <;> rfl
@[simp] theorem addPending_lanes (w : Warp) (kind num : Nat) (lanes : W32) (due : Nat) : (addPending w kind num lanes due).lanes = w.lanes := by
  unfold addPending; split <;> rfl
@[simp] theorem addPending_masks (w : Warp) (kind num : Nat) (lanes : W32) (due : Nat) : (addPending w kind num lanes due).masks = w.masks := by
  unfold addPending; split <;> rfl
@[simp] theorem addPending_order (w : Warp) (kind num : Nat) (lanes : W32) (due : Nat) : (addPending w kind num lanes due).order = w.order := by
  unfold addPending; split <;> rfl
@[simp] theorem addPending_prefer (w : Warp) (kind num : Nat) (lanes : W32) (due : Nat) : (addPending w kind num lanes due).prefer = w.prefer := by
  unfold addPending; split <;> rfl
@[simp] theorem addPending_fidNext (w : Warp) (kind num : Nat) (lanes : W32) (due : Nat) : (addPending w kind num lanes due).fidNext = w.fidNext := by
  unfold addPending; split <;> rfl
@[simp] theorem addPending_regsN (w : Warp) (kind num : Nat) (lanes : W32) (due : Nat) : (addPending w kind num lanes due).regsN = w.regsN := by
  unfold addPending; split <;> rfl
@[simp] theorem addPending_padBase (w : Warp) (kind num : Nat) (lanes : W32) (due : Nat) : (addPending w kind num lanes due).padBase = w.padBase := by
  unfold addPending; split <;> rfl
@[simp] theorem addPending_padSize (w : Warp) (kind num : Nat) (lanes : W32) (due : Nat) : (addPending w kind num lanes due).padSize = w.padSize := by
  unfold addPending; split <;> rfl
@[simp] theorem addPending_age (w : Warp) (kind num : Nat) (lanes : W32) (due : Nat) : (addPending w kind num lanes due).age = w.age := by
  unfold addPending; split <;> rfl
@[simp] theorem addPending_retired (w : Warp) (kind num : Nat) (lanes : W32) (due : Nat) : (addPending w kind num lanes due).retired = w.retired := by
  unfold addPending; split <;> rfl
@[simp] theorem addPending_skidLeft (w : Warp) (kind num : Nat) (lanes : W32) (due : Nat) : (addPending w kind num lanes due).skidLeft = w.skidLeft := by
  unfold addPending; split <;> rfl
@[simp] theorem addPending_skid (w : Warp) (kind num : Nat) (lanes : W32) (due : Nat) : (addPending w kind num lanes due).skid = w.skid := by
  unfold addPending; split <;> rfl
@[simp] theorem addPending_halting (w : Warp) (kind num : Nat) (lanes : W32) (due : Nat) : (addPending w kind num lanes due).halting = w.halting := by
  unfold addPending; split <;> rfl
@[simp] theorem addPending_hurt (w : Warp) (kind num : Nat) (lanes : W32) (due : Nat) : (addPending w kind num lanes due).hurt = w.hurt := by
  unfold addPending; split <;> rfl
@[simp] theorem addPending_compact (w : Warp) (kind num : Nat) (lanes : W32) (due : Nat) : (addPending w kind num lanes due).compact = w.compact := by
  unfold addPending; split <;> rfl

@[simp] theorem setX_preds (l : Lane) (n : Nat) (v : Word) : (setX l n v).preds = l.preds := by
  unfold setX; split <;> rfl
@[simp] theorem setX_pc (l : Lane) (n : Nat) (v : Word) : (setX l n v).pc = l.pc := by
  unfold setX; split <;> rfl
@[simp] theorem setX_st (l : Lane) (n : Nat) (v : Word) : (setX l n v).st = l.st := by
  unfold setX; split <;> rfl
@[simp] theorem setX_skip (l : Lane) (n : Nat) (v : Word) : (setX l n v).skip = l.skip := by
  unfold setX; split <;> rfl
@[simp] theorem setX_fid (l : Lane) (n : Nat) (v : Word) : (setX l n v).fid = l.fid := by
  unfold setX; split <;> rfl
@[simp] theorem setX_parent (l : Lane) (n : Nat) (v : Word) : (setX l n v).parent = l.parent := by
  unfold setX; split <;> rfl
@[simp] theorem setX_sib (l : Lane) (n : Nat) (v : Word) : (setX l n v).sib = l.sib := by
  unfold setX; split <;> rfl
@[simp] theorem setX_seed (l : Lane) (n : Nat) (v : Word) : (setX l n v).seed = l.seed := by
  unfold setX; split <;> rfl
@[simp] theorem setX_rep (l : Lane) (n : Nat) (v : Word) : (setX l n v).rep = l.rep := by
  unfold setX; split <;> rfl
@[simp] theorem setX_park (l : Lane) (n : Nat) (v : Word) : (setX l n v).park = l.park := by
  unfold setX; split <;> rfl
@[simp] theorem setX_front (l : Lane) (n : Nat) (v : Word) : (setX l n v).front = l.front := by
  unfold setX; split <;> rfl
@[simp] theorem setX_stamp (l : Lane) (n : Nat) (v : Word) : (setX l n v).stamp = l.stamp := by
  unfold setX; split <;> rfl
@[simp] theorem setX_trapRec (l : Lane) (n : Nat) (v : Word) : (setX l n v).trapRec = l.trapRec := by
  unfold setX; split <;> rfl
@[simp] theorem setX_qrow (l : Lane) (n : Nat) (v : Word) : (setX l n v).qrow = l.qrow := by
  unfold setX; split <;> rfl
@[simp] theorem setX_qchunk (l : Lane) (n : Nat) (v : Word) : (setX l n v).qchunk = l.qchunk := by
  unfold setX; split <;> rfl
@[simp] theorem setX_qarch (l : Lane) (n : Nat) (v : Word) : (setX l n v).qarch = l.qarch := by
  unfold setX; split <;> rfl
@[simp] theorem setX_wait (l : Lane) (n : Nat) (v : Word) : (setX l n v).wait = l.wait := by
  unfold setX; split <;> rfl
@[simp] theorem setX_stopped (l : Lane) (n : Nat) (v : Word) : (setX l n v).stopped = l.stopped := by
  unfold setX; split <;> rfl
@[simp] theorem setX_tidWait (l : Lane) (n : Nat) (v : Word) : (setX l n v).tidWait = l.tidWait := by
  unfold setX; split <;> rfl
@[simp] theorem setX_flushWait (l : Lane) (n : Nat) (v : Word) : (setX l n v).flushWait = l.flushWait := by
  unfold setX; split <;> rfl

@[simp] theorem setP_regs (l : Lane) (n : Nat) (b : Bool) : (setP l n b).regs = l.regs := by
  unfold setP; split <;> rfl
@[simp] theorem setP_pc (l : Lane) (n : Nat) (b : Bool) : (setP l n b).pc = l.pc := by
  unfold setP; split <;> rfl
@[simp] theorem setP_st (l : Lane) (n : Nat) (b : Bool) : (setP l n b).st = l.st := by
  unfold setP; split <;> rfl
@[simp] theorem setP_skip (l : Lane) (n : Nat) (b : Bool) : (setP l n b).skip = l.skip := by
  unfold setP; split <;> rfl
@[simp] theorem setP_fid (l : Lane) (n : Nat) (b : Bool) : (setP l n b).fid = l.fid := by
  unfold setP; split <;> rfl
@[simp] theorem setP_parent (l : Lane) (n : Nat) (b : Bool) : (setP l n b).parent = l.parent := by
  unfold setP; split <;> rfl
@[simp] theorem setP_sib (l : Lane) (n : Nat) (b : Bool) : (setP l n b).sib = l.sib := by
  unfold setP; split <;> rfl
@[simp] theorem setP_seed (l : Lane) (n : Nat) (b : Bool) : (setP l n b).seed = l.seed := by
  unfold setP; split <;> rfl
@[simp] theorem setP_rep (l : Lane) (n : Nat) (b : Bool) : (setP l n b).rep = l.rep := by
  unfold setP; split <;> rfl
@[simp] theorem setP_park (l : Lane) (n : Nat) (b : Bool) : (setP l n b).park = l.park := by
  unfold setP; split <;> rfl
@[simp] theorem setP_front (l : Lane) (n : Nat) (b : Bool) : (setP l n b).front = l.front := by
  unfold setP; split <;> rfl
@[simp] theorem setP_stamp (l : Lane) (n : Nat) (b : Bool) : (setP l n b).stamp = l.stamp := by
  unfold setP; split <;> rfl
@[simp] theorem setP_trapRec (l : Lane) (n : Nat) (b : Bool) : (setP l n b).trapRec = l.trapRec := by
  unfold setP; split <;> rfl
@[simp] theorem setP_qrow (l : Lane) (n : Nat) (b : Bool) : (setP l n b).qrow = l.qrow := by
  unfold setP; split <;> rfl
@[simp] theorem setP_qchunk (l : Lane) (n : Nat) (b : Bool) : (setP l n b).qchunk = l.qchunk := by
  unfold setP; split <;> rfl
@[simp] theorem setP_qarch (l : Lane) (n : Nat) (b : Bool) : (setP l n b).qarch = l.qarch := by
  unfold setP; split <;> rfl
@[simp] theorem setP_wait (l : Lane) (n : Nat) (b : Bool) : (setP l n b).wait = l.wait := by
  unfold setP; split <;> rfl
@[simp] theorem setP_stopped (l : Lane) (n : Nat) (b : Bool) : (setP l n b).stopped = l.stopped := by
  unfold setP; split <;> rfl
@[simp] theorem setP_tidWait (l : Lane) (n : Nat) (b : Bool) : (setP l n b).tidWait = l.tidWait := by
  unfold setP; split <;> rfl
@[simp] theorem setP_flushWait (l : Lane) (n : Nat) (b : Bool) : (setP l n b).flushWait = l.flushWait := by
  unfold setP; split <;> rfl

end Sys2Proof.Machine
end

