-- ==== Sys2Proof/Laws/Tables.lean ====
section
/-! SUPPORT. Sparse tables and memories: a read after a write, and that every operation keeps the canonical form. -/

namespace Sys2Proof.Machine

variable {α : Type}

/-! ### Reading after writing -/

theorem mget_minsert (d : α) (m : Map α) (i j : Nat) (v : α) : mget d (minsert m i v) j = if j = i then v else mget d m j := by
  induction m with
  | nil => simp only [minsert, mget, eq_comm (a := i)]
  | cons e t ih =>
    obtain ⟨k, w⟩ := e
    simp only [minsert]
    split
    · simp only [mget, eq_comm (a := i)]
    · split
      · subst_vars
        simp only [mget, eq_comm (b := j)]
        split <;> rfl
      · simp only [mget, ih]
        split
        · split
          · omega
          · rfl
        · rfl

theorem mget_drop (d : α) (m : Map α) (i j : Nat) :
    mget d (m.filter fun e => e.1 != i) j = if j = i then d else mget d m j := by
  induction m with
  | nil => simp [mget]
  | cons e t ih =>
    obtain ⟨k, w⟩ := e
    by_cases h : k = i
    · simp only [h, List.filter_cons, bne_self_eq_false, Bool.false_eq_true, if_false, ih, mget]
      split
      · rfl
      · rw [if_neg (by omega)]
    · have hk : (k != i) = true := by simpa using h
      simp only [List.filter_cons, hk, if_true, mget, ih]
      split
      · rw [if_neg (by omega)]
      · rfl

/-- What a table reads after a write: the value there, what it read before elsewhere. -/
@[simp] theorem mget_mput [DecidableEq α] (d : α) (m : Map α) (i j : Nat) (v : α) :
    mget d (mput d m i v) j = if j = i then v else mget d m j := by
  unfold mput
  split
  · next h => subst h; exact mget_drop v m i j
  · exact mget_minsert d m i j v

theorem mget_mput_self [DecidableEq α] (d : α) (m : Map α) (i : Nat) (v : α) : mget d (mput d m i v) i = v := by simp
theorem mget_mput_ne [DecidableEq α] (d : α) (m : Map α) (i j : Nat) (v : α) (h : j ≠ i) :
    mget d (mput d m i v) j = mget d m j := by simp [h]

/-! ### Canonical form -/

theorem mwfFrom_mono [DecidableEq α] (d : α) {m : Map α} {lo lo' : Nat} (h : mwfFrom d lo m = true) (hl : lo' ≤ lo) :
    mwfFrom d lo' m = true := by
  cases m with
  | nil => rfl
  | cons e t =>
    simp only [mwfFrom, Bool.and_eq_true, decide_eq_true_eq] at h ⊢
    exact ⟨⟨by omega, h.1.2⟩, h.2⟩

theorem mwfFrom_minsert [DecidableEq α] (d : α) {i : Nat} {v : α} (hv : v ≠ d) :
    ∀ {m : Map α} {lo : Nat}, mwfFrom d lo m = true → lo ≤ i → mwfFrom d lo (minsert m i v) = true
  | [], lo, _, hi => by simp [minsert, mwfFrom, hv, hi]
  | (k, w) :: t, lo, h, hi => by
    simp only [mwfFrom, Bool.and_eq_true, decide_eq_true_eq] at h
    simp only [minsert]
    split
    · simp only [mwfFrom, Bool.and_eq_true, decide_eq_true_eq]
      exact ⟨⟨hi, hv⟩, ⟨by omega, h.1.2⟩, h.2⟩
    · split
      · next hk => subst hk; simp only [mwfFrom, Bool.and_eq_true, decide_eq_true_eq]; exact ⟨⟨hi, hv⟩, h.2⟩
      · simp only [mwfFrom, Bool.and_eq_true, decide_eq_true_eq]
        exact ⟨h.1, mwfFrom_minsert d hv h.2 (by omega)⟩

theorem mwfFrom_filter [DecidableEq α] (d : α) (p : Nat × α → Bool) :
    ∀ {m : Map α} {lo : Nat}, mwfFrom d lo m = true → mwfFrom d lo (m.filter p) = true
  | [], _, h => h
  | (k, w) :: t, lo, h => by
    simp only [mwfFrom, Bool.and_eq_true, decide_eq_true_eq] at h
    rw [List.filter_cons]
    split
    · simp only [mwfFrom, Bool.and_eq_true, decide_eq_true_eq]
      exact ⟨h.1, mwfFrom_filter d p h.2⟩
    · exact mwfFrom_filter d p (mwfFrom_mono d h.2 (by omega))

/-- A write keeps a table canonical. -/
theorem mput_wf [DecidableEq α] (d : α) (m : Map α) (i : Nat) (v : α) (h : mwf d m = true) : mwf d (mput d m i v) = true := by
  unfold mput mwf
  split
  · exact mwfFrom_filter d _ h
  · next hv => exact mwfFrom_minsert d hv h (Nat.zero_le _)

/-! ### Memories -/

/-- Storing bytes keeps a memory canonical. -/
theorem memPuts_wf (bs : List Byte) : ∀ (m : List Host.Cell) (a : Nat), Memory.wf m = true → Memory.wf (memPuts m a bs) = true := by
  induction bs with
  | nil => exact fun _ _ h => h
  | cons b t ih => exact fun m a h => ih _ _ (mput_wf 0 m a b h)

/-- Clearing a range keeps a memory canonical. -/
theorem clearRange_wf (m : List Host.Cell) (lo n : Nat) (h : Memory.wf m = true) : Memory.wf (clearRange m lo n) = true :=
  mwfFrom_filter _ _ h

/-- What a memory reads after a store: its bytes there, what it read before elsewhere. -/
theorem mget_memPuts (bs : List Byte) : ∀ (m : List Host.Cell) (a j : Nat),
    mget (0 : Byte) (memPuts m a bs) j = if a ≤ j ∧ j < a + bs.length then bs.getD (j - a) 0 else mget 0 m j := by
  induction bs with
  | nil =>
    intro m a j
    rw [if_neg (by simp only [List.length_nil]; omega)]
    rfl
  | cons b t ih =>
    intro m a j
    rw [memPuts, ih, mget_mput]
    by_cases h : j = a
    · subst h
      rw [if_neg (by omega), if_pos rfl, if_pos (by simp)]
      simp
    · by_cases h' : a + 1 ≤ j ∧ j < a + 1 + t.length
      · rw [if_pos h', if_pos (by simp only [List.length_cons]; omega)]
        obtain ⟨k, rfl⟩ := Nat.exists_eq_add_of_le h'.1
        rw [show a + 1 + k - (a + 1) = k by omega, show a + 1 + k - a = k + 1 by omega, List.getD_cons_succ]
      · rw [if_neg h', if_neg h, if_neg (by simp only [List.length_cons]; omega)]

/-! ### Cores, warps, lanes, sectors, contexts -/

@[simp] theorem coreOf_setCore (s : State) (c j : Nat) (x : Core) : coreOf (setCore s c x) j = if j = c then x else coreOf s j := by
  simp [coreOf, setCore]
@[simp] theorem coreOf_modCore (s : State) (c j : Nat) (f : Core → Core) :
    coreOf (modCore s c f) j = if j = c then f (coreOf s c) else coreOf s j := by simp [modCore]
@[simp] theorem coreOf_setWarp (s : State) (c w j : Nat) (x : Warp) :
    coreOf (setWarp s c w x) j = if j = c then { coreOf s c with warps := mput {} (coreOf s c).warps w x } else coreOf s j := by
  simp [setWarp]
@[simp] theorem warpOf_setWarp (s : State) (c w j k : Nat) (x : Warp) :
    warpOf (setWarp s c w x) j k = if j = c ∧ k = w then x else warpOf s j k := by
  simp only [warpOf, coreOf_setWarp]
  split
  · next h => subst h; simp
  · next h => rw [if_neg (fun e => h e.1)]
@[simp] theorem warpOf_modWarp (s : State) (c w j k : Nat) (f : Warp → Warp) :
    warpOf (modWarp s c w f) j k = if j = c ∧ k = w then f (warpOf s c w) else warpOf s j k := by simp [modWarp]
@[simp] theorem coreOf_modWarp (s : State) (c w j : Nat) (f : Warp → Warp) :
    coreOf (modWarp s c w f) j
      = if j = c then { coreOf s c with warps := mput {} (coreOf s c).warps w (f (warpOf s c w)) } else coreOf s j := by
  simp [modWarp]
@[simp] theorem laneOf_setLane (w : Warp) (l j : Nat) (x : Lane) : laneOf (setLane w l x) j = if j = l then x else laneOf w j := by
  simp [laneOf, setLane]
@[simp] theorem laneOf_modLane (w : Warp) (l j : Nat) (f : Lane → Lane) :
    laneOf (modLane w l f) j = if j = l then f (laneOf w l) else laneOf w j := by simp [modLane]
@[simp] theorem sectorOf_modSector (s : State) (x j : Nat) (f : Sector → Sector) :
    sectorOf (modSector s x f) j = if j = x then f (sectorOf s x) else sectorOf s j := by simp [sectorOf, modSector]
@[simp] theorem ctxOf_modCtx (s : State) (x j : Nat) (f : Ctx → Ctx) :
    ctxOf (modCtx s x f) j = if j = x then f (ctxOf s x) else ctxOf s j := by simp [ctxOf, modCtx]
@[simp] theorem partAt_modPart (s : State) (x j : Nat) (f : Part → Part) :
    partAt (modPart s x f) j = if j = x then f (partAt s x) else partAt s j := by simp [partAt, modPart]
@[simp] theorem queueOf_modQueue (s : State) (c q j k : Nat) (f : LQueue → LQueue) :
    queueOf (modQueue s c q f) j k = if j = c ∧ k = q then f (queueOf s c q) else queueOf s j k := by
  simp only [queueOf, modQueue, ctxOf_modCtx]
  split
  · next h => subst h; simp
  · next h => rw [if_neg (fun e => h e.1)]
@[simp] theorem launchOf_modLaunch (s : State) (c q j k : Nat) (f : Launch → Launch) :
    launchOf (modLaunch s c q f) j k = if j = c ∧ k = q then f (launchOf s c q) else launchOf s j k := by
  simp only [launchOf, modLaunch, ctxOf_modCtx]
  split
  · next h => subst h; simp
  · next h => rw [if_neg (fun e => h e.1)]
@[simp] theorem groupOf_modGroup (s : State) (c g j k : Nat) (f : Group → Group) :
    groupOf (modGroup s c g f) j k = if j = c ∧ k = g then f (groupOf s c g) else groupOf s j k := by
  simp only [groupOf, modGroup, coreOf_modCore]
  split
  · next h => subst h; simp
  · next h => rw [if_neg (fun e => h e.1)]
@[simp] theorem copyQOf_modCopyQ (s : State) (c q j k : Nat) (f : CopyQ → CopyQ) :
    copyQOf (modCopyQ s c q f) j k = if j = c ∧ k = q then f (copyQOf s c q) else copyQOf s j k := by
  simp only [copyQOf, modCopyQ, coreOf_modCore]
  split
  · next h => subst h; simp
  · next h => rw [if_neg (fun e => h e.1)]

/-! ### Registers and predicates -/

@[simp] theorem getX_zero (l : Lane) : getX l 0 = 0 := rfl
/-- X(t,n) after a write of X(t,m): x0 reads zero whatever is written. -/
@[simp] theorem getX_setX (l : Lane) (m n : Nat) (v : Word) :
    getX (setX l m v) n = if n = m ∧ m ≠ 0 then v else getX l n := by
  unfold getX setX
  by_cases hm : m = 0
  · subst hm; simp
  · by_cases hn : n = 0
    · subst hn; simp [eq_comm, hm]
    · simp [hm, hn]
@[simp] theorem getX_setP (l : Lane) (m n : Nat) (b : Bool) : getX (setP l m b) n = getX l n := by
  unfold getX; rw [setP_regs]
@[simp] theorem getP_seven (l : Lane) : getP l 7 = true := rfl
@[simp] theorem getP_setX (l : Lane) (m n : Nat) (v : Word) : getP (setX l m v) n = getP l n := by
  unfold getP; rw [setX_preds]
/-- P(t,n) after a write of P(t,m): p7 reads true whatever is written. -/
theorem getP_setP (l : Lane) (m n : Nat) (b : Bool) (hm : m < 8) (hn : n < 8) :
    getP (setP l m b) n = if n = m ∧ m ≠ 7 then b else getP l n := by
  unfold getP setP
  by_cases hm7 : m = 7
  · subst hm7; simp
  · by_cases hn7 : n = 7
    · subst hn7; simp [eq_comm, hm7]
    · cases b
      · by_cases h : n = m
        · subst h
          simp [hm7, show n < 7 by omega]
        · simp [hm7, hn7, h, show n < 7 by omega]
          omega
      · by_cases h : n = m
        · subst h
          simp [hm7, show n < 7 by omega]
        · simp [hm7, hn7, h, show n < 7 by omega]
          omega

end Sys2Proof.Machine
end

