-- ==== Sys2Proof/Laws/Issue.lean ====
section
/-! SUPPORT. What the shared operations of an issuing word do, each said once: which threads act, when a word has its
effect, and what writing registers and predicates changes. -/

namespace Sys2Proof.Machine

/-! ### Lanes and masks -/

theorem mem_lanesOf {m : W32} {l : Nat} : l ∈ lanesOf m ↔ l < 32 ∧ m.getLsbD l = true := by
  simp [lanesOf, List.mem_filter, List.mem_range]

theorem lanesOf_nodup (m : W32) : (lanesOf m).Nodup := List.Nodup.filter _ List.nodup_range

theorem mem_actLanes {s : State} {g : BitVec 3} {l : Nat} :
    l ∈ actLanes s g ↔ l < 32 ∧ s.issue.lanes.getLsbD l = true ∧ getP (iLane s l) g.toNat = true := by
  simp [actLanes, List.mem_filter, mem_lanesOf, and_assoc]

theorem actLanes_nodup (s : State) (g : BitVec 3) : (actLanes s g).Nodup := (lanesOf_nodup _).filter _

theorem lt_of_actLanes {s : State} {g : BitVec 3} {ls : List Nat} (h : actLanes s g = ls) : ∀ l ∈ ls, l < 32 := by
  subst h; exact fun l hl => (mem_actLanes.1 hl).1

theorem foldl_or_getLsbD (ls : List Nat) : ∀ (m : W32) (l : Nat), l < 32 →
    (ls.foldl (fun m i => m ||| (1#32 <<< i)) m).getLsbD l = (m.getLsbD l || decide (l ∈ ls)) := by
  induction ls with
  | nil => simp
  | cons a t ih =>
    intro m l hl
    rw [List.foldl_cons, ih _ _ hl]
    have h1 : (m ||| 1#32 <<< a).getLsbD l = (m.getLsbD l || decide (l = a)) := by
      have : (1#32 <<< a).getLsbD l = decide (l = a) := by
        rw [BitVec.getLsbD_shiftLeft, BitVec.getLsbD_one]
        by_cases h : l < a
        · simp [h, Nat.ne_of_lt h]
        · simp only [hl, h, decide_true, decide_false, Bool.not_false, Bool.true_and, Nat.zero_lt_succ]
          exact decide_eq_decide.2 (by omega)
      rw [BitVec.getLsbD_or, this]
    rw [h1]
    simp [List.mem_cons, Bool.or_assoc]

theorem getLsbD_maskOf (ls : List Nat) (l : Nat) (h : l < 32) : (maskOf ls).getLsbD l = decide (l ∈ ls) := by
  rw [maskOf, foldl_or_getLsbD ls 0 l h]; simp

theorem maskOf_ne_zero {ls : List Nat} (h : ls ≠ []) (hl : ∀ l ∈ ls, l < 32) : maskOf ls ≠ 0#32 := by
  obtain ⟨a, t, rfl⟩ := List.exists_cons_of_ne_nil h
  intro e
  have := getLsbD_maskOf (a :: t) a (hl a (by simp))
  rw [e] at this; simp at this

/-! ### When a word has its effect -/

/-- A word whose threads act, whose registers are in range and whose own checks pass has its effect. -/
theorem issueWord_next {i : Instr} {g : BitVec 3} {ls : List Nat} {s : State} {target own : Check}
    {eff : List Nat → State → State} (h : Issues i g ls s) (ht : target ls s = none) (ho : own ls s = none) :
    issueWord i g target own eff s = eff ls s := by
  obtain ⟨rfl, h2, h3⟩ := h
  unfold issueWord
  have : (actLanes s g).isEmpty = false := by simpa using h2
  simp only [this, ht, ho, h3, Bool.false_eq_true, if_false]

/-- A word that acts for no thread changes nothing, if the registers that it names are in range. -/
theorem issueWord_none {i : Instr} {g : BitVec 3} {s : State} {target own : Check}
    {eff : List Nat → State → State} (h : actLanes s g = []) (hr : badReg s i = none) :
    issueWord i g target own eff s = s := by
  unfold issueWord
  simp [h, hr]

theorem issueE_next {i : Instr} {g : BitVec 3} {ls : List Nat} {s : State} {own : Check}
    {eff : List Nat → State → State} (h : IssuesE i g ls s) (ho : own ls s = none) :
    issueE i g own eff s = eff ls (posted s ls) := by
  unfold issueE
  rw [issueWord_next h.toIssues rfl ho]
  simp [h.done, h.free]

/-! ### The issuing warp -/

@[simp] theorem iWarp_iMod (s : State) (f : Warp → Warp) : iWarp (iMod s f) = f (iWarp s) := by
  simp [iMod, iWarp, modWarp, warpOf_setWarp]

theorem iMod_only (s : State) (f : Warp → Warp) : OnlyWarp s (iMod s f) := by
  refine ⟨?_, fun c => ?_, fun c w h => ?_, fun x pa => ?_, fun c a => ?_⟩
  · rfl
  · simp only [iMod, modWarp, setWarp, modCore, coreOf_setCore]
    split
    · next h => subst h; rfl
    · rfl
  · simp only [iMod, modWarp, warpOf_setWarp]
    rw [if_neg h]
  · rfl
  · simp only [iMod, modWarp, setWarp, modCore, coreOf_setCore]
    split
    · next h => subst h; rfl
    · rfl

/-! ### Writing registers and predicates -/

/-- A fold of changes of distinct lanes is each lane's own change. -/
theorem laneOf_foldl_modLane {α : Type} (f : α → Lane → Lane) (vs : List (Nat × α)) (hn : (vs.map (·.1)).Nodup) :
    ∀ (w : Warp) (l : Nat), laneOf (vs.foldl (fun w e => modLane w e.1 (f e.2)) w) l =
      match vs.find? (fun e => e.1 == l) with
      | some e => f e.2 (laneOf w l)
      | none => laneOf w l := by
  induction vs with
  | nil => intro w l; rfl
  | cons e t ih =>
    intro w l
    have hn' : e.1 ∉ t.map (·.1) ∧ (t.map (·.1)).Nodup := by simpa using hn
    rw [List.foldl_cons, ih hn'.2, List.find?_cons]
    by_cases h : e.1 = l
    · have : t.find? (fun e => e.1 == l) = none := by
        rw [List.find?_eq_none]
        intro x hx hxl
        exact hn'.1 (h ▸ (by simpa using hxl) ▸ List.mem_map_of_mem hx)
      simp [this, h]
    · have hb : (e.1 == l) = false := by simpa using h
      simp only [hb]
      split <;> simp [Ne.symm h, *]

/-- A fold over lanes changes nothing of the warp but its lanes. -/
theorem foldl_modLane_rest {α : Type} (f : α → Nat) (g : α → Lane → Lane) (vs : List α) :
    ∀ w : Warp, { vs.foldl (fun w e => modLane w (f e) (g e)) w with lanes := [] } = { w with lanes := [] } := by
  induction vs with
  | nil => exact fun _ => rfl
  | cons e t ih => exact fun w => (ih _).trans rfl

theorem foldl_modLane_board {α : Type} (f : α → Nat) (g : α → Lane → Lane) (vs : List α) (w : Warp) :
    (vs.foldl (fun w e => modLane w (f e) (g e)) w).board = w.board := by
  induction vs generalizing w with
  | nil => rfl
  | cons e t ih => exact (ih _).trans rfl

@[simp] theorem laneOf_addPending (w : Warp) (k n : Nat) (m : W32) (d l : Nat) :
    laneOf (addPending w k n m d) l = laneOf w l := by
  unfold addPending; split <;> rfl

/-- The lanes that a list of lanes and values pairs up. -/
theorem find_map_lane {α : Type} (f : Nat → α) (ls : List Nat) (l : Nat) :
    (ls.map fun l => (l, f l)).find? (fun e => e.1 == l) = if l ∈ ls then some (l, f l) else none := by
  induction ls with
  | nil => rfl
  | cons a t ih =>
    rw [List.map_cons, List.find?_cons, ih]
    by_cases h : a = l
    · simp [h]
    · have hb : (a == l) = false := by simpa using h
      simp [hb, Ne.symm h]

/-- What `putX` does, whole: the register of each thread takes its value, and nothing else changes but the result's
pending entry. -/
theorem putX_writes (s : State) (n lat : Nat) {ls : List Nat} (hn : ls.Nodup) (hs : ls ≠ []) (hl : ∀ l ∈ ls, l < 32)
    (f : Nat → Word) : WritesX s (putX s n lat (ls.map fun l => (l, f l))) n lat ls (fun l v => v = f l) := by
  have hm : (ls.map fun l => (l, f l)).map (·.1) = ls := by simp [Function.comp_def]
  have hlane : ∀ l, laneOf (iWarp (putX s n lat (ls.map fun l => (l, f l)))) l =
      if l ∈ ls then setX (laneOf (iWarp s) l) n (f l) else laneOf (iWarp s) l := by
    intro l
    rw [putX, iWarp_iMod, laneOf_addPending,
      laneOf_foldl_modLane (fun v x => setX x n v) _ (by rw [hm]; exact hn), find_map_lane]
    by_cases h : l ∈ ls <;> simp [h]
  refine { toOnlyWarp := iMod_only _ _, mine := ?_, value := ?_, others := ?_, rest := ?_, pending := ?_ }
  · rw [putX, iWarp_iMod]
    have : ∀ (w : Warp) k n m d, { addPending w k n m d with lanes := [], board := [] } = { w with lanes := [], board := [] } := by
      intro w k n m d; unfold addPending; split <;> rfl
    rw [this]
    have := foldl_modLane_rest (fun e : Nat × Word => e.1) (fun e x => setX x n e.2) (ls.map fun l => (l, f l)) (iWarp s)
    exact congrArg (fun w : Warp => { w with board := [] }) this
  · intro hz l h; rw [hlane, if_pos h]; simp [hz]
  · intro l m h; rw [hlane]; split
    · next hi => rw [getX_setX, if_neg]; exact fun e => h ⟨hi, e.1, e.1 ▸ e.2⟩
    · rfl
  · intro l; unfold SameButRegs; rw [hlane]; split
    · unfold setX; split <;> rfl
    · rfl
  · rw [putX, iWarp_iMod, hm, addPending]
    have hz := maskOf_ne_zero hs hl
    split
    · next h =>
      have : n = 0 := by simpa [hz] using h
      simp [this, foldl_modLane_board]
    · next h =>
      have : n ≠ 0 := by simpa [hz] using h
      simp [this, foldl_modLane_board]

/-- What `putP` does, whole. -/
theorem putP_writes (s : State) (n lat : Nat) {ls : List Nat} (hn : ls.Nodup) (hs : ls ≠ []) (hl : ∀ l ∈ ls, l < 32)
    (hp : n < 8) (f : Nat → Bool) : WritesP s (putP s n lat (ls.map fun l => (l, f l))) n lat ls (fun l v => v = f l) := by
  have hm : (ls.map fun l => (l, f l)).map (·.1) = ls := by simp [Function.comp_def]
  have hlane : ∀ l, laneOf (iWarp (putP s n lat (ls.map fun l => (l, f l)))) l =
      if l ∈ ls then setP (laneOf (iWarp s) l) n (f l) else laneOf (iWarp s) l := by
    intro l
    rw [putP, iWarp_iMod, laneOf_addPending,
      laneOf_foldl_modLane (fun v x => setP x n v) _ (by rw [hm]; exact hn), find_map_lane]
    by_cases h : l ∈ ls <;> simp [h]
  refine { toOnlyWarp := iMod_only _ _, mine := ?_, value := ?_, others := ?_, rest := ?_, pending := ?_ }
  · rw [putP, iWarp_iMod]
    have : ∀ (w : Warp) k n m d, { addPending w k n m d with lanes := [], board := [] } = { w with lanes := [], board := [] } := by
      intro w k n m d; unfold addPending; split <;> rfl
    rw [this]
    have := foldl_modLane_rest (fun e : Nat × Bool => e.1) (fun e x => setP x n e.2) (ls.map fun l => (l, f l)) (iWarp s)
    exact congrArg (fun w : Warp => { w with board := [] }) this
  · intro hz l h; rw [hlane, if_pos h, getP_setP _ _ _ _ hp hp]; simp [hz]
  · intro l m hm8 h; rw [hlane]; split
    · next hi => rw [getP_setP _ _ _ _ hp hm8, if_neg]; exact fun e => h ⟨hi, e.1, e.1 ▸ e.2⟩
    · rfl
  · intro l; unfold SameButPreds; rw [hlane]; split
    · unfold setP; split <;> rfl
    · rfl
  · rw [putP, iWarp_iMod, hm, addPending]
    have hz := maskOf_ne_zero hs hl
    split
    · next h =>
      have : n = 7 := by simpa [hz] using h
      simp [this, foldl_modLane_board]
    · next h =>
      have : n ≠ 7 := by simpa [hz] using h
      simp [this, foldl_modLane_board]

theorem writesX_mono {s t : State} {n lat : Nat} {ls : List Nat} {u v : Nat → Word → Prop} (h : WritesX s t n lat ls u)
    (m : ∀ l ∈ ls, ∀ x, u l x → v l x) : WritesX s t n lat ls v :=
  { h with value := fun hz l hl => m l hl _ (h.value hz l hl) }

theorem writesP_mono {s t : State} {n lat : Nat} {ls : List Nat} {u v : Nat → Bool → Prop} (h : WritesP s t n lat ls u)
    (m : ∀ l ∈ ls, ∀ x, u l x → v l x) : WritesP s t n lat ls v :=
  { h with value := fun hz l hl => m l hl _ (h.value hz l hl) }

/-- A word that computes one register of each thread: what it leaves. -/
theorem issueX_writes {i : Instr} {g : BitVec 3} {ls : List Nat} {s : State} (h : Issues i g ls s) (d lat : Nat)
    (f : State → Nat → Word) : WritesX s (issueX i g d lat f s) d lat ls (fun l v => v = f s l) := by
  rw [issueX, issueWord_next h rfl rfl]
  exact putX_writes s d lat (h.acting ▸ actLanes_nodup _ _) h.some (lt_of_actLanes h.acting) _

/-- A word that computes one predicate of each thread: what it leaves. -/
theorem issueP_writes {i : Instr} {g : BitVec 3} {ls : List Nat} {s : State} (h : Issues i g ls s) (d lat : Nat) (hd : d < 8)
    (f : State → Nat → Bool) : WritesP s (issueP i g d lat f s) d lat ls (fun l v => v = f s l) := by
  rw [issueP, issueWord_next h rfl rfl]
  exact putP_writes s d lat (h.acting ▸ actLanes_nodup _ _) h.some (lt_of_actLanes h.acting) hd _

/-! ### Frames, composed -/

theorem onlyThreads_refl (s : State) : OnlyThreads s s :=
  ⟨⟨rfl, fun _ => rfl, fun _ _ _ => rfl, ⟨fun _ _ => rfl, fun _ _ => rfl⟩⟩, rfl⟩

theorem onlyWarp_trans {s t u : State} (hi : t.issue = s.issue) (h : OnlyWarp s t) (h' : OnlyWarp t u) : OnlyWarp s u :=
  ⟨h'.machine.trans h.machine, fun c => (h'.core c).trans (h.core c),
    fun c w hc => (h'.warp c w (by rwa [hi])).trans (h.warp c w hc),
    ⟨fun x pa => (h'.memory.1 x pa).trans (h.memory.1 x pa), fun x pa => (h'.memory.2 x pa).trans (h.memory.2 x pa)⟩⟩

/-- A frame looks past the marks of the issue. -/
theorem onlyThreads_issue {s t : State} (h : OnlyThreads s t) (hi : t.issue = s.issue) (i : Issue) :
    OnlyThreads s { ({ t with issue := i } : State) with issue := s.issue } := by
  have : { ({ t with issue := i } : State) with issue := s.issue } = t := by rw [← hi]
  rw [this]; exact h

/-- Changing distinct lanes one after another, whole: each lane takes its own change, and nothing else changes. -/
theorem foldl_iModLane {α : Type} (f : α → Lane → Lane) (v : Nat → α) (ls : List Nat) (hn : ls.Nodup) : ∀ s : State,
    let t := (ls.map fun l => (l, v l)).foldl (fun s e => iModLane s e.1 (f e.2)) s
    OnlyThreads s t ∧ (iWarp t).board = (iWarp s).board ∧ t.issue = s.issue
    ∧ ∀ l, laneOf (iWarp t) l = if l ∈ ls then f (v l) (laneOf (iWarp s) l) else laneOf (iWarp s) l := by
  induction ls with
  | nil => intro s; exact ⟨onlyThreads_refl s, rfl, rfl, fun l => by simp⟩
  | cons a t ih =>
    intro s
    have hn' : a ∉ t ∧ t.Nodup := by simpa using hn
    rw [List.map_cons, List.foldl_cons]
    obtain ⟨h1, h2, h3, h4⟩ := ih hn'.2 (iModLane s a (f (v a)))
    have o : OnlyWarp s (iModLane s a (f (v a))) := iMod_only s _
    have w1 : iWarp (iModLane s a (f (v a))) = modLane (iWarp s) a (f (v a)) := iWarp_iMod _ _
    refine ⟨⟨onlyWarp_trans (t := iModLane s a (f (v a))) rfl o h1.toOnlyWarp, ?_⟩, ?_, h3, ?_⟩
    · rw [h1.mine, w1]; rfl
    · rw [h2, w1]; rfl
    · intro l
      rw [h4, w1, laneOf_modLane]
      by_cases ha : l = a
      · subst ha; simp [hn'.1]
      · simp [ha]

/-- Transferring threads, whole. -/
theorem jumpLanes_goTo (s : State) {ls : List Nat} (hn : ls.Nodup) (f : Nat → Nat) :
    GoTo s (jumpLanes (ls.map fun l => (l, f l)) s) ls f := by
  have hm : (ls.map fun l => (l, f l)).map (·.1) = ls := by simp [Function.comp_def]
  obtain ⟨h1, h2, h3, h4⟩ := foldl_iModLane (fun (p : Nat) x => { x with pc := p }) f ls hn s
  unfold jumpLanes
  rw [hm]
  generalize (ls.map fun l => (l, f l)).foldl (fun s e => iModLane s e.1 fun x => { x with pc := e.2 }) s = t at *
  have hi : iWarp (iMoved t ls) = iWarp t := rfl
  refine ⟨onlyThreads_issue h1 h3 _, ?_, ?_, ?_, ?_, ?_⟩
  · show { t.issue with moved := t.issue.moved ||| maskOf ls } = _
    rw [h3]
  · intro l hl; rw [hi, h4, if_pos hl]
  · intro l; rw [hi, h4]; split <;> rfl
  · intro l hl; rw [hi, h4, if_neg hl]
  · exact h2

/-- Parking threads, whole. -/
theorem parkLanes_parks (s : State) (kind dst : Nat) (eng : Bool) {ls : List Nat} (hn : ls.Nodup) (op : Nat → Word) :
    OnlyThreads s { parkLanes kind dst eng (ls.map fun l => (l, op l)) s with issue := s.issue }
    ∧ (parkLanes kind dst eng (ls.map fun l => (l, op l)) s).issue = { s.issue with moved := s.issue.moved ||| maskOf ls }
    ∧ (iWarp (parkLanes kind dst eng (ls.map fun l => (l, op l)) s)).board = (iWarp s).board
    ∧ ∀ l, laneOf (iWarp (parkLanes kind dst eng (ls.map fun l => (l, op l)) s)) l =
      if l ∈ ls then { laneOf (iWarp s) l with
        st := .parked, pc := s.issue.gpc,
        park := { kind := kind, op := op l, words := iCount s, word := iWord s, widx := s.issue.widx, dst := dst, eng := eng } }
      else laneOf (iWarp s) l := by
  have hm : (ls.map fun l => (l, op l)).map (·.1) = ls := by simp [Function.comp_def]
  obtain ⟨h1, h2, h3, h4⟩ := foldl_iModLane (fun (p : Word) (x : Lane) => { x with
      st := .parked, pc := s.issue.gpc,
      park := { kind := kind, op := p, words := iCount s, word := iWord s, widx := s.issue.widx, dst := dst, eng := eng } }) op ls hn s
  have he : parkLanes kind dst eng (ls.map fun l => (l, op l)) s = iMoved ((ls.map fun l => (l, op l)).foldl (fun s1 e =>
      iModLane s1 e.1 ((fun (p : Word) (x : Lane) => { x with
        st := .parked, pc := s.issue.gpc,
        park := { kind := kind, op := p, words := iCount s, word := iWord s, widx := s.issue.widx, dst := dst, eng := eng } }) e.2)) s) ls := by
    unfold parkLanes
    rw [hm]
    have : ∀ (vs : List (Nat × Word)) (t : State), t.issue = s.issue →
        vs.foldl (fun s1 e => iModLane s1 e.1 fun x => { x with
          st := .parked, pc := s1.issue.gpc,
          park := { kind := kind, op := e.2, words := iCount s, word := iWord s, widx := s.issue.widx, dst := dst, eng := eng } }) t
        = vs.foldl (fun s1 e => iModLane s1 e.1 fun x => { x with
          st := .parked, pc := s.issue.gpc,
          park := { kind := kind, op := e.2, words := iCount s, word := iWord s, widx := s.issue.widx, dst := dst, eng := eng } }) t := by
      intro vs
      induction vs with
      | nil => exact fun _ _ => rfl
      | cons e t ih => intro u hu; rw [List.foldl_cons, List.foldl_cons, hu]; exact ih _ hu
    exact congrArg (iMoved · ls) (this _ s rfl)
  rw [he]
  generalize (ls.map fun l => (l, op l)).foldl (fun s1 e => iModLane s1 e.1 ((fun (p : Word) (x : Lane) => { x with
        st := .parked, pc := s.issue.gpc,
        park := { kind := kind, op := p, words := iCount s, word := iWord s, widx := s.issue.widx, dst := dst, eng := eng } }) e.2)) s = t at *
  refine ⟨onlyThreads_issue h1 h3 _, ?_, h2, h4⟩
  · show { t.issue with moved := t.issue.moved ||| maskOf ls } = _
    rw [h3]

end Sys2Proof.Machine
end

