-- ==== Sys2Proof/Laws/Memory.lean ====
section
/-! SUPPORT. The canonical form of the memories (log 2): reset has it, and every operation that writes a sector's memory or a
scratchpad keeps it. -/

namespace Sys2Proof.Machine

/-- Every sector's memory is in canonical form. -/
def State.MemWf (s : State) : Prop := ∀ x, Memory.wf (sectorOf s x).mem = true

/-- Every scratchpad is in canonical form. -/
def State.PadWf (s : State) : Prop := ∀ c, Memory.wf (coreOf s c).pad = true

theorem reset_memWf : State.reset.MemWf := fun _ => rfl
theorem reset_padWf : State.reset.PadWf := fun _ => rfl

theorem sectorOf_mk (s t : State) (h : t.sectors = s.sectors) (x : Nat) : sectorOf t x = sectorOf s x := by
  unfold sectorOf; rw [h]

/-- A sector changed in a way that keeps its memory canonical. -/
theorem memWf_modSector {s : State} {o : Nat} {f : Sector → Sector} (hf : ∀ k, Memory.wf k.mem = true → Memory.wf (f k).mem = true)
    (h : s.MemWf) : (modSector s o f).MemWf := by
  intro x
  show Memory.wf (mget {} (mput {} s.sectors o (f (sectorOf s o))) x).mem = true
  rw [mget_mput]
  split
  · exact hf _ (h o)
  · exact h x

theorem memWf_of_sectors {s t : State} (e : t.sectors = s.sectors) (h : s.MemWf) : t.MemWf := fun x => by
  rw [sectorOf_mk s t e]; exact h x

theorem memWf_foldl {α : Type} {f : State → α → State} (hf : ∀ s a, s.MemWf → (f s a).MemWf) (l : List α) : ∀ {s : State}, s.MemWf →
    (l.foldl f s).MemWf := by
  induction l with
  | nil => exact fun h => h
  | cons a l ih => exact fun h => ih (hf _ a h)

theorem applyWrite_memWf {s : State} (o pa : Nat) (bs : List Byte) (h : s.MemWf) : (applyWrite s o pa bs).MemWf := by
  unfold applyWrite
  apply memWf_foldl
  · exact fun t d ht => memWf_of_sectors rfl ht
  · intro x
    show Memory.wf (mget {} (mput {} s.sectors o _) x).mem = true
    rw [mget_mput]
    split
    · exact memPuts_wf _ _ _ (h o)
    · exact h x

theorem deliver_memWf {s : State} (o d : Nat) (h : s.MemWf) : (deliver s o d).MemWf := by
  unfold deliver
  split
  · exact h
  · refine memWf_modSector (fun k hk => ?_) (memWf_of_sectors rfl h)
    have loop : ∀ (w : List Byte) (pa key : Nat) (l : List Nat) (k : Sector), Memory.wf k.mem = true →
        Memory.wf (l.foldl (fun (sec : Sector) i => if mget 0 sec.keys (pa + i) < key then
          { sec with mem := mput (0 : Byte) sec.mem (pa + i) (w.getD i 0), keys := mput 0 sec.keys (pa + i) key } else sec) k).mem = true := by
      intro w pa key l
      induction l with
      | nil => exact fun _ hk => hk
      | cons i l ih =>
        intro k hk
        refine ih _ ?_
        dsimp only
        split
        · exact mput_wf _ _ _ _ hk
        · exact hk
    exact loop _ _ _ _ _ hk

theorem deliverAll_memWf {s : State} (h : s.MemWf) : (deliverAll s).MemWf := by
  unfold deliverAll
  refine memWf_foldl (fun t _ ht => ?_) _ h
  split
  · exact deliver_memWf _ _ ht
  · exact ht

theorem deliverTo_memWf (d n : Nat) : ∀ {s : State}, s.MemWf → (deliverTo d n s).MemWf := by
  induction n with
  | zero => exact fun h => h
  | succ n ih =>
    intro s h
    unfold deliverTo
    split
    · exact ih (deliver_memWf _ _ h)
    · exact h

theorem deliverUpTo_memWf (d : Nat) (v : Vec4) (n : Nat) : ∀ {s : State}, s.MemWf → (deliverUpTo d v n s).MemWf := by
  induction n with
  | zero => exact fun h => h
  | succ n ih =>
    intro s h
    unfold deliverUpTo
    split
    · exact ih (deliver_memWf _ _ h)
    · exact h

theorem memWf_ctxs {s : State} (c : Map Ctx) (h : s.MemWf) : State.MemWf { s with ctxs := c } := memWf_of_sectors rfl h

theorem clearPage_memWf {s : State} (lo n : Nat) (l : List Nat) (h : s.MemWf) :
    (l.foldl (fun s x => modSector s x fun k => { k with mem := clearRange k.mem lo n }) s).MemWf := by
  apply memWf_foldl
  · exact fun t x ht => memWf_modSector (fun k hk => clearRange_wf _ _ _ hk) ht
  · exact h

theorem memWf_marks {s : State} (o : Nat) (f g h : Sector → List Nat) (hs : s.MemWf) :
    (modSector s o fun k => { k with scrub := f k, damaged := g k, sramBad := h k }).MemWf := memWf_modSector (fun _ hk => hk) hs

theorem scrubPage_memWf {s : State} (page : Nat) (h : s.MemWf) : (scrubPage s page).MemWf := by
  unfold scrubPage
  have h1 := clearPage_memWf (page * 65536) 65536 [0, 1, 2, 3] h
  generalize List.foldl _ s [0, 1, 2, 3] = u at h1 ⊢
  exact memWf_ctxs _ (memWf_marks _ _ _ _ h1)

theorem scrubFirst_memWf {s : State} (pa : Nat) (h : s.MemWf) : (scrubFirst s pa).MemWf := by
  unfold scrubFirst
  split
  · exact scrubPage_memWf _ h
  · exact h

theorem repair_memWf {s : State} (o pa n : Nat) (h : s.MemWf) : (repair s o pa n).MemWf := by
  unfold repair
  refine memWf_foldl (fun t g ht => ?_) _ h
  dsimp only
  refine memWf_modSector (fun k hk => ?_) ?_
  · split <;> exact hk
  · split
    · exact ht
    · exact applyWrite_memWf _ _ _ ht

theorem storeAt_memWf {s : State} (o pa : Nat) (bs : List Byte) (h : s.MemWf) : (storeAt s o pa bs).MemWf :=
  applyWrite_memWf _ _ _ (repair_memWf _ _ _ (scrubFirst_memWf _ h))

theorem logError_memWf {s : State} (x cause addr gen part ctx core det : Nat) (h : s.MemWf) :
    (logError s x cause addr gen part ctx core det).MemWf := by
  unfold logError
  lift_lets
  intros
  split
  · apply applyWrite_memWf; exact h
  · split
    · apply applyWrite_memWf; exact h
    · apply applyWrite_memWf; apply applyWrite_memWf; exact h

theorem puts_wf (all : List Host.Cell) : ∀ m : List Host.Cell, Memory.wf m = true → Memory.wf (all.foldl (fun m b => mput (0 : Byte) m b.1 b.2) m) = true := by
  induction all with
  | nil => exact fun _ h => h
  | cons b l ih => exact fun m h => ih _ (mput_wf _ _ _ _ h)

theorem mergeSectors_memWf {s : State} (x : BitVec 4) (h : s.MemWf) : (mergeSectors x s).MemWf := by
  unfold mergeSectors
  apply memWf_foldl
  · intro t i ht
    apply memWf_modSector _ ht
    exact fun k hk => puts_wf _ _ (mwfFrom_filter _ _ hk)
  · exact deliverAll_memWf h

theorem placeBytes_memWf {s : State} (pa : Nat) (bs : List Byte) (h : s.MemWf) : (placeBytes pa bs s).MemWf := by
  unfold placeBytes
  exact memWf_foldl (fun t x ht => memWf_modSector (fun k hk => memPuts_wf _ _ _ hk) ht) _ h

/-! ### Scratchpads -/

/-- A core changed in a way that keeps its scratchpad canonical. -/
theorem padWf_modCore {s : State} {c : Nat} {f : Core → Core} (hf : ∀ k, Memory.wf k.pad = true → Memory.wf (f k).pad = true)
    (h : s.PadWf) : (modCore s c f).PadWf := by
  intro x
  show Memory.wf (mget {} (mput {} s.cores c (f (coreOf s c))) x).pad = true
  rw [mget_mput]
  split
  · exact hf _ (h c)
  · exact h x

theorem clearGranules_wf (l : List Nat) : ∀ m : List Host.Cell, Memory.wf m = true → Memory.wf (l.foldl (fun m g => clearRange m g 8) m) = true := by
  induction l with
  | nil => exact fun _ h => h
  | cons b l ih => exact fun m h => ih _ (clearRange_wf _ _ _ h)

theorem padRepair_wf (k : Core) (a : Nat) (bs : List Byte) (h : Memory.wf k.pad = true) : Memory.wf (padRepair k a bs).pad = true :=
  clearGranules_wf _ _ h

theorem padWrite_padWf {s : State} (c writer a : Nat) (bs : List Byte) (h : s.PadWf) : (padWrite s c writer a bs).PadWf :=
  padWf_modCore (fun k hk => memPuts_wf _ _ _ (padRepair_wf k a bs hk)) h

theorem engWrite_padWf {s : State} (c a : Nat) (bs : List Byte) (h : s.PadWf) : (engWrite s c a bs).PadWf :=
  padWf_modCore (fun k hk => memPuts_wf _ _ _ (padRepair_wf k a bs hk)) h

/-- What a restore writes into a scratchpad (23 R408). -/
theorem restorePad_wf (m : List Host.Cell) (bytes : List Byte) (base n : Nat) (h : Memory.wf m = true) :
    Memory.wf (memPuts (clearRange m base n) base bytes) = true :=
  memPuts_wf _ _ _ (clearRange_wf _ _ _ h)

end Sys2Proof.Machine
end

