-- ==== Sys2Proof/Tests/Slice0.lean ====
section
/-! SUPPORT. Tests: words written from the encodings of the spec's opcode table, ill-formed terms, single steps whose results the
spec gives, and a witness for every clause of a statement that has hypotheses. -/

namespace Sys2Proof.Tests

open Machine
set_option Elab.async false

/-! ### Decoding: for each encoded instruction a word put together from its row of the opcode table (10 R225) -/

/-- Each word of the integer majors decodes to its instruction. -/
theorem test_decode_integer : ([
  (0x0580B189, .add 0 2 6 11 6 9), (0x0584B189, .sub 0 2 6 11 6 9), (0x0588B189, .minS 0 2 6 11 6 9), (0x058CB189, .minZ 0 2 6 11 6 9),
  (0x0590B189, .maxS 0 2 6 11 6 9), (0x0594B189, .maxZ 0 2 6 11 6 9), (0x0598B180, .abs 0 2 6 11 6), (0x059CB189, .and 0 2 6 11 6 9),
  (0x05A0B189, .or 0 2 6 11 6 9), (0x05A4B189, .xor 0 2 6 11 6 9), (0x05A8B189, .andn 0 2 6 11 6 9), (0x05ACB189, .shl 0 2 6 11 6 9),
  (0x05B0B189, .shr 0 2 6 11 6 9), (0x05B4B189, .sra 0 2 6 11 6 9), (0x05B8B189, .rot 0 2 6 11 6 9), (0x0980B189, .mul 0 0 6 11 6 9),
  (0x0984B189, .mulhS 0 0 6 11 6 9), (0x0988B189, .mulhZ 0 0 6 11 6 9), (0x098CB189, .mad 0 0 6 11 6 9), (0x0990B189, .divS 0 0 6 11 6 9),
  (0x0994B189, .divZ 0 0 6 11 6 9), (0x0998B189, .remS 0 0 6 11 6 9), (0x099CB189, .remZ 0 0 6 11 6 9), (0x09A0B180, .clz 0 0 6 11 6),
  (0x09A4B180, .popc 0 0 6 11 6), (0x09A8B180, .brev 0 0 6 11 6), (0x09ACB189, .bfx 0 0 6 11 6 9), (0x09B0B189, .bfi 0 0 6 11 6 9),
  (0x0D8CB182, .addi 0 6 3 11 6 2), (0x0F8CB182, .andi 0 6 3 11 6 2), (0x0F9CB182, .ori 0 6 3 11 6 2), (0x0FACB182, .xori 0 6 3 11 6 2),
  (0x1180B181, .shli 0 6 11 6 1), (0x1190B181, .shri 0 6 11 6 1), (0x11A0B181, .srai 0 6 11 6 1), (0x138CB042, .movi 0 6 3 11 1 2),
  (0x158C9181, .cmpi 0 6 3 1 1 6 1), (0x178C9189, .cmp 0 6 3 1 1 6 9), (0x17903141, .pand 0 6 3 5 1), (0x17943141, .por 0 6 3 5 1),
  (0x17983141, .pxor 0 6 3 5 1), (0x179C3140, .pnot 0 6 3 5), (0x17A0B189, .sel 0 6 11 6 9), (0x17A4B180, .mov 0 6 11 6),
  (0x17A8B189, .lea 0 6 11 6 9), (0x17ACB180, .ixget 0 6 11 6), (0x17B00189, .ixput 0 6 6 9), (0x17B4B200, .gets 0 6 11 8),
  (0x17B807C9, .puts 0 6 9)] : List (Nat × Instr)).all (fun e => decodeWord e.1 == some e.2) = true := by decide +kernel

/-- Each word of the control majors decodes to its instruction. -/
theorem test_decode_control : ([
  (0x19800002, .bra 0 6 2), (0x1B800002, .call 0 6 2), (0x1D800180, .brx 0 6 6), (0x1D840180, .ret 0 6 6),
  (0x1D880000, .exit 0 6), (0x1D8C0000, .nop 0 6), (0x1D900000, .yield 0 6), (0x1F800180, .mjoin 0 6 6),
  (0x1F840180, .mleave 0 6 6), (0x1F880180, .mwait 0 6 6), (0x1F8CB180, .mset 0 6 11 6), (0x1F90B180, .mget 0 6 11 6),
  (0x1F94B140, .voteBallot 0 6 11 5), (0x1F943141, .voteAll 0 6 3 5), (0x1F943142, .voteAny 0 6 3 5), (0x1F943143, .voteUni 0 6 3 5)] : List (Nat × Instr)).all (fun e => decodeWord e.1 == some e.2) = true := by decide +kernel

/-- Each word of the memory majors decodes to its instruction. -/
theorem test_decode_memory : ([
  (0x219458C2, .ldg 0 6 1 2 11 6 2), (0x239458C2, .stg 0 6 1 2 11 6 2), (0x259458C2, .lds 0 6 1 2 11 6 2), (0x279458C2, .sts 0 6 1 2 11 6 2),
  (0x29B458C3, .atomAdd 0 6 1 2 11 6 1 1), (0x29B458C7, .atomMinS 0 6 1 2 11 6 1 1), (0x29B458CB, .atomMaxS 0 6 1 2 11 6 1 1), (0x29B458CF, .atomAnd 0 6 1 2 11 6 1 1),
  (0x29B458D3, .atomOr 0 6 1 2 11 6 1 1), (0x29B458D7, .atomXor 0 6 1 2 11 6 1 1), (0x29B458DB, .atomExch 0 6 1 2 11 6 1 1), (0x29B458DF, .atomInc 0 6 1 2 11 6 1 1),
  (0x2B9458C3, .atomfAdd 0 6 1 2 11 6 1 1), (0x2DB458C1, .cas 0 6 1 2 11 6 1), (0x2F8458C1, .nibins 0 6 2 11 6 0 1), (0x31B458C3, .redAdd 0 6 1 2 11 6 1 1),
  (0x31B458C7, .redMinS 0 6 1 2 11 6 1 1), (0x31B458CB, .redMaxS 0 6 1 2 11 6 1 1), (0x31B458CF, .redAnd 0 6 1 2 11 6 1 1), (0x31B458D3, .redOr 0 6 1 2 11 6 1 1),
  (0x31B458D7, .redXor 0 6 1 2 11 6 1 1), (0x319458DB, .redFadd 0 6 1 2 11 6 1 1), (0x31B458DF, .redInc 0 6 1 2 11 6 1 1), (0x339458C4, .waitv 0 6 1 2 11 6 1),
  (0x35840000, .fence 0 6 2), (0x358C0000, .fenceEng 0 6), (0x3780B005, .barArrive 0 6 11 5), (0x3784B005, .barSync 0 6 11 5),
  (0x3788B005, .barWait 0 6 11 5), (0x3794B005, .barSyncEng 0 6 11 5), (0x3798B005, .barWaitEng 0 6 11 5), (0x39801189, .cbinit 0 6 1 6 9),
  (0x3984B180, .cbwait 0 6 11 6), (0x39883180, .cbtest 0 6 3 6), (0x398C0189, .cbadd 0 6 6 9), (0x3B800189, .pref 0 6 6 9),
  (0x3B840189, .flushl 0 6 6 9)] : List (Nat × Instr)).all (fun e => decodeWord e.1 == some e.2) = true := by decide +kernel

/-- Each word of the vector majors decodes to its instruction. -/
theorem test_decode_vector : ([
  (0x4584B189, .fadd 0 2 6 1 11 6 9), (0x4594B189, .fsub 0 2 6 1 11 6 9), (0x45A4B189, .fmul 0 2 6 1 11 6 9), (0x45B4B189, .ffma 0 2 6 1 11 6 9),
  (0x4780B189, .fminS 0 6 11 6 9), (0x4980B189, .fminH 0 0 6 11 6 9), (0x4784B189, .fmaxS 0 6 11 6 9), (0x4984B189, .fmaxH 0 0 6 11 6 9),
  (0x4788B180, .fabsS 0 6 11 6), (0x4988B180, .fabsH 0 0 6 11 6), (0x478CB180, .fnegS 0 6 11 6), (0x498CB180, .fnegH 0 0 6 11 6),
  (0x4790D189, .fcmpS 0 6 1 5 6 9), (0x49909189, .fcmpH 0 0 6 1 1 6 9), (0x4794B180, .fclassS 0 6 11 6), (0x4994B180, .fclassH 0 0 6 11 6),
  (0x4D8CB191, .fcvt 0 6 1 1 11 6 2 1), (0x4F88B191, .icvt 0 6 2 11 6 2 1), (0x4FA8B191, .fcvti 0 6 2 11 6 2 1), (0x5180B18D, .pack 0 6 11 6 1 1 1),
  (0x5184B189, .unpk 0 6 11 6 1 0 1), (0x5380B180, .frcp 0 6 11 6), (0x5384B180, .frsq 0 6 11 6), (0x5388B180, .fsqrt 0 6 11 6),
  (0x538CB180, .fexp2 0 6 11 6), (0x5390B180, .flog2 0 6 11 6), (0x5394B180, .fsin 0 6 11 6), (0x5398B180, .fcos 0 6 11 6),
  (0x5580B189, .perm 0 6 11 6 9), (0x5584B189, .shfl 0 6 11 6 9), (0x5588B181, .lbcast 0 6 11 6 1)] : List (Nat × Instr)).all (fun e => decodeWord e.1 == some e.2) = true := by decide +kernel

/-- Each word of the engine majors decodes to its instruction. -/
theorem test_decode_engine : ([
  (0x61800189, .tidset 0 6 6 9), (0x6184B180, .tidget 0 6 11 6), (0x63800180, .wload 0 6 6), (0x63840180, .wloadsp 0 6 6),
  (0x63880000, .wswap 0 6), (0x65800180, .mstream 0 6 6), (0x67800180, .mdrain 0 6 6), (0x67842180, .episet 0 6 2 6),
  (0x69800003, .accz 0 6 3), (0x6984B181, .accrd 0 6 11 6 1), (0x6988B181, .accwr 0 6 11 6 1), (0x6B80B182, .spcmp 0 6 11 6 2),
  (0x6D803181, .kick 0 6 3 6 1), (0x6D84B140, .qstat 0 6 11 5), (0x6D8800C0, .evset 0 6 3), (0x6D8C00C0, .evclr 0 6 3),
  (0x6F80B189, .fetch 0 6 11 6 9)] : List (Nat × Instr)).all (fun e => decodeWord e.1 == some e.2) = true := by decide +kernel

/-- Each word of the world majors decodes to its instruction. -/
theorem test_decode_world : ([
  (0x7180B181, .eref 0 6 11 6 1), (0x7184B189, .ecol 0 6 11 6 9), (0x7188B189, .espan 0 6 11 6 9), (0x7380B189, .enew 0 6 11 6 9),
  (0x73840180, .edel 0 6 6), (0x7388B189, .eadd 0 6 11 6 9), (0x738C0189, .erem 0 6 6 9), (0x7580B180, .vopen 0 6 11 6),
  (0x75840180, .vclose 0 6 6), (0x77800180, .beamq 0 6 6), (0x77840180, .rayq 0 6 6), (0x79800180, .spawn 0 6 6),
  (0x79841180, .join 0 6 1 6), (0x79880000, .tdone 0 6), (0x798C0189, .lqpub 0 6 6 9), (0x7B800003, .trap 0 6 3),
  (0x7B840003, .bkpt 0 6 3), (0x7B880180, .resumeReplay 0 6 6), (0x7B880181, .resumeSkip 0 6 6), (0x7B880182, .resumeEnd 0 6 6)] : List (Nat × Instr)).all (fun e => decodeWord e.1 == some e.2) = true := by decide +kernel

/-- Each word of the prefix majors decodes to its instruction. -/
theorem test_decode_prefix : ([
  (0x7C000001, .extWord 1), (0x7E000685, .repWord 1 2 2 5)] : List (Nat × Instr)).all (fun e => decodeWord e.1 == some e.2) = true := by decide +kernel

/-! ### Well-formedness: each check refuses an ill-formed term (10 R226, 05 R98, 06 R119) -/

theorem test_wf_zero_word : (Instr.add 0 0 0 0 0 0).wf = false ∧ decodeWord 0 = none := by decide +kernel
theorem test_wf_order : (Instr.ldg 0 7 3 6 1 2 0).wf = false ∧ (Instr.ldg 0 7 3 5 1 2 0).wf = true := by decide +kernel
theorem test_wf_fence : (Instr.fence 0 7 0).wf = false ∧ (Instr.fence 0 7 6).wf = false := by decide +kernel
theorem test_wf_float_size : (Instr.atomfAdd 0 7 0 0 1 2 0 0).wf = false ∧ (Instr.redFadd 0 7 3 0 1 2 0 0).wf = false := by decide +kernel
theorem test_wf_mask : (Instr.mjoin 0 7 12).wf = false ∧ (Instr.mset 0 7 12 1).wf = false := by decide +kernel
theorem test_wf_system_value : (Instr.gets 0 7 1 6).wf = false ∧ (Instr.gets 0 7 1 33).wf = false := by decide +kernel
theorem test_wf_scope : (Instr.cbinit 0 7 5 1 2).wf = false ∧ (Instr.join 0 7 5 1).wf = false := by decide +kernel
theorem test_wf_arithmetic_format : (Instr.fadd 0 3 7 0 1 2 3).wf = false := by decide +kernel
theorem test_wf_float_code : (Instr.fcvt 0 7 7 0 1 2 0 0).wf = false ∧ (Instr.icvt 0 7 7 1 2 0 0).wf = false := by decide +kernel
theorem test_wf_rounding : (Instr.fcvt 0 7 0 0 1 2 0 5).wf = false := by decide +kernel
theorem test_wf_pack : (Instr.pack 0 7 1 2 1 0 0).wf = false := by decide +kernel
theorem test_wf_step : (Instr.repWord 3 0 0 1).wf = false := by decide +kernel
theorem test_wf_spcmp : (Instr.spcmp 0 7 1 2 3).wf = false := by decide +kernel
/-- A word with a reserved field, and one of a reserved major, are no instructions. -/
theorem test_decode_reserved : decodeWord 0x1DC80001 = none ∧ decodeWord 0x3E000000 = none ∧ decodeWord 0x56000000 = none := by decide +kernel
/-- The table's word is laid out little-endian (00 R4). -/
theorem test_table_word : decodeTableWord 32 0x1DC80000 = some (.exit 0 7) := by decide +kernel


/-! ### The small state of the step tests and witnesses -/

/-- The state of either answer of an access, and of an engine. -/
def exState {α : Type} (m : M α) (s : State) : State :=
  match m s with
  | .ok _ t => t
  | .error _ t => t

/-- A page of 64 KiB at virtual 0 and physical 0x10000. -/
def exPage : TlbEntry := ⟨0, 1, 16, 0, 1, 0, true, true, true, false⟩

/-- A thread at address 0x100 with small values in x1 to x9. -/
def exLane (n : Nat) : Lane :=
  { st := .ready, pc := 0x100, preds := 0x05, regs := [(1, .ofNat 64 (n + 3)), (2, 5), (3, 0x100), (4, 0x2000), (5, .ofNat 64 (0x3000 + 8 * n)),
      (6, 0), (7, 0xFFFFFFFFFFFFFFF8), (8, 2), (9, 0x3FF0000000000000)] }

/-- A warp of two threads. -/
def exWarp : Warp :=
  { st := .ready, kind := .grid, ctx := 0, group := 0, serial := 1, lanes := [(0, exLane 0), (1, exLane 1)],
    masks := [(2, 3)], order := List.range 32, padSize := 4096 }

/-- A core with that warp and its work-group. -/
def exCore : Core :=
  { holder := 1, tlb := [exPage], warps := [(0, exWarp)],
    groups := [(0, { slots := [0], threads := 2, nbars := 4, padSize := 4096 })] }

/-- A machine whose core 0 issues a word for both threads. -/
def exS : State :=
  { cores := [(0, exCore)], ctxs := [(0, { in_ := true, busy := true })], parts := [(0, { en := true, sectors := 1 })],
    mgmt := { ready := true }, issue := { lanes := 3, gpc := 0x100, words := [0] } }

/-- The same with another warp. -/
def exWith (f : Warp → Warp) : State := modWarp exS 0 0 f

/-- The same with another core. -/
def exCoreWith (f : Core → Core) : State := modCore exS 0 f

/-- A word issues, as a test that computes. -/
def issuesB (i : Instr) (g : BitVec 3) (ls : List Nat) (s : State) : Bool :=
  actLanes s g == ls && !ls.isEmpty && badReg s i == none

theorem issues_of {i : Instr} {g : BitVec 3} {ls : List Nat} {s : State} (h : issuesB i g ls s = true) : Issues i g ls s := by
  simp only [issuesB, Bool.and_eq_true, beq_iff_eq, Bool.not_eq_true', List.isEmpty_eq_false_iff] at h
  exact ⟨h.1.1, h.1.2, h.2⟩

theorem issuesE_of {i : Instr} {g : BitVec 3} {ls : List Nat} {s : State}
    (h : (issuesB i g ls s && frontsEmpty s ls && !tidHeld s ls) = true) : IssuesE i g ls s := by
  simp only [Bool.and_eq_true, Bool.not_eq_true'] at h
  exact ⟨issues_of h.1.1, h.1.2, h.2⟩

/-- An access answers its value. -/
theorem ok_of {α : Type} [DecidableEq α] {m : M α} {s : State} {a : α}
    (h : (match m s with | .ok b _ => decide (b = a) | .error _ _ => false) = true) : m s = .ok a (exState m s) := by
  unfold exState
  cases hm : m s with
  | ok b t => simp only [hm, decide_eq_true_eq] at h; rw [h]
  | error e t => simp [hm] at h

/-- Every instruction of a list has a form and issues. -/
def formsB {F : Type} (form : Instr → Option F) (g : F → BitVec 3) (ls : List Nat) (s : State) (is : List Instr) : Bool :=
  is.all fun i => match form i with
    | some f => issuesB i (g f) ls s
    | none => false

theorem forms_of {F : Type} {form : Instr → Option F} {g : F → BitVec 3} {ls : List Nat} {s : State} {is : List Instr}
    (h : formsB form g ls s is = true) : ∀ i ∈ is, ∃ f, form i = some f ∧ Issues i (g f) ls s := by
  intro i hi
  have := List.all_eq_true.1 h i hi
  cases hf : form i with
  | none => simp [hf] at this
  | some f => exact ⟨f, rfl, issues_of (by simpa [hf] using this)⟩

/-- The outcome is a next state of which `p` holds. -/
def nextB (o : Host.Outcome State Fault Refusal) (p : State → Bool) : Bool :=
  match o with
  | .next t => p t
  | _ => false

theorem next_of {o : Host.Outcome State Fault Refusal} {p : State → Bool} (h : nextB o p = true) : ∃ t, o = .next t ∧ p t = true := by
  cases o with
  | next t => exact ⟨t, rfl, h⟩
  | fault f => simp [nextB] at h
  | refused r => simp [nextB] at h

/-- An access answers. -/
def okB {α : Type} (m : M α) (s : State) (p : α → Bool := fun _ => true) : Bool :=
  match m s with
  | .ok a _ => p a
  | .error _ _ => false

theorem ok_ex {α : Type} {m : M α} {s : State} {p : α → Bool} (h : okB m s p = true) : ∃ a t, m s = .ok a t ∧ p a = true := by
  unfold okB at h
  cases hm : m s with
  | ok a t => exact ⟨a, t, rfl, by simpa [hm] using h⟩
  | error e t => simp [hm] at h

/-- An access answers nothing but that it is done. -/
theorem done_of {m : M Unit} {s : State} (h : okB m s = true) : m s = .ok () (exState m s) := by
  unfold exState
  cases hm : m s with
  | ok a t => rfl
  | error e t => simp [okB, hm] at h

/-- The state with `n` bytes of a number at a virtual address. -/
def exPut (va n v : Nat) (s : State) : State := modSector s 0 fun k => { k with mem := memPuts k.mem (va + 0x10000) (leBytes n v) }

/-- A state with a world: the world table ends at the last virtual address with its entry 1, on a second page at physical 0x20000;
world 1 has 16 locators at 0x4000, the third that of a current entity of generation 1; the tensor table at 0x2000 holds, as its
entry 3, four FP32 numbers at 0x6000, the first of them 1.0; a query descriptor of world 1 stands at 0x7000; launch 0 is a
system of that world. -/
def exWorldS : State :=
  let s := exCoreWith fun k => { k with tlb := [exPage, ⟨0, 1, 16, 2 ^ 41 - 1, 2, 1, true, true, true, false⟩] }
  let s := modCtx s 0 fun c => { c with
    record := (2 ^ 57 - 256) * 2 ^ 192 + 0x2000 * 2 ^ 256, launches := [(0, { system := true, bound := true, world := 1 })] }
  let s := exPut 0x1FF80 128 (2 ^ 920 + 2 ^ 919 + 0x10000 * 2 ^ 704 + 16 * 2 ^ 697 + 10 * 2 ^ 633 + 0x8000 * 2 ^ 576 + 0x4000 * 2 ^ 384 + 16 * 2 ^ 288) s
  let s := exPut 0x4020 16 (2 ^ 104 + 5 * 2 ^ 56 + 2 * 2 ^ 54) s
  let s := exPut 0x20C0 64 (1 + 2 ^ 8 + 4 * 2 ^ 35 + 0x6000 * 2 ^ 227) s
  let s := exPut 0x6000 4 0x3F800000 s
  exPut 0x7000 1 1 s

/-- Two accesses answer one after the other. -/
theorem then_ex {m n : M Unit} {s : State} (h : (match m s with | .ok _ u => okB n u | .error _ _ => false) = true) :
    ∃ u v, m s = .ok () u ∧ n u = .ok () v := by
  cases hm : m s with
  | ok a u => exact ⟨u, _, rfl, done_of (by simpa [hm] using h)⟩
  | error e u => simp [hm] at h

/-- The state with `n` bytes of a number at a physical address. -/
def exPhys (pa n v : Nat) (s : State) : State := modSector s 0 fun k => { k with mem := memPuts k.mem pa (leBytes n v) }

/-- A sound context record: VALID, slice 1 ms, RCTIMEOUT 10 µs, HOME the first cluster. -/
def exRecord : Nat := 2 ^ 384 + 2 ^ 424 + 10 * 2 ^ 414 + 2 ^ 448

/-- The state with context 0's record and, for partition 0, stage-2 tables that map the first 2^30 addresses to themselves. -/
def exTabled : State :=
  let s := modCtx exS 0 fun c => { c with record := exRecord }
  let s := modPart s 0 fun p => { p with s2root := 0x100000, ctxtab := 0x50000 }
  let s := exPhys 0x100000 8 0x101001 s
  let s := exPhys 0x101000 8 0x102001 s
  let s := exPhys 0x102000 8 0x17 s
  exPhys 0x50000 128 exRecord s

/-- An engine's action is done. -/
def doneB {α : Type} (e : Engine α) (p : α → State → Bool := fun _ _ => true) : Bool :=
  match e with
  | .done a s => p a s
  | _ => false

theorem done_ex {α : Type} {e : Engine α} {p : α → State → Bool} (h : doneB e p = true) : ∃ a s, e = .done a s ∧ p a s = true := by
  cases e <;> simp_all [doneB]

/-! ### Witnesses: words that compute a register or a predicate -/

/-- IntegerArithmeticResult, the integer ALU: each member issues. -/
theorem witness_alu : ∀ i ∈ [Instr.add 0 0 7 9 1 2, .sub 0 3 0 9 1 2, .minS 0 1 7 9 1 7, .minZ 0 2 7 9 1 7, .maxS 0 0 7 0 1 2,
    .maxZ 0 0 7 9 1 2, .abs 0 3 7 9 7, .and 0 0 7 9 1 2, .or 0 0 7 9 1 2, .xor 0 0 7 9 1 2, .andn 0 0 7 9 1 2, .shl 0 0 7 9 1 2,
    .shr 0 1 7 9 1 2, .sra 0 2 7 9 7 2, .rot 0 3 7 9 1 0], ∃ F, aluForm i = some F ∧ Issues i F.g [0, 1] exS :=
  forms_of (g := XForm.g) (by decide +kernel)

/-- IntegerArithmeticResult, majors 0x04 and 0x05: each member issues, a division by zero among them. -/
theorem witness_mul : ∀ i ∈ [Instr.mul 0 0 7 9 1 2, .mulhS 0 1 7 9 1 7, .mulhZ 0 0 7 9 1 7, .mad 0 0 7 9 1 2, .divS 0 0 7 9 1 0,
    .divZ 0 1 7 9 1 2, .remS 0 0 7 9 7 2, .remZ 0 0 7 9 1 0, .clz 0 0 7 9 0, .popc 0 1 7 9 7, .brev 0 0 7 9 1, .bfx 0 0 7 9 7 2,
    .bfi 0 0 7 9 7 2], ∃ F, mulForm i = some F ∧ Issues i F.g [0, 1] exS :=
  forms_of (g := XForm.g) (by decide +kernel)

/-- ImmediateAndMoveResult, the immediate forms: each member issues after an EXT. -/
theorem witness_immediate : ∀ i ∈ [Instr.addi 0 7 15 9 1 63, .andi 0 7 3 9 1 2, .ori 0 7 3 9 1 2, .xori 0 7 3 9 1 2, .shli 0 7 9 1 63,
    .shri 0 7 9 7 63, .srai 0 7 9 7 0, .movi 0 7 15 9 63 63],
    ∃ F, immForm i = some F ∧ Issues i F.g [0, 1] { exS with issue := { exS.issue with ext := some 0x1FFFFFF } } :=
  forms_of (g := XForm.g) (by decide +kernel)

/-- ImmediateAndMoveResult, the moves into a register. -/
theorem witness_move : ∀ i ∈ [Instr.sel 0 7 9 1 2, .mov 0 7 9 1, .lea 0 7 9 7 1, .mget 0 7 9 2, .voteBallot 0 7 9 2],
    ∃ F, moveForm i = some F ∧ Issues i F.g [0, 1] exS :=
  forms_of (g := XForm.g) (by decide +kernel)

/-- PredicateAndVoteResult, compares and predicate operations, p7 as a destination too. -/
theorem witness_predicate : ∀ i ∈ [Instr.cmp 0 7 0 2 1 7 2, .cmpi 0 7 15 6 7 1 63, .pand 0 7 1 0 2, .por 0 7 1 0 2, .pxor 0 7 1 0 2, .pnot 0 7 7 0],
    ∃ F, predForm i = some F ∧ Issues i F.g [0, 1] exS :=
  forms_of (g := PForm.g) (by decide +kernel)

/-- PredicateAndVoteResult, votes. -/
theorem witness_vote : ∀ i ∈ [Instr.voteAll 0 7 1 2, .voteAny 0 7 1 1, .voteUni 0 7 1 2],
    ∃ F, voteForm i = some F ∧ Issues i F.g [0, 1] exS :=
  forms_of (g := PForm.g) (by decide +kernel)

/-- SystemValueResult: each number that the statement spells out, of a grid's warp and of a task's. -/
theorem witness_gets : (∀ a ∈ [(0 : BitVec 6), 1, 2, 4, 29, 30, 31, 32], Issues (.gets 0 7 9 a) 7 [0, 1] exS) ∧
    Issues (.gets 0 7 9 8) 7 [0, 1] (exWith fun w => { w with kind := .task }) ∧
    Issues (.gets 0 7 9 23) 7 [0, 1] (exWith fun w => { w with kind := .task }) :=
  ⟨fun a h => issues_of (List.all_eq_true.1 (by decide +kernel : [(0 : BitVec 6), 1, 2, 4, 29, 30, 31, 32].all
    (fun a => issuesB (.gets 0 7 9 a) 7 [0, 1] exS) = true) a h), issues_of (by decide +kernel), issues_of (by decide +kernel)⟩

/-- SeedAndIndexedRegisterMoves: PUTS SEED. -/
theorem witness_seed : Issues (.puts 0 7 1) 7 [0, 1] exS := issues_of (by decide +kernel)

/-- SeedAndIndexedRegisterMoves: IXGET and IXPUT with an index in range, 0 and 63 of 64 registers. -/
theorem witness_ixget : Issues (.ixget 0 7 9 0) 7 [0, 1] exS ∧ (∀ l ∈ [0, 1], (srcA exS 0 l).toNat % 1024 < (iWarp exS).regsN) ∧
    Issues (.ixput 0 7 1 2) 7 [0, 1] (exWith fun w => { w with regsN := 5 }) ∧
    ∀ l ∈ [0, 1], (srcA (exWith fun w => { w with regsN := 5 }) 1 l).toNat % 1024 < (iWarp (exWith fun w => { w with regsN := 5 })).regsN :=
  ⟨issues_of (by decide +kernel), by decide +kernel, issues_of (by decide +kernel), by decide +kernel⟩

/-- SeedAndIndexedRegisterMoves: an index of REGS in thread 1, the index of thread 0 in range. -/
theorem witness_ixget_range : Issues (.ixget 0 7 3 1) 7 [0, 1] (exWith fun w => { w with regsN := 4 }) ∧
    (iWarp (exWith fun w => { w with regsN := 4 })).regsN ≤ (srcA (exWith fun w => { w with regsN := 4 }) 1 1).toNat % 1024 ∧
    ∀ k ∈ [0, 1], k < 1 → (srcA (exWith fun w => { w with regsN := 4 }) 1 k).toNat % 1024 < (iWarp (exWith fun w => { w with regsN := 4 })).regsN :=
  ⟨issues_of (by decide +kernel), by decide +kernel, by decide +kernel⟩

/-- The same for IXPUT. -/
theorem witness_ixput_range : Issues (.ixput 0 7 1 2) 7 [0, 1] (exWith fun w => { w with regsN := 4 }) := issues_of (by decide +kernel)

/-! ### Witnesses: the step -/

/-- Reset with a program of one NOP. -/
def exFetch : State := State.reset.withFetchWord 32 0x1DCC0000

/-- The state in which the word that `exFetch` fetches acts. -/
def exFetched : State :=
  exState (groupWords (iWho (bundleStart exFetch 0 0 0) 1) (bundleStart exFetch 0 0 0).issue.gpc) (bundleStart exFetch 0 0 0)

/-- StepRunsDecodedWord: a NOP is fetched, decodes, acts and goes on. -/
theorem witness_fetches : Fetches exFetch 0 0 0 0x1DCC0000 (.nop 0 7) exFetched ∧
    ∃ t, exec (.nop 0 7) (acting exFetched 0x1DCC0000) = .next t ∧ (!t.issue.stall && !t.issue.fault) = true :=
  ⟨⟨by decide +kernel, by decide +kernel, by decide +kernel, by decide +kernel, by decide +kernel, ok_of (by decide +kernel),
    by decide +kernel, by decide +kernel, by decide +kernel, by decide +kernel, by decide +kernel⟩, next_of (p := fun t => !t.issue.stall && !t.issue.fault) (by decide +kernel)⟩

/-- StepRunsPlannedEvent: a planned event while ON and while OFF, OFF with nothing planned, OFF with another plan. -/
theorem witness_planned :
    ({ State.reset with agenda := [.event .powerOff] }.on = true) ∧ Instr.powerOff.isWord = false ∧
    { State.reset with on := false, agenda := [.event .powerOn] }.agenda = .event .powerOn :: [] ∧
    ({ State.reset with on := false }.on = false ∧ { State.reset with on := false }.agenda = []) ∧
    (Plan.slot 0 0 ≠ .event .powerOn ∧ Plan.slot 0 0 ≠ .event .powerOff) := by decide

/-! ### Witnesses: control, masks, prefixes -/

/-- DecodeEncodeAgree and EncodeDecodeAgree: a well-formed word and its encoding. -/
theorem witness_encoding : (Instr.add 1 0 7 8 8 9).wf = true ∧ (Instr.add 1 0 7 8 8 9).isWord = true ∧
    decodeWord 0x81C08209 = some (.add 1 0 7 8 8 9) := by decide +kernel

/-- WordsThatDoNotAct: a guard that no thread satisfies; a register of REGS, which is 5 here. -/
theorem witness_not_acting :
    (Instr.isWord (.add 0 0 1 9 1 2) = true ∧ majorOf (.add 0 0 1 9 1 2) < 0x3E ∧
      actLanes exS (.ofNat 3 (guardOf (.add 0 0 1 9 1 2))) = [] ∧ badReg exS (.add 0 0 1 9 1 2) = none) ∧
    Instr.isWord (.add 0 0 1 5 1 2) = true ∧ majorOf (.add 0 0 1 5 1 2) < 0x3E ∧ majorOf (.add 0 0 1 5 1 2) ≠ 0x0C ∧
    majorOf (.add 0 0 1 5 1 2) ≠ 0x0D ∧ majorOf (.add 0 0 1 5 1 2) ≠ 0x0E ∧
    badReg (exWith fun w => { w with regsN := 5 }) (.add 0 0 1 5 1 2) = some 5 := by decide +kernel

/-- TransfersGoToTheirTargets: BRA forward and CALL back to 0, BRX and RET to x3. -/
theorem witness_transfers : (Issues (.bra 0 7 5) 7 [0, 1] exS ∧ goodTarget exS (targetOf exS 5)) ∧
    (Issues (.call 0 7 0x3FFFC0) 7 [0, 1] exS ∧ goodTarget exS (targetOf exS 0x3FFFC0)) ∧
    (Issues (.brx 0 7 3) 7 [0, 1] exS ∧ Issues (.ret 0 7 3) 7 [0, 1] exS ∧ ∀ l ∈ [0, 1], goodTarget exS (srcA exS 3 l).toNat) :=
  ⟨⟨issues_of (by decide +kernel), by decide +kernel⟩, ⟨issues_of (by decide +kernel), by decide +kernel⟩,
    issues_of (by decide +kernel), issues_of (by decide +kernel), by decide +kernel⟩

/-- BadTargetsRaiseBranchTarget: a target below 0; a register whose value is no multiple of 4, in thread 1 after thread 0's. -/
theorem witness_bad_targets : (actLanes exS 7 = [0, 1] ∧ ¬goodTarget exS (targetOf exS 0x3FFFBF)) ∧
    (¬goodTarget exS (srcA exS 7 0).toNat ∧ ∀ k ∈ [0, 1], k < 0 → goodTarget exS (srcA exS 7 k).toNat) ∧
    let s := exWith fun w => setLane w 1 { laneOf w 1 with regs := [(3, 0x102)] }
    actLanes s 7 = [0, 1] ∧ ¬goodTarget s (srcA s 3 1).toNat ∧ ∀ k ∈ [0, 1], k < 1 → goodTarget s (srcA s 3 k).toNat := by
  decide +kernel

/-- NopYieldPrefKeepTheState. -/
theorem witness_nop : Issues (.nop 0 7) 7 [0, 1] exS ∧ Issues (.pref 0 7 4 6) 7 [0, 1] exS ∧ Issues (.yield 0 7) 7 [0, 1] exS :=
  ⟨issues_of (by decide +kernel), issues_of (by decide +kernel), issues_of (by decide +kernel)⟩

/-- ExitEndsItsThreads: one thread of two exits, a barrier with an EXPECT set. -/
theorem witness_exit : ∃ s, Issues (.exit 0 2) 2 [1] s ∧ (∀ l, (laneOf (iWarp s) l).park.kind ≠ 5) ∧
    (∀ e ∈ (groupOf s s.issue.core (iWarp s).group).bars, e.2.set = true → e.2.expect ≠ 0) ∧
    mwf {} (groupOf s s.issue.core (iWarp s).group).bars = true := by
  refine ⟨exCoreWith fun k => { k with
    warps := [(0, { exWarp with lanes := [(0, { exLane 0 with preds := 1 }), (1, exLane 1)] })]
    groups := [(0, { slots := [0], threads := 2, nbars := 4, bars := [(1, { set := true, expect := 2, count := 1 })] })] },
    issues_of (by decide +kernel), ?_, by decide +kernel, by decide +kernel⟩
  intro l
  change (mget {} [(0, { exLane 0 with preds := 1 }), (1, exLane 1)] l).park.kind ≠ 5
  simp only [mget]
  split_ifs <;> decide

/-- MaskWordsWriteTheMask: MJOIN; MLEAVE that leaves a member who does not wait, and one that empties the mask; MSET. -/
theorem witness_masks : Issues (.mjoin 0 7 11) 7 [0, 1] exS ∧
    (Issues (.mleave 0 7 2) 7 [0, 1] exS ∧ nobodyReleased exS 2 (mget 0 (iWarp exS).masks 2 &&& ~~~maskOf [0, 1])) ∧
    (Issues (.mleave 0 7 2) 7 [0] { exS with issue := { exS.issue with lanes := 1 } } ∧
      nobodyReleased { exS with issue := { exS.issue with lanes := 1 } } 2 (mget 0 (iWarp exS).masks 2 &&& ~~~maskOf [0])) ∧
    Issues (.mset 0 7 0 7) 7 [0, 1] exS ∧
    ∀ i < 32, (laneOf (iWarp exS) i).park.kind ≠ 5 ∨ (laneOf (iWarp exS) i).st ≠ .parked :=
  ⟨issues_of (by decide +kernel), ⟨issues_of (by decide +kernel), Or.inl (by decide +kernel)⟩,
    ⟨issues_of (by decide +kernel), Or.inr (by decide +kernel)⟩, issues_of (by decide +kernel), by decide +kernel⟩

/-- MwaitParksMembers: thread 0 waits while thread 1 does not; and a mask without a member. -/
theorem witness_mwait : ∃ s, Issues (.mwait 0 7 2) 7 [0] s ∧ (∀ l ∈ [0], (mget 0 (iWarp s).masks (2 : BitVec 6).toNat).getLsbD l = true) ∧
    (∃ l ∈ lanesOf (mget 0 (iWarp s).masks (2 : BitVec 6).toNat), l ∉ [0] ∧ waitsOn (2 : BitVec 6).toNat (laneOf (iWarp s) l) = false) ∧
    Issues (.mwait 0 7 3) 7 [0] s ∧ (mget 0 (iWarp s).masks (3 : BitVec 6).toNat).getLsbD 0 = false :=
  ⟨{ exS with issue := { exS.issue with lanes := 1 } }, issues_of (by decide +kernel), by decide +kernel, by decide +kernel,
    issues_of (by decide +kernel), by decide +kernel⟩

/-- MwaitReleasesAllMembers: thread 0 comes last. -/
theorem witness_mwait_release : ∃ s, Issues (.mwait 0 7 2) 7 [0] s ∧
    (∀ l ∈ [0], (mget 0 (iWarp s).masks (2 : BitVec 6).toNat).getLsbD l = true ∧ ∀ e ∈ (laneOf (iWarp s) l).front, e.kind ≠ .fence) ∧
    (∀ l ∈ lanesOf (mget 0 (iWarp s).masks (2 : BitVec 6).toNat), l ∉ [0] → waitsOn (2 : BitVec 6).toNat (laneOf (iWarp s) l) = true ∧
      (laneOf (iWarp s) l).pc = s.issue.gpc ∧ (laneOf (iWarp s) l).park.words = s.issue.words.length) :=
  ⟨{ exWith (fun w => setLane w 1 { laneOf w 1 with st := .parked, park := { kind := 5, op := 2, words := 1 } }) with
      issue := { exS.issue with lanes := 1 } }, issues_of (by decide +kernel), by decide +kernel, by decide +kernel⟩

/-- PrefixesSteerTheNextWord: the last of two steps of a REP. -/
theorem witness_rep : ∃ s : State, (1 : Nat) = (if (iLane s ((lanesOf s.issue.lanes).headD 0)).rep = 0 then 0
    else (1 : BitVec 6).toNat + 1 - (iLane s ((lanesOf s.issue.lanes).headD 0)).rep) :=
  ⟨exWith fun w => setLane w 0 { laneOf w 0 with rep := 1 }, by decide +kernel⟩

/-- 02 R33, 11 R247: a warp that has yielded comes after the other warps of its scheduler, also when it is the oldest; alone, it is
taken again. -/
theorem test_yield_comes_last :
    offerOrder { warps := [(0, { st := .ready, age := 0 }), (1, { st := .ready, age := 1 })], cur := [(0, 65)] } 0 = [1, 0] ∧
    offerOrder { warps := [(0, { st := .ready, age := 0 })], cur := [(0, 65)] } 0 = [0] := by decide

/-! ### Witnesses: memory accesses -/

/-- Nothing holds an access back: the thread's address is legal, no sink's, and translates. -/
def reachesB (F : GForm) (pa : Nat → Nat) (s : State) (l : Nat) : Bool :=
  decide ((F.addr s l).toNat < 2 ^ 57) && (F.addr s l).toNat % F.size == 0 && sinkWorld s (iWho s) (F.addr s l).toNat == none &&
    match translate (iWho s) (F.addr s l) F.kind s with
    | .ok p t => decide (p = pa l ∧ t = s)
    | .error _ _ => false

theorem reaches_of {F : GForm} {pa : Nat → Nat} {s : State} {l : Nat} (h : reachesB F pa s l = true) :
    (F.addr s l).toNat < 2 ^ 57 ∧ (F.addr s l).toNat % F.size = 0 ∧ sinkWorld s (iWho s) (F.addr s l).toNat = none ∧
      translate (iWho s) (F.addr s l) F.kind s = .ok (pa l) s := by
  simp only [reachesB, Bool.and_eq_true, decide_eq_true_eq, beq_iff_eq] at h
  obtain ⟨⟨⟨h1, h2⟩, h3⟩, h4⟩ := h
  refine ⟨h1, h2, h3, ?_⟩
  cases ht : translate (iWho s) (F.addr s l) F.kind s with
  | ok p t => simp only [ht, decide_eq_true_eq] at h4; rw [h4.1, h4.2]
  | error e t => simp [ht] at h4

/-- GlobalAccessesEnterTheFront: a load, a store and every atomic, each thread's address its x5. -/
theorem witness_global : ∀ i ∈ [Instr.ldg 0 7 3 0 9 5 31, .stg 0 7 0 5 9 5 0, .atomAdd 0 7 1 0 9 5 0 0, .atomMinS 0 7 0 0 9 5 0 0,
    .atomMaxS 0 7 0 0 9 5 1 0, .atomAnd 0 7 0 0 0 5 0 0, .atomOr 0 7 0 4 9 5 0 0, .atomXor 0 7 0 0 9 5 0 0, .atomExch 0 7 0 0 9 5 0 0,
    .atomInc 0 7 0 0 9 5 0 0, .atomfAdd 0 7 2 0 9 5 0 0, .cas 0 7 0 0 9 5 0, .nibins 0 7 0 9 5 1 0, .redAdd 0 7 0 0 9 5 0 0,
    .redMinS 0 7 0 0 9 5 0 0, .redMaxS 0 7 0 0 9 5 0 0, .redAnd 0 7 0 0 9 5 0 0, .redOr 0 7 0 0 9 5 0 0, .redXor 0 7 0 0 9 5 0 0,
    .redFadd 0 7 2 0 9 5 0 0, .redInc 0 7 0 0 9 5 0 0], ∃ F, globalForm i = some F ∧ Issues i F.g [0, 1] exS ∧
    ∃ pa : Nat → Nat, ∀ l ∈ [0, 1], (F.addr exS l).toNat < 2 ^ 57 ∧ (F.addr exS l).toNat % F.size = 0 ∧
      sinkWorld exS (iWho exS) (F.addr exS l).toNat = none ∧ translate (iWho exS) (F.addr exS l) F.kind exS = .ok (pa l) exS := by
  intro i hi
  have h := List.all_eq_true.1 (by decide +kernel : [Instr.ldg 0 7 3 0 9 5 31, .stg 0 7 0 5 9 5 0, .atomAdd 0 7 1 0 9 5 0 0, .atomMinS 0 7 0 0 9 5 0 0,
    .atomMaxS 0 7 0 0 9 5 1 0, .atomAnd 0 7 0 0 0 5 0 0, .atomOr 0 7 0 4 9 5 0 0, .atomXor 0 7 0 0 9 5 0 0, .atomExch 0 7 0 0 9 5 0 0,
    .atomInc 0 7 0 0 9 5 0 0, .atomfAdd 0 7 2 0 9 5 0 0, .cas 0 7 0 0 9 5 0, .nibins 0 7 0 9 5 1 0, .redAdd 0 7 0 0 9 5 0 0,
    .redMinS 0 7 0 0 9 5 0 0, .redMaxS 0 7 0 0 9 5 0 0, .redAnd 0 7 0 0 9 5 0 0, .redOr 0 7 0 0 9 5 0 0, .redXor 0 7 0 0 9 5 0 0,
    .redFadd 0 7 2 0 9 5 0 0, .redInc 0 7 0 0 9 5 0 0].all (fun i => match globalForm i with
      | some F => issuesB i F.g [0, 1] exS && [0, 1].all (reachesB F (fun l => (F.addr exS l).toNat + 0x10000) exS)
      | none => false) = true) i hi
  cases hf : globalForm i with
  | none => simp [hf] at h
  | some F =>
    simp only [hf, Bool.and_eq_true, List.all_eq_true] at h
    exact ⟨F, rfl, issues_of h.1, _, fun l hl => reaches_of (h.2 l hl)⟩

/-- BadAddressesFault, global: bit 57 set in the second thread, the first one's address legal; and the lowest misaligned thread. -/
theorem witness_bad_global : ∃ F, globalForm (.ldg 0 7 3 0 9 1 0) = some F ∧
    (let s := exWith fun w => { w with lanes := [(0, { exLane 0 with regs := [(1, 8)] }), (1, { exLane 1 with regs := [(1, 0x200000000000000)] })] };
      Issues (.ldg 0 7 3 0 9 1 0) F.g [0, 1] s ∧
      (∀ k ∈ [0, 1], k < 1 → (F.addr s k).toNat < 2 ^ 57 ∧ (F.addr s k).toNat % F.size = 0) ∧ 2 ^ 57 ≤ (F.addr s 1).toNat) ∧
    Issues (.ldg 0 7 3 0 9 1 0) F.g [0, 1] exS ∧ (F.addr exS 0).toNat < 2 ^ 57 ∧ (F.addr exS 0).toNat % F.size ≠ 0 :=
  ⟨_, rfl, ⟨issues_of (by decide +kernel), by decide +kernel, by decide +kernel⟩, issues_of (by decide +kernel),
    by decide +kernel, by decide +kernel⟩

/-- BadAddressesFault, scratchpad: misaligned; and one byte past the window, in the second thread. -/
theorem witness_bad_pad : ∃ F G, padForm (.sts 0 7 1 0 9 1 0) = some F ∧ padForm (.lds 0 7 0 0 9 2 0) = some G ∧
    (Issues (.sts 0 7 1 0 9 1 0) F.g [0, 1] exS ∧ (F.off exS 0).toNat % F.size ≠ 0) ∧
    let s := exWith fun w => { w with padSize := 8, lanes := [(0, { exLane 0 with regs := [(2, 7)] }), (1, { exLane 1 with regs := [(2, 8)] })] }
    Issues (.lds 0 7 0 0 9 2 0) G.g [0, 1] s ∧ (∀ k ∈ [0, 1], k < 1 → InWindow G s k) ∧ (G.off s 1).toNat % G.size = 0 ∧
      (iWarp s).padSize < (G.off s 1).toNat + G.size :=
  ⟨_, _, rfl, rfl, ⟨issues_of (by decide +kernel), by decide +kernel⟩, issues_of (by decide +kernel),
    ⟨by unfold InWindow; decide +kernel, by decide +kernel, by decide +kernel⟩⟩

/-- A scratchpad word is ready, as a test that computes. -/
def padReadyB (F : SForm) (ord : Nat) (ls : List Nat) (s : State) : Bool :=
  ls.all (fun l => (F.off s l).toNat % F.size == 0 && decide ((F.off s l).toNat + F.size ≤ (iWarp s).padSize) &&
    !rangeHeld s s.issue.core ((iWarp s).padBase + (F.off s l).toNat) F.size &&
    (iLane s l).front.all fun e => !holdsLater (sectorOf s (secOf s.issue.core)).a e) &&
  (ord == 0 || (frontsEmpty s ls && s.sent.isEmpty)) && (coreOf s s.issue.core).padBad.isEmpty

theorem padReady_of {F : SForm} {ord : Nat} {ls : List Nat} {s : State} (h : padReadyB F ord ls s = true) : PadReady F ord ls s := by
  simp only [padReadyB, Bool.and_eq_true, List.all_eq_true, beq_iff_eq, decide_eq_true_eq, Bool.not_eq_true', Bool.or_eq_true,
    List.isEmpty_iff] at h
  obtain ⟨⟨h1, h2⟩, h3⟩ := h
  refine ⟨fun l hl => (h1 l hl).1.1, fun l hl => (h1 l hl).1.2, fun l hl => (h1 l hl).2, ?_, h3⟩
  rcases h2 with h2 | h2
  · exact Or.inl h2
  · exact Or.inr ⟨h2.1, fun _ r hr => by simp [h2.2] at hr⟩

/-- ScratchpadLoadsAndStores: the last bytes of the window; a release store at .fabric. -/
theorem witness_pad : ∃ F G, padForm (.lds 0 7 3 0 9 7 31) = some F ∧ padForm (.sts 0 7 0 5 9 1 0) = some G ∧
    (let s := exWith fun w => { w with padSize := 248 };
      Issues (.lds 0 7 3 0 9 7 31) F.g [0, 1] s ∧ PadReady F 0 [0, 1] s) ∧
    Issues (.sts 0 7 0 5 9 1 0) G.g [0, 1] exS ∧ PadReady G 5 [0, 1] exS :=
  ⟨_, _, rfl, rfl, ⟨issues_of (by decide +kernel), padReady_of (by decide +kernel)⟩, issues_of (by decide +kernel),
    padReady_of (by decide +kernel)⟩

/-- ScratchpadAtomicsActInLaneOrder: every atomic of the scratchpad, both threads at one location. -/
theorem witness_pad_atomics : ∀ i ∈ [Instr.atomAdd 0 7 1 0 9 4 0 1, .atomMinS 0 7 0 0 9 8 0 1, .atomMaxS 0 7 0 0 9 6 1 1,
    .atomAnd 0 7 0 0 0 6 0 1, .atomOr 0 7 0 4 9 6 0 1, .atomXor 0 7 0 0 9 6 0 1, .atomExch 0 7 0 0 9 6 0 1, .atomInc 0 7 0 0 9 6 0 1,
    .atomfAdd 0 7 2 0 9 6 0 1, .cas 0 7 0 0 9 6 1, .nibins 0 7 0 9 6 1 1, .redAdd 0 7 0 0 9 6 0 1, .redMinS 0 7 0 0 9 6 0 1,
    .redMaxS 0 7 0 0 9 6 0 1, .redAnd 0 7 0 0 9 6 0 1, .redOr 0 7 0 0 9 6 0 1, .redXor 0 7 0 0 9 6 0 1, .redFadd 0 7 2 0 9 6 0 1,
    .redInc 0 7 0 0 9 6 0 1], ∃ F, padAtom i = some F ∧
      Issues i F.g [0, 1] (exWith fun w => { w with lanes := [(0, { exLane 0 with regs := [] }), (1, { exLane 1 with regs := [] })] }) ∧
      PadReady F.toSForm F.ord [0, 1] (exWith fun w => { w with lanes := [(0, { exLane 0 with regs := [] }), (1, { exLane 1 with regs := [] })] }) := by
  intro i hi
  have h := List.all_eq_true.1 (by decide +kernel : [Instr.atomAdd 0 7 1 0 9 4 0 1, .atomMinS 0 7 0 0 9 8 0 1, .atomMaxS 0 7 0 0 9 6 1 1,
    .atomAnd 0 7 0 0 0 6 0 1, .atomOr 0 7 0 4 9 6 0 1, .atomXor 0 7 0 0 9 6 0 1, .atomExch 0 7 0 0 9 6 0 1, .atomInc 0 7 0 0 9 6 0 1,
    .atomfAdd 0 7 2 0 9 6 0 1, .cas 0 7 0 0 9 6 1, .nibins 0 7 0 9 6 1 1, .redAdd 0 7 0 0 9 6 0 1, .redMinS 0 7 0 0 9 6 0 1,
    .redMaxS 0 7 0 0 9 6 0 1, .redAnd 0 7 0 0 9 6 0 1, .redOr 0 7 0 0 9 6 0 1, .redXor 0 7 0 0 9 6 0 1, .redFadd 0 7 2 0 9 6 0 1,
    .redInc 0 7 0 0 9 6 0 1].all (fun i => match padAtom i with
      | some F =>
        let s := exWith fun w => { w with lanes := [(0, { exLane 0 with regs := [] }), (1, { exLane 1 with regs := [] })] }
        issuesB i F.g [0, 1] s && padReadyB F.toSForm F.ord [0, 1] s
      | none => false) = true) i hi
  cases hf : padAtom i with
  | none => simp [hf] at h
  | some F =>
    simp only [hf, Bool.and_eq_true] at h
    exact ⟨F, rfl, issues_of h.1, padReady_of h.2⟩

/-- AtomicOperationsCompute: the least and the greatest old value of a byte. -/
theorem witness_atomic_values : (1 ∈ [1, 2, 4, 8] ∧ (0 : Nat) < 2 ^ (8 * 1)) ∧ (1 ∈ [1, 2, 4, 8] ∧ (255 : Nat) < 2 ^ (8 * 1)) := by decide

/-- A thread's wait may be looked at, as a test that computes. -/
def looksB (i : Instr) (s : State) (l n pa v : Nat) (va : Word) : Bool :=
  decide (va.toNat < 2 ^ 57) && va.toNat % n == 0 && sinkWorld s (iWho s) va.toNat == none &&
  (match translate (iWho s) va 0 s with
    | .ok p t => decide (p = pa ∧ t = s)
    | .error _ _ => false) &&
  decide ((laneOf (iWarp s) l).front = [] ∧ s.issue.pre = none) &&
  (match vread (iWho s) va.toNat n (standing s l (waitEntry s i l pa)) with
    | .ok b t => decide (b = leBytes n v ∧ t = standing s l (waitEntry s i l pa))
    | .error _ _ => false) && decide (v < 2 ^ (8 * n))

theorem looks_of {i : Instr} {s : State} {l n pa v : Nat} {va : Word} (h : looksB i s l n pa v va = true) : Looks i s l n pa v va := by
  simp only [looksB, Bool.and_eq_true, decide_eq_true_eq, beq_iff_eq] at h
  obtain ⟨⟨⟨⟨⟨⟨h1, h2⟩, h3⟩, h4⟩, h5⟩, h6⟩, h7⟩ := h
  refine ⟨⟨h1, h2⟩, h3, ?_, h5, ?_, h7⟩
  · cases ht : translate (iWho s) va 0 s with
    | ok p t => simp only [ht, decide_eq_true_eq] at h4; rw [h4.1, h4.2]
    | error e t => simp [ht] at h4
  · cases ht : vread (iWho s) va.toNat n (standing s l (waitEntry s i l pa)) with
    | ok p t => simp only [ht, decide_eq_true_eq] at h6; rw [h6.1, h6.2]
    | error e t => simp [ht] at h6

/-- The state with one thread issuing, memory holding 5 at virtual 0x3000. -/
def exOne : State :=
  { exS with issue := { exS.issue with lanes := 1 }, sectors := [(0, { mem := [(0x13000, 5)] })] }

/-- WaitsLookBeforeTheyPark, WAITV: of a word that holds 5, for 0x3008 (unequal: satisfied, and equal: parks) . -/
theorem witness_waitv : Issues (.waitv 0 7 1 0 9 5 1) 7 [0] exOne ∧ Looks (.waitv 0 7 1 0 9 5 1) exOne 0 2 0x13000 5 (srcA exOne 5 0) ∧
    condTrue 1 16 5 ((getX (iLane exOne 0) (rA exOne (5 : BitVec 6) + 1)).toNat % 2 ^ 16) ∧
    Looks (.waitv 0 7 1 0 9 5 0) exOne 0 2 0x13000 5 (srcA exOne 5 0) ∧
    ¬condTrue 0 16 5 ((getX (iLane exOne 0) (rA exOne (5 : BitVec 6) + 1)).toNat % 2 ^ 16) :=
  ⟨issues_of (by decide +kernel), looks_of (by decide +kernel),
    (by decide +kernel : (5 : Nat) ≠ (getX (iLane exOne 0) (rA exOne (5 : BitVec 6) + 1)).toNat % 2 ^ 16), looks_of (by decide +kernel),
    (by decide +kernel : ¬(5 : Nat) = (getX (iLane exOne 0) (rA exOne (5 : BitVec 6) + 1)).toNat % 2 ^ 16)⟩

/-- WaitsLookBeforeTheyPark, JOIN: a counter of 5, and of 0 at virtual 0x2000; address 0. -/
theorem witness_join : (IssuesE (.join 0 7 0 5) 7 [0] exOne ∧ srcA exOne 5 0 ≠ 0 ∧
      Looks (.join 0 7 0 5) (posted exOne [0]) 0 8 0x13000 5 (srcA exOne 5 0)) ∧
    (IssuesE (.join 0 7 3 4) 7 [0] exOne ∧ srcA exOne 4 0 ≠ 0 ∧ Looks (.join 0 7 3 4) (posted exOne [0]) 0 8 0x12000 0 (srcA exOne 4 0)) ∧
    IssuesE (.join 0 7 0 6) 7 [0, 1] exS ∧ ∀ l ∈ [0, 1], srcA exS 6 l = 0 :=
  ⟨⟨issuesE_of (by decide +kernel), by decide +kernel, looks_of (by decide +kernel)⟩,
    ⟨issuesE_of (by decide +kernel), by decide +kernel, looks_of (by decide +kernel)⟩, issuesE_of (by decide +kernel), by decide +kernel⟩

/-- FencesEnterTheFront. -/
theorem witness_fences : Issues (.fence 0 7 5) 7 [0, 1] exS ∧ Issues (.fenceEng 0 7) 7 [0, 1] exS :=
  ⟨issues_of (by decide +kernel), issues_of (by decide +kernel)⟩

/-! ### Witnesses: barriers, completion objects, FLUSHL -/

/-- An arrival is legal, as a test that computes. -/
def arrivesB (i : Instr) (F : BForm) (c : Nat) (ls : List Nat) (s : State) : Bool :=
  issuesB i F.g ls s && frontsEmpty s ls && decide ((iWarp s).kind = .grid) && decide (F.n.toNat < (myGroup s).nbars) &&
  ls.all (fun l => (srcD s F.d l).toNat % 4096 == c) && decide (F.n = 0 → c = 0) && decide (c ≤ (myGroup s).threads) &&
  decide ((myBar s F.n).set = true → c = (myBar s F.n).expect)

theorem arrives_of {i : Instr} {F : BForm} {c : Nat} {ls : List Nat} {s : State} (h : arrivesB i F c ls s = true) : Arrives i F c ls s := by
  simp only [arrivesB, Bool.and_eq_true, decide_eq_true_eq, List.all_eq_true, beq_iff_eq] at h
  obtain ⟨⟨⟨⟨⟨⟨⟨h1, h2⟩, h3⟩, h4⟩, h5⟩, h6⟩, h7⟩, h8⟩ := h
  exact ⟨issues_of h1, h2, h3, h4, h5, h6, h7, h8⟩

/-- One of two threads issues, the other at a guard of its own. -/
def exHalf : State := { exS with issue := { exS.issue with lanes := 1 } }

/-- BarrierArrivals: one thread of two by ARRIVE, SYNC and SYNC.eng, the count of live threads or of 2. -/
theorem witness_arrive : ∀ i ∈ [Instr.barArrive 0 7 0 0, .barSync 0 7 0 3, .barSyncEng 0 7 8 1], ∃ F c, barForm i = some F ∧
    F.arrives = true ∧ Arrives i F c [0] exHalf ∧ (myBar exHalf F.n).phase < 65536 ∧
    (myBar exHalf F.n).count + [0].length < arrivalsNeeded exHalf c := by
  intro i hi
  have h := List.all_eq_true.1 (by decide +kernel : [Instr.barArrive 0 7 0 0, .barSync 0 7 0 3, .barSyncEng 0 7 8 1].all (fun i =>
    match barForm i with
    | some F =>
      let c := (srcD exHalf F.d 0).toNat % 4096
      F.arrives && arrivesB i F c [0] exHalf && decide ((myBar exHalf F.n).phase < 65536) &&
        decide ((myBar exHalf F.n).count + 1 < arrivalsNeeded exHalf c)
    | none => false) = true) i hi
  cases hf : barForm i with
  | none => simp [hf] at h
  | some F =>
    simp only [hf, Bool.and_eq_true, decide_eq_true_eq] at h
    exact ⟨F, _, rfl, h.1.1.1, arrives_of h.1.1.2, h.1.2, h.2⟩

/-- BarrierArrivals: the last thread of two, in the last phase before the number wraps. -/
theorem witness_arrive_last : ∀ i ∈ [Instr.barArrive 0 7 8 3, .barSync 0 7 8 3, .barSyncEng 0 7 8 3], ∃ F, barForm i = some F ∧
    F.arrives = true ∧
    (let s := exHalf
     let s := modGroup s 0 0 fun g => { g with bars := [(3, { phase := 65535, count := 1, expect := 2, set := true, arrivals := [(34, 0)] })] }
     Arrives i F 2 [0] s ∧ (myBar s F.n).phase < 65536 ∧ (myBar s F.n).count + [0].length = arrivalsNeeded s 2) := by
  intro i hi
  have h := List.all_eq_true.1 (by decide +kernel : [Instr.barArrive 0 7 8 3, .barSync 0 7 8 3, .barSyncEng 0 7 8 3].all (fun i =>
    match barForm i with
    | some F =>
      let s := modGroup exHalf 0 0 fun g => { g with bars := [(3, { phase := 65535, count := 1, expect := 2, set := true, arrivals := [(34, 0)] })] }
      F.arrives && arrivesB i F 2 [0] s && decide ((myBar s F.n).phase < 65536) && decide ((myBar s F.n).count + 1 = arrivalsNeeded s 2)
    | none => false) = true) i hi
  cases hf : barForm i with
  | none => simp [hf] at h
  | some F =>
    simp only [hf, Bool.and_eq_true, decide_eq_true_eq] at h
    exact ⟨F, rfl, h.1.1.1, arrives_of h.1.1.2, h.1.2, h.2⟩

/-- BarrierWaits: tokens of the current phase 0 and of another; a number of the group's count; a task's warp. -/
theorem witness_bar_wait : (Issues (.barWait 0 7 1 3) 7 [0, 1] exS ∧ (iWarp exS).kind = .grid ∧ (3 : BitVec 10).toNat < (myGroup exS).nbars) ∧
    (Issues (.barWaitEng 0 7 6 0) 7 [0, 1] exS ∧ (0 : BitVec 10).toNat < (myGroup exS).nbars ∧ ∀ l ∈ [0, 1], tokenOf exS 6 l = (myBar exS 0).phase) ∧
    (Issues (.barWaitEng 0 7 1 0) 7 [0, 1] exS ∧ ∀ l ∈ [0, 1], tokenOf exS 1 l ≠ (myBar exS 0).phase) ∧
    ((∃ F, barForm (.barArrive 0 7 0 4) = some F ∧ Issues (.barArrive 0 7 0 4) F.g [0, 1] exS ∧ (myGroup exS).nbars ≤ F.n.toNat) ∧
     (∃ F, barForm (.barWait 0 7 0 0) = some F ∧ Issues (.barWait 0 7 0 0) F.g [0, 1] (exWith fun w => { w with kind := .task }) ∧
        (iWarp (exWith fun w => { w with kind := .task })).kind ≠ .grid)) :=
  ⟨⟨issues_of (by decide +kernel), by decide +kernel, by decide +kernel⟩,
    ⟨issues_of (by decide +kernel), by decide +kernel, by decide +kernel⟩, ⟨issues_of (by decide +kernel), by decide +kernel⟩,
    ⟨_, rfl, issues_of (by decide +kernel), by decide +kernel⟩, _, rfl, issues_of (by decide +kernel), by decide +kernel⟩

/-- CompletionWords: two threads at objects of their own (x4 and x3), CBADD down to 0 among the counts. -/
theorem witness_completion : ∃ F G H J, padForm (.cbinit 0 7 5 6 1) = some F ∧ padForm (.cbtest 0 7 1 3) = some G ∧
    padForm (.cbwait 0 7 9 3) = some H ∧ padForm (.cbadd 0 7 3 7) = some J ∧
    (Issues (.cbinit 0 7 5 6 1) F.g [0, 1] exS ∧ PadReady F 0 [0, 1] exS) ∧
    (Issues (.cbtest 0 7 1 3) G.g [0, 1] exS ∧ ∀ l ∈ [0, 1], InWindow G exS l) ∧
    (Issues (.cbwait 0 7 9 3) H.g [0, 1] exS ∧ ∀ l ∈ [0, 1], InWindow H exS l) ∧
    (Issues (.cbadd 0 7 3 7) J.g [0, 1] exS ∧ PadReady J 0 [0, 1] exS ∧
      frontsEmpty exS ([0, 1].filter fun l => decide ((srcB exS 7 l).toInt < 0)) = true) :=
  ⟨_, _, _, _, rfl, rfl, rfl, rfl, ⟨issues_of (by decide +kernel), padReady_of (by decide +kernel)⟩,
    ⟨issues_of (by decide +kernel), by unfold InWindow; decide +kernel⟩, ⟨issues_of (by decide +kernel), by unfold InWindow; decide +kernel⟩,
    issues_of (by decide +kernel), padReady_of (by decide +kernel), by decide +kernel⟩

/-- FlushesEmptyTheFetchCache: two threads flush; the core's oldest flush completes, a line in its range, at the top of the addresses. -/
theorem witness_flush : Issues (.flushl 0 7 1 7) 7 [0, 1] exS ∧
    let s := exCoreWith fun k => { k with flush := [(0x1FFFFFFFFFFFF80, 129, 0, 1)], cache := [{ va := 0, ctx := 0, gen := 1, bytes := [] }] }
    (coreOf s 0).flush = (0x1FFFFFFFFFFFF80, 129, 0, 1) :: [] ∧ (∀ x ∈ (coreOf s 0).cache, x.va < 2 ^ 57 ∧ x.va % 128 = 0) ∧
      0x1FFFFFFFFFFFF80 < 2 ^ 57 :=
  ⟨issues_of (by decide +kernel), by decide +kernel⟩

/-! ### Witnesses: floating point -/

/-- FloatArithmeticResult: every member issues. -/
theorem witness_float : ∀ i ∈ [Instr.fadd 0 0 7 0 9 1 2, .fsub 0 1 7 3 9 7 9, .fmul 0 2 7 1 9 9 9, .ffma 0 0 7 2 9 7 9, .frcp 0 7 9 0, .frsq 0 7 9 7,
    .fsqrt 0 7 9 9, .fexp2 0 7 9 9, .flog2 0 7 9 0, .fsin 0 7 9 9, .fcos 0 7 9 9], ∃ F, floatForm i = some F ∧ Issues i F.g [0, 1] exS :=
  forms_of (g := FForm.g) (by decide +kernel)

/-- FormatsRoundTrip: the greatest code of E4M3 and a subnormal of FP16 in their ranges, no NaN. -/
theorem witness_formats : (e4m3 ∈ allFormats ∧ 0x7E < 2 ^ e4m3.width ∧ e4m3.decode 0x7E ≠ .nan) ∧
    f16 ∈ allFormats ∧ 0x8001 < 2 ^ f16.width ∧ f16.decode 0x8001 ≠ .nan := by decide +kernel

/-- FloatMoveResult: every member issues. -/
theorem witness_float_move : ∀ i ∈ [Instr.fminS 0 7 9 1 2, .fminH 0 0 7 9 1 2, .fmaxS 0 7 9 7 7, .fmaxH 0 1 7 9 1 2, .fabsS 0 7 9 7,
    .fabsH 0 1 7 9 7, .fnegS 0 7 9 0, .fnegH 0 0 7 9 0, .fclassS 0 7 9 7, .fclassH 0 0 7 9 7, .pack 0 7 9 7 1 1 3, .unpk 0 7 9 7 1 1 0,
    .perm 0 7 9 1 2, .shfl 0 7 9 1 2, .lbcast 0 7 9 1 31], ∃ F, floatMoveForm i = some F ∧ Issues i F.g [0, 1] exS :=
  forms_of (g := XForm.g) (by decide +kernel)

/-- FloatCompareResult: both forms. -/
theorem witness_float_compare : (∃ i f, ((i = Instr.fcmpS 0 7 2 1 7 9 ∧ f = f32) ∨ (i = Instr.fcmpH 0 0 7 2 1 7 9 ∧ f = halfOf 0)) ∧ Issues i 7 [0, 1] exS) ∧
    ∃ i f, ((i = Instr.fcmpS 0 7 6 7 7 9 ∧ f = f32) ∨ (i = Instr.fcmpH 0 1 7 6 7 7 9 ∧ f = halfOf 1)) ∧ Issues i 7 [0, 1] exS :=
  ⟨⟨_, _, Or.inl ⟨rfl, rfl⟩, issues_of (by decide +kernel)⟩, _, _, Or.inr ⟨rfl, rfl⟩, issues_of (by decide +kernel)⟩

/-- ConversionResult: every member, under SR and not. -/
theorem witness_conversion : ∀ i ∈ [Instr.fcvt 0 7 3 1 9 9 0 4, .icvt 0 7 0 9 9 2 4, .fcvti 0 7 0 9 7 2 0], i.wf = true ∧
    ∃ F, cvtForm i = some F ∧ Issues i F.g [0, 1] exS := by
  intro i hi
  have h := forms_of (g := CForm.g) (form := cvtForm) (ls := [0, 1]) (s := exS)
    (by decide +kernel : formsB cvtForm CForm.g [0, 1] exS [Instr.fcvt 0 7 3 1 9 9 0 4, .icvt 0 7 0 9 9 2 4, .fcvti 0 7 0 9 7 2 0] = true) i hi
  refine ⟨?_, h⟩
  exact List.all_eq_true.1 (by decide +kernel : [Instr.fcvt 0 7 3 1 9 9 0 4, .icvt 0 7 0 9 9 2 4, .fcvti 0 7 0 9 7 2 0].all Instr.wf = true) i hi

/-! ### Witnesses: engine words -/

/-- The state whose threads' x1 to x3 are given. -/
def exRegs (a b c : Word) (s : State) : State :=
  modWarp s 0 0 fun w => { w with lanes := [(0, { exLane 0 with regs := [(1, a), (2, b), (3, c)] }), (1, { exLane 1 with regs := [(1, a), (2, b), (3, c)] })] }

/-- MatrixCommandsReachTheEngine: each command word with least and greatest legal fields, and with eight commands unstarted. -/
theorem witness_matrix : (∃ F, matrixForm (.wload 0 7 1) = some F ∧ IssuesE (.wload 0 7 1) F.g [0, 1] (exRegs 0x8000 0 0 exS) ∧
      F.legal (exRegs 0x8000 0 0 exS) (lowest (exRegs 0x8000 0 0 exS) [0, 1]) ∧
      ((myMatrix (exRegs 0x8000 0 0 exS)).cmds.filter (·.phase != 1)).length < 8) ∧
    (∃ F, matrixForm (.wloadsp 0 7 1) = some F ∧ IssuesE (.wloadsp 0 7 1) F.g [0, 1] (exRegs 0x100 0 0xE00 exS) ∧
      F.legal (exRegs 0x100 0 0xE00 exS) (lowest (exRegs 0x100 0 0xE00 exS) [0, 1])) ∧
    (∃ F, matrixForm (.wswap 0 7) = some F ∧ IssuesE (.wswap 0 7) F.g [0, 1] exS ∧ F.legal exS (lowest exS [0, 1])) ∧
    (∃ F, matrixForm (.mstream 0 7 1) = some F ∧ IssuesE (.mstream 0 7 1) F.g [0, 1] (exRegs 0x1000000 0 0 exS) ∧
      F.legal (exRegs 0x1000000 0 0 exS) (lowest (exRegs 0x1000000 0 0 exS) [0, 1])) ∧
    (∃ F, matrixForm (.mdrain 0 7 1) = some F ∧ IssuesE (.mdrain 0 7 1) F.g [0, 1] (exRegs 0x100FF00040000 0 0 exS) ∧
      F.legal (exRegs 0x100FF00040000 0 0 exS) (lowest (exRegs 0x100FF00040000 0 0 exS) [0, 1])) ∧
    (∃ F, matrixForm (.episet 0 7 3 1) = some F ∧ IssuesE (.episet 0 7 3 1) F.g [0, 1] (exRegs 0xDC0 0 0 exS) ∧
      F.legal (exRegs 0xDC0 0 0 exS) (lowest (exRegs 0xDC0 0 0 exS) [0, 1])) ∧
    ∃ F, matrixForm (.wswap 0 7) = some F ∧
      (let s := exCoreWith fun k => { k with matrix := { cmds := List.replicate 8 { kind := 2 } } };
      IssuesE (.wswap 0 7) F.g [0, 1] s ∧ F.legal s (lowest s [0, 1]) ∧ 8 ≤ ((myMatrix s).cmds.filter (·.phase != 1)).length) :=
  ⟨⟨_, rfl, issuesE_of (by decide +kernel), by unfold LoadLegal CmdLegal; decide +kernel, by decide +kernel⟩,
    ⟨_, rfl, issuesE_of (by decide +kernel), by unfold LoadLegal CmdLegal; decide +kernel⟩,
    ⟨_, rfl, issuesE_of (by decide +kernel), trivial⟩,
    ⟨_, rfl, issuesE_of (by decide +kernel), by unfold CmdLegal; decide +kernel⟩,
    ⟨_, rfl, issuesE_of (by decide +kernel), by unfold CmdLegal; decide +kernel⟩,
    ⟨_, rfl, issuesE_of (by decide +kernel), by decide +kernel⟩,
    _, rfl, issuesE_of (by decide +kernel), trivial, by decide +kernel⟩

/-- AccumulatorWords: a tile that nothing writes, and one that a command writes; SPCMP of a NaN. -/
theorem witness_accumulator : (IssuesE (.accz 0 7 3) 7 [0, 1] exS ∧ (tileOf exS exS.issue.core 3).count = 0) ∧
    (IssuesE (.accrd 0 7 9 7 3) 7 [0, 1] exS ∧ IssuesE (.accwr 0 7 9 7 3) 7 [0, 1] exS) ∧
    (let s := exCoreWith fun k => { k with matrix := { tiles := [(3, { count := 1 })] } };
      IssuesE (.accz 0 7 3) 7 [0, 1] s ∧ IssuesE (.accrd 0 7 9 7 3) 7 [0, 1] s ∧ IssuesE (.accwr 0 7 9 7 3) 7 [0, 1] s ∧
      (tileOf s s.issue.core 3).count ≠ 0) ∧
    IssuesE (.spcmp 0 7 9 7 0) 7 [0, 1] exS :=
  ⟨⟨issuesE_of (by decide +kernel), by decide +kernel⟩, ⟨issuesE_of (by decide +kernel), issuesE_of (by decide +kernel)⟩,
    ⟨issuesE_of (by decide +kernel), issuesE_of (by decide +kernel), issuesE_of (by decide +kernel), by decide +kernel⟩,
    issuesE_of (by decide +kernel)⟩

/-- CopyQueueWords: a queue that stopped at the offset, an idle one, a full one; QSTAT of a full one. -/
theorem witness_copy_queue :
    (let s := exCoreWith fun k => { k with queues := [(1, { err := true, off := 0xFE0, failed := true })] };
      let s := exRegs 0xFE0 0 0 s;
      IssuesE (.kick 0 7 1 1 15) 7 [0, 1] s ∧ (getX (lowest s [0, 1]) (rA s (1 : BitVec 6))).toNat % 2 ^ 20 = 0xFE0 ∧ 0xFE0 + 32 ≤ (iWarp s).padSize ∧
        (copyQOf s s.issue.core 1).err = true ∧ (copyQOf s s.issue.core 1).off = 0xFE0 ∧
        ¬((copyQOf s s.issue.core 2).err = true ∧ (copyQOf s s.issue.core 2).off = 0xFE0) ∧ (copyQOf s s.issue.core 2).heads.length < 16 ∧
        IssuesE (.kick 0 7 2 1 15) 7 [0, 1] s) ∧
    let s := exCoreWith fun k => { k with queues := [(7, { heads := List.replicate 16 ⟨0, 0, {}⟩, cur := some ⟨0, 0, {}⟩ })] };
    IssuesE (.kick 0 7 7 6 15) 7 [0, 1] s ∧ 16 ≤ (copyQOf s s.issue.core 7).heads.length ∧ IssuesE (.qstat 0 7 9 7) 7 [0, 1] s ∧
      (copyQOf s s.issue.core 7).heads.length ≤ 16 :=
  ⟨⟨issuesE_of (by decide +kernel), by decide +kernel, by decide +kernel, by decide +kernel, by decide +kernel, by decide +kernel,
    by decide +kernel, issuesE_of (by decide +kernel)⟩, issuesE_of (by decide +kernel), by decide +kernel, issuesE_of (by decide +kernel),
    by decide +kernel⟩

/-- The state after the read of TIDSET's image. -/
def exTid : State := (engRead (posted exS [0, 1]) 0 0 3 0x100 64).2

/-- EventAndTidWords: EVSET and EVCLR; TIDSET of an image at x3; its completion. -/
theorem witness_events : IssuesE (.evset 0 7 31) 7 [0, 1] (exCoreWith fun k => { k with events := [(31, 255)] }) ∧
    IssuesE (.evclr 0 7 31) 7 [0, 1] exS ∧
    (IssuesE (.tidset 0 7 1 3) 7 [0, 1] exS ∧ (getX (lowest exS [0, 1]) (rB exS (3 : BitVec 6))).toNat = 0x100 ∧ 0x100 % 64 = 0 ∧
      0x100 + 64 ≤ (iWarp exS).padSize ∧
      engRead (posted exS [0, 1]) exS.issue.core (iWarp exS).ctx 3 ((iWarp exS).padBase + 0x100) 64 = (List.replicate 64 0, exTid)) ∧
    let s := exCoreWith fun k => { k with tidset := [(0, 3, List.replicate 64 7, 0, 1)] }
    (coreOf s 0).tidset = (0, 3, List.replicate 64 7, 0, 1) :: [] ∧ ((coreOf s 0).unitWait.any fun e => e.1 == 9) = false ∧
      (coreOf s 0).unitFail.contains 9 = false ∧
      vwrite ⟨0, 0, 3⟩ (tidAddr s 0 3) (List.replicate 64 7) s = .ok () (exState (vwrite ⟨0, 0, 3⟩ (tidAddr s 0 3) (List.replicate 64 7)) s) :=
  ⟨issuesE_of (by decide +kernel), issuesE_of (by decide +kernel),
    ⟨issuesE_of (by decide +kernel), by decide +kernel, by decide +kernel, by decide +kernel, by decide +kernel⟩,
    by decide +kernel, by decide +kernel, by decide +kernel, done_of (by decide +kernel)⟩

/-- What a word reads. -/
def exRead (i : Instr) : RForm := (readForm i).getD ⟨7, 0, 0, fun _ _ => True, fun _ _ => pure 0⟩

/-- Threads that read: x1 the void reference of world 1, x2 the address of a query, x3 word 1 of tensor entry 3. -/
def exReading : State := { exRegs 0x1FFFFFFFFFFFFFF 0x7000 0x103 exWorldS with issue := { exS.issue with lanes := 1 } }

/-- InlineReads: TIDGET of a tensor entry, ECOL of the void reference, ESPAN of a query. -/
theorem witness_reads : ∀ i ∈ [Instr.tidget 0 7 9 3, .ecol 0 7 9 1 6, .espan 0 7 9 2 6],
    ∃ F vs u, readForm i = some F ∧ IssuesE i F.g [0] exReading ∧ (∀ l ∈ [0], F.legal exReading l) ∧
      ([0].mapM (F.read (posted exReading [0]))) (posted exReading [0]) = .ok vs u := by
  intro i hi
  have h := List.all_eq_true.1 (by decide +kernel : [Instr.tidget 0 7 9 3, .ecol 0 7 9 1 6, .espan 0 7 9 2 6].all (fun i =>
    (issuesB i (exRead i).g [0] exReading && frontsEmpty exReading [0] && !tidHeld exReading [0]) &&
    okB ([0].mapM ((exRead i).read (posted exReading [0]))) (posted exReading [0])) = true) i hi
  rw [Bool.and_eq_true] at h
  obtain ⟨vs, u, hv, -⟩ := ok_ex h.2
  refine ⟨exRead i, vs, u, ?_, issuesE_of h.1, ?_, hv⟩
  · simp only [List.mem_cons, List.not_mem_nil, or_false] at hi
    rcases hi with rfl | rfl | rfl <;> rfl
  · simp only [List.mem_cons, List.not_mem_nil, or_false] at hi
    rcases hi with rfl | rfl | rfl
    · exact fun _ _ => trivial
    · exact fun _ _ => trivial
    · exact (by decide +kernel : ∀ l ∈ [0], (srcA exReading (2 : BitVec 6) l).toNat < 2 ^ 57 ∧ (srcA exReading (2 : BitVec 6) l).toNat % 64 = 0)

/-- A thread that fetches the first element of tensor 3, and one whose x1 is a current handle. -/
def exFetching : State := { exRegs 0 0 3 exWorldS with issue := { exS.issue with lanes := 1 } }
def exHandle : State := { exRegs 0x100000100000002 0 0 exWorldS with issue := { exS.issue with lanes := 1 } }

/-- What FETCH and EREF read in them. -/
def exFetchRead : M (List (Word × Nat)) := [0].mapM fun l => fetchLane (iWho exFetching 5) (srcA exFetching (1 : BitVec 6) l)
  (getX (iLane exFetching l) (rA exFetching (1 : BitVec 6) + 1)) (srcB exFetching (3 : BitVec 6) l)
def exErefRead : M (List (Nat × Bool)) := [0].mapM fun l => eref (iWho exHandle 6) (srcA exHandle (1 : BitVec 6) l).toNat

theorem test_fetch_read : okB exFetchRead (posted exFetching [0]) (fun v => v.map (·.1) == [0x3F800000]) = true := by decide +kernel
theorem test_eref_read : okB exErefRead (posted exHandle [0]) (fun v => v.map (·.2) == [true]) = true := by decide +kernel

/-- InlineReads: FETCH and EREF. -/
theorem witness_fetch_eref :
    (∃ vs u, IssuesE (.fetch 0 7 9 1 3) 7 [0] exFetching ∧ (∀ l ∈ [0], (laneOf (iWarp exFetching) l).flushWait = false) ∧
      exFetchRead (posted exFetching [0]) = .ok vs u) ∧
    ∃ vs u, IssuesE (.eref 0 7 9 1 2) 7 [0] exHandle ∧ exErefRead (posted exHandle [0]) = .ok vs u := by
  obtain ⟨vs, u, h, -⟩ := ok_ex test_fetch_read
  obtain ⟨ws, v, k, -⟩ := ok_ex test_eref_read
  exact ⟨⟨vs, u, issuesE_of (by decide +kernel), by decide +kernel, h⟩, ws, v, issuesE_of (by decide +kernel), k⟩

/-- InlineReads: the world and the locator of a current handle, and of one of another generation. -/
theorem witness_eref_world : ∀ h ∈ [0x100000100000002, 0x100000200000002], ∃ x u l v, h ≠ 0 ∧
    worldGet ⟨0, 0, 6⟩ (fld h 63 56) exWorldS = .ok (some x) u ∧ h < 2 ^ 64 ∧ locRead ⟨0, 0, 6⟩ x (fld h 31 0) u = .ok l v := by
  intro h hh
  have k := List.all_eq_true.1 (by decide +kernel : [0x100000100000002, 0x100000200000002].all (fun h => decide (h ≠ 0) && decide (h < 2 ^ 64) &&
    match worldGet ⟨0, 0, 6⟩ (fld h 63 56) exWorldS with
    | .ok (some x) u => okB (locRead ⟨0, 0, 6⟩ x (fld h 31 0)) u
    | _ => false) = true) h hh
  rw [Bool.and_eq_true, Bool.and_eq_true, decide_eq_true_eq, decide_eq_true_eq] at k
  cases hw : worldGet ⟨0, 0, 6⟩ (fld h 63 56) exWorldS with
  | error e t => simp [hw] at k
  | ok o u =>
    cases o with
    | none => simp [hw] at k
    | some x =>
      obtain ⟨l, v, hl, -⟩ := ok_ex (by simpa only [hw] using k.2)
      exact ⟨x, u, l, v, k.1.1, rfl, k.1.2, hl⟩

/-! ### Witnesses: edits, views, tasks, beams, traps -/

/-- One thread that edits: x1 the current handle, x2 a component type or an archetype, x3 a value. -/
def exEditing : State := { exRegs 0x100000100000002 5 7 exWorldS with issue := { exS.issue with lanes := 1 } }

/-- The same with world 1's number in x1, for ENEW. -/
def exWith1 : State := { exRegs 1 5 7 exWorldS with issue := { exS.issue with lanes := 1 } }

/-- What an edit word does. -/
def exEdit (i : Instr) : EForm := (editForm i).getD ⟨7, 0, fun _ _ => none⟩

/-- EditsEnterTheQueue, the words: each completes. -/
theorem witness_edits : ∀ i ∈ [Instr.enew 0 7 9 1 2, .edel 0 7 1, .eadd 0 7 3 1 2, .erem 0 7 1 2], ∃ F vs u, editForm i = some F ∧
    IssuesE i F.g [0] (if i = .enew 0 7 9 1 2 then exWith1 else exEditing) ∧
    editsRun F (posted (if i = .enew 0 7 9 1 2 then exWith1 else exEditing) [0]) [0] (posted (if i = .enew 0 7 9 1 2 then exWith1 else exEditing) [0]) = .ok vs u := by
  intro i hi
  have h := List.all_eq_true.1 (by decide +kernel : [Instr.enew 0 7 9 1 2, .edel 0 7 1, .eadd 0 7 3 1 2, .erem 0 7 1 2].all (fun i =>
    let s := if i = .enew 0 7 9 1 2 then exWith1 else exEditing
    (issuesB i (exEdit i).g [0] s && frontsEmpty s [0] && !tidHeld s [0]) && okB (editsRun (exEdit i) (posted s [0]) [0]) (posted s [0])) = true) i hi
  rw [Bool.and_eq_true] at h
  obtain ⟨vs, u, hv, -⟩ := ok_ex h.2
  refine ⟨exEdit i, vs, u, ?_, issuesE_of h.1, hv⟩
  simp only [List.mem_cons, List.not_mem_nil, or_false] at hi
  rcases hi with rfl | rfl | rfl | rfl <;> rfl

/-- World 1 as a unit reads it. -/
def exWorld1 : World := ⟨2 ^ 57 - 128, 1, 2 ^ 920 + 2 ^ 919 + 0x10000 * 2 ^ 704 + 16 * 2 ^ 697 + 10 * 2 ^ 633 + 0x8000 * 2 ^ 576 + 0x4000 * 2 ^ 384 + 16 * 2 ^ 288⟩

/-- The state with its edit queue full. -/
def exFull : State := exPut 0x1FF90 4 1024 exWorldS

/-- The states after EQCOUNT's claim. -/
def exClaimed (s : State) : State := exState (worldAtomic ⟨0, 0, 6⟩ exWorld1 16 fun k => if k < exWorld1.eqCap then some (k + 1) else none) s

/-- EditsEnterTheQueue, one edit: under its limits, with the last ECOUNT and the greatest GTID; and with the queue full. -/
theorem witness_edit_lane : (2 ^ 24 - 1 < 2 ^ 24 ∧ 2 ^ 39 - 1 < 2 ^ 39 ∧ 3 ≠ 4 ∧
      mget 0 (ctxOf (modCtx exWorldS 0 fun k => { k with ecount := [(2 ^ 39 - 1, 2 ^ 24 - 1)] }) 0).ecount (0 * 2 ^ 40 + (2 ^ 39 - 1)) = 2 ^ 24 - 1) ∧
    (worldAtomic ⟨0, 0, 6⟩ exWorld1 16 (fun k => if k < exWorld1.eqCap then some (k + 1) else none) exWorldS = .ok 0 (exClaimed exWorldS) ∧
      0 < exWorld1.eqCap ∧
      vwrite ⟨0, 0, 6⟩ (exWorld1.eqBase + 32 * 0) (leBytes 32 (3 * 2 ^ 152)) (exClaimed exWorldS) =
        .ok () (exState (vwrite ⟨0, 0, 6⟩ (exWorld1.eqBase + 32 * 0) (leBytes 32 (3 * 2 ^ 152))) (exClaimed exWorldS))) ∧
    worldAtomic ⟨0, 0, 6⟩ exWorld1 16 (fun k => if k < exWorld1.eqCap then some (k + 1) else none) exFull = .ok 1024 (exClaimed exFull) ∧
      exWorld1.eqCap ≤ 1024 ∧
      worldAtomic ⟨0, 0, 6⟩ exWorld1 24 (fun k => some (min (k + 1) 0xFFFFFFFF)) (exClaimed exFull) =
        .ok 0 (exState (worldAtomic ⟨0, 0, 6⟩ exWorld1 24 fun k => some (min (k + 1) 0xFFFFFFFF)) (exClaimed exFull)) :=
  ⟨by decide +kernel, ⟨ok_of (by decide +kernel), by decide +kernel, done_of (by decide +kernel)⟩, ok_of (by decide +kernel),
    by decide +kernel, ok_of (by decide +kernel)⟩

/-- The state with its world's sync point under way. -/
def exSyncing : State := exPut 0x1FF80 8 1 exWith1

/-- ViewsOpenAndClose: VOPEN of world 1, and while its sync point runs. -/
theorem witness_vopen : IssuesE (.vopen 0 7 9 1) 7 [0] exWith1 ∧ syncRunning (posted exWith1 [0]) [0] (1 : BitVec 6) = false ∧
    IssuesE (.vopen 0 7 9 1) 7 [0] exSyncing ∧ syncRunning (posted exSyncing [0]) [0] (1 : BitVec 6) = true :=
  ⟨issuesE_of (by decide +kernel), by decide +kernel, issuesE_of (by decide +kernel), by decide +kernel⟩

/-- What VOPEN reads first. -/
def exAcquire : M (List (Option World)) := [0].mapM fun l => worldAcquire (iWho exWith1 6) ((srcA exWith1 (1 : BitVec 6) l).toNat % 256)

/-- ViewsOpenAndClose: VOPEN's world and slot. -/
theorem witness_vopen_slot : exAcquire (posted exWith1 [0]) = .ok ([exWorld1].map some) (exState exAcquire (posted exWith1 [0])) ∧
    ∃ vs v, ([exWorld1].mapM fun x => vopenSlot (iWho exWith1 6) x 256 0) (exState exAcquire (posted exWith1 [0])) = .ok vs v := by
  refine ⟨ok_of (by decide +kernel), ?_⟩
  obtain ⟨vs, v, h, -⟩ := ok_ex (by decide +kernel : okB ([exWorld1].mapM fun x => vopenSlot (iWho exWith1 6) x 256 0)
    (exState exAcquire (posted exWith1 [0])) (fun v => v == [2 ^ 56]) = true)
  exact ⟨vs, v, h⟩

/-- The claim of a view slot. -/
def exSlot (k : Nat) : M Nat := vatomic ⟨0, 0, 6⟩ (exWorld1.views + 16 * k) 8 (fun v => if bitAt v 63 then none else
  some (2 ^ 63 + (0 : Nat) % 64 * 2 ^ 48 + exWorld1.version))

/-- ViewsOpenAndClose, one slot: free, and open. -/
theorem witness_slot : exSlot 255 exWorldS = .ok 0 (exState (exSlot 255) exWorldS) ∧
    exSlot 0 (exPut 0 8 (2 ^ 63) exWorldS) = .ok (2 ^ 63) (exState (exSlot 0) (exPut 0 8 (2 ^ 63) exWorldS)) :=
  ⟨ok_of (by decide +kernel), ok_of (by decide +kernel)⟩

/-- The state with view slot 255 open, and a thread that holds its token. -/
def exClosing : State := exPut 0xFF0 8 (2 ^ 63) { exRegs 0x1FF000000000000 0 0 exWorldS with issue := { exS.issue with lanes := 1 } }

/-- The close of a slot. -/
def exClose : M Nat := vatomic ⟨0, 0, 6⟩ (exWorld1.views + 16 * fld 0x1FF000000000000 55 48) 8 (fun k =>
  if bitAt k 63 && fld k 53 48 == (0 : Nat) % 64 && fld k 47 0 == fld 0x1FF000000000000 47 0 then some (k - 2 ^ 63) else none)

/-- ViewsOpenAndClose: VCLOSE. -/
theorem witness_vclose : IssuesE (.vclose 0 7 1) 7 [0] exClosing ∧
    (∃ vs u, ([0].mapM fun l => vcloseTok (iWho exClosing 6) (srcA exClosing (1 : BitVec 6) l).toNat) (posted exClosing [0]) = .ok vs u) ∧
    ∃ x u old v, worldGet ⟨0, 0, 6⟩ (0x1FF000000000000 / 2 ^ 56) exClosing = .ok (some x) u ∧ x = exWorld1 ∧ exClose u = .ok old v := by
  refine ⟨issuesE_of (by decide +kernel), ?_, ?_⟩
  · obtain ⟨vs, v, h, -⟩ := ok_ex (by decide +kernel : okB ([0].mapM fun l => vcloseTok (iWho exClosing 6) (srcA exClosing (1 : BitVec 6) l).toNat)
      (posted exClosing [0]) (fun _ => true) = true)
    exact ⟨vs, v, h⟩
  · obtain ⟨old, v, h, -⟩ := ok_ex (by decide +kernel : okB exClose (exState (worldGet ⟨0, 0, 6⟩ (0x1FF000000000000 / 2 ^ 56)) exClosing)
      (fun v => v == 2 ^ 63) = true)
    exact ⟨exWorld1, _, old, v, ok_of (by decide +kernel), rfl, h⟩

/-- TaskWords: SPAWN of two frames with the last room of a deck; of two more than it holds, with a stock. -/
def exDeck (n : Nat) : State :=
  let s := exRegs 0x100 0x2000 0 exS
  let s := modCore s 0 fun k => { k with deck := List.replicate n ⟨0, 0⟩ }
  modCtx s 0 fun c => { c with launches := [(0, { fields := List.replicate 11 0 ++ [8 * 2 ^ 58 + 0x8000] })] }

/-- The frames that the two threads push. -/
def exFrames (s : State) : List Frame := [0, 1].map fun l => frameOf (srcA s (1 : BitVec 6) l).toNat (getX (iLane s l) (rA s (1 : BitVec 6) + 1)).toNat
  ((List.range 6).map fun k => (getX (iLane s l) (rA s (1 : BitVec 6) + (k + 2))).toNat) (iWarp s).launch

theorem witness_spawn : IssuesE (.spawn 0 7 1) 7 [0, 1] (exDeck 254) ∧ (∀ l ∈ [0, 1], SpawnLegal (exDeck 254) 1 l) ∧
    deckRoom (posted (exDeck 254) [0, 1]) 0 0 [0, 1].length = true ∧ deckCount (coreOf (exDeck 254) 0) + [0, 1].length ≤ 256 ∧
    spawnAll (iWho (exDeck 254)) (exFrames (exDeck 254)) (posted (exDeck 254) [0, 1]) =
      .ok () (exState (spawnAll (iWho (exDeck 254)) (exFrames (exDeck 254))) (posted (exDeck 254) [0, 1])) :=
  ⟨issuesE_of (by decide +kernel), by unfold SpawnLegal; decide +kernel, by decide +kernel, by decide +kernel, done_of (by decide +kernel)⟩

/-- TaskWords: the spill. -/
theorem witness_spawn_spill : IssuesE (.spawn 0 7 1) 7 [0, 1] (exDeck 255) ∧ (∀ l ∈ [0, 1], SpawnLegal (exDeck 255) 1 l) ∧
    deckRoom (posted (exDeck 255) [0, 1]) 0 0 [0, 1].length = true ∧ 256 < deckCount (coreOf (exDeck 255) 0) + [0, 1].length ∧
    ∃ u v, spill (iWho (exDeck 255)) (posted (exDeck 255) [0, 1]) = .ok () u ∧
      spawnAll (iWho (exDeck 255)) (exFrames (exDeck 255)) u = .ok () v :=
  ⟨issuesE_of (by decide +kernel), by unfold SpawnLegal; decide +kernel, by decide +kernel, by decide +kernel, then_ex (by decide +kernel)⟩

/-- TaskWords: TDONE with a counter at 0x2000, LQPUB. -/
theorem witness_tdone_lqpub :
    (let s := exWith fun w => { w with lanes := [(0, { exLane 0 with regs := [(7, 0x2000)] }), (1, { exLane 1 with regs := [] })] };
      IssuesE (.tdone 0 7) 7 [0, 1] s ∧ (∀ l ∈ [0, 1], (getX (iLane s l) 7).toNat < 2 ^ 57 ∧ (getX (iLane s l) 7).toNat % 8 = 0) ∧
      ∃ u, doneAll (iWho s) ([0, 1].map fun l => getX (iLane s l) 7) (posted s [0, 1]) = .ok () u) ∧
    IssuesE (.lqpub 0 7 7 3) 7 [0, 1] exS ∧ ∀ l ∈ [0, 1], (srcB exS 3 l).toNat % 8 = 0 :=
  ⟨⟨issuesE_of (by decide +kernel), by decide +kernel, _, done_of (by decide +kernel)⟩, issuesE_of (by decide +kernel), by decide +kernel⟩

/-- BeamWords: two records for an engine that holds 62; with 63 they wait; one record that counts a join counter. -/
theorem witness_beams : (∃ i ray n, ((i = .beamq 0 7 4 ∧ ray = false ∧ n = 128) ∨ (i = .rayq 0 7 4 ∧ ray = true ∧ n = 64)) ∧
      (let s := exCoreWith fun k => { k with beams := List.replicate 62 (freshQuery true 0 0 0 0) };
      IssuesE i 7 [0, 1] s ∧ (∀ l ∈ [0, 1], (srcA s 4 l).toNat < 2 ^ 57 ∧ (srcA s 4 l).toNat % n = 0) ∧
      (coreOf s s.issue.core).beams.length + [0, 1].length ≤ 64 ∧
      ∃ u v, ([0, 1].mapM fun l => vreadN (iWho s 4) (srcA s 4 l).toNat n) (posted s [0, 1]) = .ok [0, 0] u ∧
        (([0, 1].zip [0, 0]).mapM fun e => acceptQuery (iWho s 4) ray (iWarp s).launch (srcA s 4 e.1).toNat e.2) u = .ok ([0, 1].map fun _ => ()) v)) ∧
    (let s := exCoreWith fun k => { k with beams := List.replicate 63 (freshQuery true 0 0 0 0) };
      IssuesE (.beamq 0 7 4) 7 [0, 1] s ∧ 64 < (coreOf s s.issue.core).beams.length + [0, 1].length) ∧
    bitAt (0x2000 * 2 ^ 704) 42 = false ∧
    joinAdd ⟨0, 0, 4⟩ (beamOf false (0x2000 * 2 ^ 704)).join 1 exS =
      .ok () (exState (joinAdd ⟨0, 0, 4⟩ (beamOf false (0x2000 * 2 ^ 704)).join 1) exS) :=
  ⟨⟨_, _, _, Or.inr ⟨rfl, rfl, rfl⟩, issuesE_of (by decide +kernel), by decide +kernel, by decide +kernel, _, _, ok_of (by decide +kernel),
    ok_of (by decide +kernel)⟩, ⟨issuesE_of (by decide +kernel), by decide +kernel⟩, by decide +kernel, done_of (by decide +kernel)⟩

/-- A handler thread in slot 1 that holds the record at 0x2000 of the halted group in slot 0. -/
def exHandling : State :=
  { exCoreWith fun k => { k with
      warps := [(0, { exWarp with st := .halted }), (1, { exWarp with st := .ready, kind := .handler, group := 1, serial := 2, lanes := [(0, { exLane 0 with trapRec := 0x2000, regs := [(1, 0x2000)] })] })]
      groups := [(0, { slots := [0], threads := 2, padSize := 4096, halted := true, recs := [{ addr := 0x2000, cause := 0x12, lanes := 1, pc := 0x100, given := true }] }),
        (1, { slots := [1], threads := 1, handles := 1 })] } with
    issue := { exS.issue with slot := 1, lanes := 1 } }

/-- TrapsTakeTheirFault: both words, in a group's warp whose record fits, in a handler's warp, and where no guard is true. -/
theorem witness_traps : ∀ i ∈ [Instr.trap 0 2 4095, .bkpt 0 2 4095], Issues i 2 [0, 1] exS ∧ (iWarp exS).kind ≠ .handler ∧
    RecordFits (issueInfo exS 0x13 4095 [0, 1]) exS ∧ Issues i 2 [0] exHandling ∧ (iWarp exHandling).kind = .handler ∧
    (let s := { exS with issue := { exS.issue with lanes := 0 } }; actLanes s 2 = [] ∧ badReg s i = none) := by
  intro i h
  have h1 := List.all_eq_true.1 (by decide +kernel : [Instr.trap 0 2 4095, .bkpt 0 2 4095].all (fun i => issuesB i 2 [0, 1] exS && issuesB i 2 [0] exHandling &&
    decide (actLanes { exS with issue := { exS.issue with lanes := 0 } } 2 = [] ∧ badReg { exS with issue := { exS.issue with lanes := 0 } } i = none)) = true) i h
  simp only [Bool.and_eq_true, decide_eq_true_eq] at h1
  exact ⟨issues_of h1.1.1, by decide +kernel, ⟨by decide +kernel, by decide +kernel, by decide +kernel, by decide +kernel, by decide +kernel, by decide +kernel,
    by decide +kernel, by decide +kernel, by decide +kernel⟩, issues_of h1.1.2, by decide +kernel, h1.2⟩

/-- ResumeActsOnItsRecord: its three words issue. -/
theorem witness_resume : ∀ i ∈ [Instr.resumeReplay 0 7 1, .resumeSkip 0 7 1, .resumeEnd 0 7 1], IssuesE i 7 [0] exHandling :=
  fun i h => issuesE_of (List.all_eq_true.1 (by decide +kernel : [Instr.resumeReplay 0 7 1, .resumeSkip 0 7 1, .resumeEnd 0 7 1].all (fun i =>
    issuesB i 7 [0] exHandling && frontsEmpty exHandling [0] && !tidHeld exHandling [0]) = true) i h)

/-- ResumeActsOnItsRecord, its clauses: a record that the thread does not hold; the record of a halted group, for each mode. -/
theorem witness_resume_clauses : let s := deliverAll (posted exHandling [0])
    ((laneOf (iWarp s) 0).trapRec ≠ 0x3000) ∧
    ((0x2000 : Word) ≠ 0 ∧ (laneOf (iWarp s) 0).trapRec = 0x2000 ∧ findRec s s.issue.core 0x2000 = some (0, 0)) ∧
    ((groupOf s s.issue.core 0).recs = [{ addr := 0x2000, cause := 0x12, lanes := 1, pc := 0x100, given := true }] ∧
      (∀ sl ∈ (groupOf s s.issue.core 0).slots, (warpOf s s.issue.core sl).st = .halted) ∧ 0 ∈ (groupOf s s.issue.core 0).slots ∧
      groupAway s s.issue.core (groupOf s s.issue.core 0) = false ∧ 0 ≠ s.issue.slot ∧ s.issue.slot ∉ (groupOf s s.issue.core 0).slots) ∧
    ∀ m ∈ [1, 2], okB (vwrite ⟨s.issue.core, (groupOf s s.issue.core 0).ctx, 0⟩ 0x2000 (leBytes 64 (0 / 8 * 8 + m)))
      (modGroup (iModLane s 0 fun k => { k with trapRec := 0 }) s.issue.core 0 fun k =>
        { k with recs := [{ addr := 0x2000, cause := 0x12, lanes := 1, pc := 0x100, given := true, state := m }] }) = true := by decide +kernel

/-! ### Witnesses: power, warp slots -/

/-- PowerSteps: PGLIM; a copy's request that fits at the limit, and one that does not. -/
theorem witness_power : (let s := modSector exS 3 fun k => { k with requests := [{ core := 150, unit_ := 7, watts := 3, since := 0 }] }
      s.mgmt.ready = true ∧ 3 < 4 ∧ PowerWithin s ∧ ∀ r ∈ (sectorOf s 3).requests, secOf r.core = 3) ∧
    (let s := exCoreWith fun k => { k with queues := [(7, { waitPwr := true })] }
     (7 < 8 ∧ (copyQOf s 0 7).waitPwr = true ∧ (copyQOf s 0 7).leave = 0 ∧ (copyQOf s 0 7).err = false) ∧
     383 ≤ pglim { s with power := { s.power with lim0 := 383 } } (secOf 0) ∧
     pglim { s with power := { s.power with lim0 := 382 } } (secOf 0) < 383) := by
  unfold PowerWithin; decide +kernel

/-- A core whose weight plane holds 128 rows and whose oldest command is an MSTREAM. -/
def exStream : State := exPut 0xC0 64 (1 + 2 ^ 8 + 4 * 2 ^ 35 + 0x6000 * 2 ^ 227) (exCoreWith fun k => { k with
  matrix := { planes := [(0, { rows := 128 })], cmds := [{ kind := 3, cmd := 3 + 2 ^ 17 }] } })

/-- The tensor that it reads. -/
def exStreamT : Tensor × State :=
  match cmdTensor 0 { kind := 3, cmd := 3 + 2 ^ 17 } exStream with
  | .done n u => (n, u)
  | _ => (tensorOf 0, exStream)

theorem test_stream : ((match cmdTensor 0 { kind := 3, cmd := 3 + 2 ^ 17 } exStream with | .done _ _ => true | _ => false) &&
    decide (cmdWatts exStreamT.2 0 { kind := 3, cmd := 3 + 2 ^ 17 } exStreamT.1 = 12) && nextCmd exStreamT.2 0 0 exStreamT.1 &&
    decide (380 + 12 ≤ pglim exStreamT.2 (secOf 0)) && decide (cmdsOf exStreamT.2 0 = cmdsOf exStream 0)) = true := by decide +kernel

/-- PowerSteps: a matrix command's request. -/
theorem witness_power_command : ((cmdsOf exStream 0).findIdx? fun y => y.phase == 0) = some 0 ∧
    (cmdsOf exStream 0)[0]? = some { kind := 3, cmd := 3 + 2 ^ 17 } ∧
    cmdTensor 0 { kind := 3, cmd := 3 + 2 ^ 17 } exStream = .done exStreamT.1 exStreamT.2 ∧
    cmdWatts exStreamT.2 0 { kind := 3, cmd := 3 + 2 ^ 17 } exStreamT.1 = 12 ∧ nextCmd exStreamT.2 0 0 exStreamT.1 = true ∧
    bitAt (3 + 2 ^ 17 : Word).toNat 63 = false ∧ 380 + 12 ≤ pglim exStreamT.2 (secOf 0) ∧ cmdsOf exStreamT.2 0 = cmdsOf exStream 0 := by
  have h := test_stream
  simp only [Bool.and_eq_true, decide_eq_true_eq] at h
  refine ⟨by decide +kernel, by decide +kernel, ?_, h.1.1.1.2, h.1.1.2, by decide +kernel, h.1.2, h.2⟩
  unfold exStreamT
  cases hc : cmdTensor 0 { kind := 3, cmd := 3 + 2 ^ 17 } exStream <;> simp_all

/-- PowerSteps: a grant that just fits; a request older than 200 ns. -/
theorem witness_grant : (let s := modSector exS 0 fun k => { k with requests := [{ core := 0, unit_ := 7, watts := 570, since := 0 }] }
      (sectorOf s 0).requests = { core := 0, unit_ := 7, watts := 570, since := 0 } :: [] ∧ committed s 0 + 570 ≤ pglim s 0) ∧
    let s := { modSector exS 3 fun k => { k with requests := [{ core := 0, unit_ := 7, watts := 570, since := 1 }] } with clk := 282 }
    3 < 4 ∧ s.power.throttled.getLsbD 3 = false ∧ ∃ r ∈ (sectorOf s 3).requests, r.since + 280 < s.clk := by decide +kernel

/-- PowerWithinKept: the limits after reset, and a step. -/
theorem witness_power_within : PowerWithin State.reset ∧ nextB (step State.reset) (fun _ => true) = true := by
  unfold PowerWithin; decide +kernel

/-- A warp of slot 0 whose first thread is parked with a kind and an operand. -/
def exParked (x : Lane → Lane) : State := exWith fun w => { setLane w 0 (x { laneOf w 0 with st := .parked }) with st := .parked }

theorem parkedAt_of {s : State} {c slot l kind : Nat} (h : decide (l < 32 ∧ (laneOf (warpOf s c slot) l).st = .parked ∧
    (laneOf (warpOf s c slot) l).stopped = false ∧ ((warpOf s c slot).st = .ready ∨ (warpOf s c slot).st = .current ∨ (warpOf s c slot).st = .parked) ∧
    (laneOf (warpOf s c slot) l).park.kind = kind) = true) : ParkedAt s c slot l kind := by
  simp only [decide_eq_true_eq] at h
  exact ⟨h.1, h.2.1, h.2.2.1, h.2.2.2.1, h.2.2.2.2⟩

/-- WarpSteps: a sort; wakes at a barrier whose phase has wrapped, and at a completion object with ERROR set. -/
theorem witness_warp_wake : (warpOf exS 0 0).st ≠ .free ∧
    (let s := exParked fun x => { x with park := { kind := 4, op := 3 + 0xFFFF * 65536, words := 1 } }
     ParkedAt s 0 0 0 4 ∧ (mget {} (groupOf s 0 (warpOf s 0 0).group).bars ((laneOf (warpOf s 0 0) 0).park.op.toNat % 1024)).phase
       ≠ fld (laneOf (warpOf s 0 0) 0).park.op.toNat 31 16) ∧
    let s := modCore (exParked fun x => { x with park := { kind := 3, op := 0xFF0, words := 1, dst := 9 } }) 0 fun k => { k with pad := [(0xFF0, 1), (0xFF9, 4)] }
    ParkedAt s 0 0 0 3 ∧ (warpOf s 0 0).padBase + (laneOf (warpOf s 0 0) 0).park.op.toNat = 0xFF0 ∧
      (coreOf s 0).padBad = [] ∧ (ofBytes (memGets (coreOf s 0).pad 0xFF0 8) = 0 ∨ (ofBytes (memGets (coreOf s 0).pad (0xFF0 + 8) 4)).testBit 10 = true) :=
  ⟨by decide +kernel, ⟨parkedAt_of (by decide +kernel), by decide +kernel⟩, parkedAt_of (by decide +kernel), by decide +kernel, by decide +kernel⟩

/-- A thread at a WAITV for a value of 5 at virtual 0x3000, or at a JOIN of a counter at 0x2000. -/
def exWaiting (w : Bool) : State := exPut 0x3000 4 5 (exParked fun x => { x with
  park := { kind := if w then 1 else 2, words := 1, op := if w then 0x3000 else 0x2000 }
  front := [if w then { kind := .waitv, va := 0x3000, size := 4, x1 := 5, gen := 1, dst := 9 } else { kind := .join, va := 0x2000, size := 8, gen := 1 }] })

theorem test_waiting : (okB (vread ⟨0, 0, 0⟩ 0x3000 4) (exWaiting true) (fun b => b == leBytes 4 5) &&
    decide (warpOf (exState (vread ⟨0, 0, 0⟩ 0x3000 4) (exWaiting true)) 0 0 = warpOf (exWaiting true) 0 0) &&
    okB (vread ⟨0, 0, 0⟩ 0x2000 8) (exWaiting false) (fun b => b == leBytes 8 0) &&
    decide (warpOf (exState (vread ⟨0, 0, 0⟩ 0x2000 8) (exWaiting false)) 0 0 = warpOf (exWaiting false) 0 0)) = true := by decide +kernel

/-- WarpSteps: wakes at a WAITV and at a JOIN. -/
theorem witness_warp_wait : (ParkedAt (exWaiting true) 0 0 0 1 ∧
      (laneOf (warpOf (exWaiting true) 0 0) 0).front = [{ kind := .waitv, va := 0x3000, size := 4, x1 := 5, gen := 1, dst := 9 }] ∧
      (ctxOf (exWaiting true) (warpOf (exWaiting true) 0 0).ctx).gen = 1 ∧
      vread ⟨0, (warpOf (exWaiting true) 0 0).ctx, 0⟩ 0x3000 4 (exWaiting true) = .ok (leBytes 4 5) (exState (vread ⟨0, 0, 0⟩ 0x3000 4) (exWaiting true)) ∧
      condHolds 0 (8 * 4) (ofBytes (leBytes 4 5)) ((5 : Word).toNat % 2 ^ (8 * 4)) = true) ∧
    ParkedAt (exWaiting false) 0 0 0 2 ∧ (laneOf (warpOf (exWaiting false) 0 0) 0).front = [{ kind := .join, va := 0x2000, size := 8, gen := 1 }] ∧
      vread ⟨0, (warpOf (exWaiting false) 0 0).ctx, 0⟩ 0x2000 8 (exWaiting false) = .ok (leBytes 8 0) (exState (vread ⟨0, 0, 0⟩ 0x2000 8) (exWaiting false)) ∧
      ofBytes (leBytes 8 0) = 0 :=
  ⟨⟨parkedAt_of (by decide +kernel), by decide +kernel, by decide +kernel, ok_of (by decide +kernel), by decide +kernel⟩,
    parkedAt_of (by decide +kernel), by decide +kernel, ok_of (by decide +kernel), by decide +kernel⟩

/-- A warp of one thread and one register that is being saved. -/
def exSaving : State := exWith fun w => { w with st := .saving, regsN := 2, lanes := [(1, { exLane 1 with regs := [(1, 7)] })] }

/-- Where its image goes. -/
def exSaveRun : M Unit := writeRuns ⟨0, 0, 15⟩ (saveImage exSaving 0 0 + (coreOf exSaving 0).savePos) (warpImage (warpOf exSaving 0 0))

/-- WarpSteps: the slot's states from loading to its end. -/
theorem witness_warp_states :
    (let s := exWith fun w => { w with st := .loading }; (warpOf s 0 0).st = .loading ∧ (groupOf s 0 (warpOf s 0 0).group).recs = [] ∧ (coreOf s 0).leaving = 0) ∧
    (let s := exWith fun w => { w with st := .draining }; (warpOf s 0 0).st = .draining ∧ warpQuiet true s 0 (warpOf s 0 0) = true) ∧
    (mwf {} (warpOf exSaving 0 0).lanes = true ∧ (warpOf exSaving 0 0).st = .saving ∧ ((coreOf exSaving 0).unitWait.any (·.1 == 14)) = false ∧
      (coreOf exSaving 0).unitFail.contains 14 = false ∧ exSaveRun exSaving = .ok () (exState exSaveRun exSaving)) ∧
    (let s := exWith fun w => { w with st := .exiting }; (warpOf s 0 0).st = .exiting ∧ warpQuiet false s 0 (warpOf s 0 0) = true ∧
      engineHolds (coreOf s 0) (warpOf s 0 0).serial = false ∧ (groupOf s 0 (warpOf s 0 0).group).recs = []) ∧
    let s := exWith fun w => { w with board := [⟨0, 9, 1, 4⟩] }; ∃ p ∈ (warpOf s 0 0).board, p.due ≠ 0 :=
  ⟨by decide +kernel, by decide +kernel, ⟨by decide +kernel, by decide +kernel, by decide +kernel, by decide +kernel, done_of (by decide +kernel)⟩,
    by decide +kernel, by decide +kernel⟩

/-! ### Witnesses: saves -/

/-- Core 0 leaves its context in a mode, its warp free to stop. -/
def exLeaving (mode : Nat) : State := modCtx (exCoreWith fun k => { k with leaving := mode }) 0 fun c => { c with record := exRecord, saving := mode }

theorem mayStop_of {s : State} {c slot : Nat} (h : decide (((warpOf s c slot).st = .ready ∨ (warpOf s c slot).st = .current ∨
    (warpOf s c slot).st = .parked) ∧ (warpOf s c slot).halting = false) = true) : MayStop s c slot := by
  simp only [decide_eq_true_eq] at h
  exact ⟨h.1, h.2⟩

/-- SaveSteps: the warp of a core that leaves, in either mode. -/
theorem witness_save_warps : (carriesSave 0 (.instructionBoundarySave 0) 1 ∧ carriesSave 0 (.reconvergencePreemption 0) 2) ∧
    (∀ m ∈ [1, 2], mwf {} (exLeaving m).cores = true ∧ mwf {} (coreOf (exLeaving m) 0).warps = true ∧ 0 ∈ heldCores (exLeaving m) 0 ∧
      (coreOf (exLeaving m) 0).leaving = m) ∧ MayStop (exLeaving 1) 0 0 ∧ MayStop (exLeaving 2) 0 0 ∧ reconverged (warpOf (exLeaving 2) 0 0) = true :=
  ⟨⟨Or.inl ⟨rfl, rfl⟩, Or.inr ⟨rfl, rfl⟩⟩, by decide +kernel, mayStop_of (by decide +kernel), mayStop_of (by decide +kernel), by decide +kernel⟩

/-- Core 0 with nothing left to save, its save area outside all pages. -/
def exLast : State := modCtx (modCore (exLeaving 2) 0 fun k => { k with warps := [], groups := [] }) 0 fun c => { c with record := exRecord + 2 ^ 127 }

/-- SaveSteps: the last core, with nothing left to save. -/
theorem witness_save_last : (carriesSave 0 (.reconvergencePreemption 0) 2 ∧ heldCores exLast 0 = [0] ∧ (coreOf exLast 0).leaving = 2 ∧
    coreDrained exLast 0 = true ∧ nothingHeld (coreOf exLast 0) = true ∧ (ctxOf exLast 0).saving ≠ 0) ∧
    ∃ u, imageEnds exLast u 0 0 ∧ mwf {} u.cores = true ∧ heldCores u 0 = [0] ∧ (ctxOf u 0).saving ≠ 0 ∧ queuesWait (ctxOf u 0) = false := by
  refine ⟨⟨Or.inr ⟨rfl, rfl⟩, by decide +kernel⟩, ?_⟩
  have h : (match runEngine 0 14 (writeImage 0 0) (deliverAll exLast) with
    | .failed u => decide (mwf {} u.cores = true ∧ heldCores u 0 = [0] ∧ (ctxOf u 0).saving ≠ 0 ∧ queuesWait (ctxOf u 0) = false)
    | _ => false) = true := by decide +kernel
  split at h
  · rename_i u e
    exact ⟨u, Or.inr e, of_decide_eq_true h⟩
  · simp at h

/-- SaveSteps: the timeouts, on the clk that they run out. -/
theorem witness_save_timeouts :
    (let s := { modCore (exLeaving 2) 0 (fun k => { k with leaveBy := 14000 }) with clk := 14000 }
     0 ∈ heldCores s 0 ∧ (coreOf s 0).leaving = 2 ∧ (coreOf s 0).leaveBy ≤ s.clk) ∧
    let s := { modCtx (modCore (exLeaving 2) 0 fun k => { k with leaveBy := 56000 }) 0 (fun c => { c with record := exRecord - 2 ^ 448 + 2 ^ 459 + 2 ^ 512 })
      with clk := 56000 }
    0 ∈ heldCores s 0 ∧ (coreOf s 0).leaving = 2 ∧ clusterBit 0 = 0 ∧ borrows s 0 0 = true ∧ (coreOf s 0).leaveBy ≤ s.clk := by
  decide +kernel

/-- A runnable context 1 that owns the first cluster. -/
def exRival (s : State) : State := modCtx s 1 fun c => { c with record := exRecord, queues := [(0, { tail := 8 })] }

/-- Context 0 past its slice; context 1, which owns the same cluster, waits; context 2 has borrowed core 1 of that cluster. -/
def exSliced : State :=
  { modCore (modCtx (exRival (modCtx exS 0 fun c => { c with record := exRecord })) 2 fun c =>
      { c with in_ := true, record := exRecord - 2 ^ 448 + 2 ^ 459 + 2 ^ 512 }) 1 (fun k => { k with holder := 3 }) with clk := 1400 }

/-- SaveSteps: a borrowed core whose owner is due; a slice that is over, for the context itself and for a borrower. -/
theorem witness_reclaim : (let s := exRival (modCtx exS 0 fun c => { c with record := exRecord - 2 ^ 448 + 2 ^ 459 + 2 ^ 512 })
      0 ∈ heldCores s 0 ∧ clusterBit 0 = 0 ∧ borrows s 0 0 = true ∧ (coreOf s 0).leaving = 0 ∧ ownedElsewhere s 0 0 = true) ∧
    SliceActs exSliced 0 ∧ pastSlice exSliced 0 ∧ (ctxOf exSliced 0).badrec = false ∧ nextOf 0 (rivals exSliced 0) = some 1 ∧ mwf {} exSliced.ctxs = true ∧
    (∀ x ∈ [0, 2], (ctxOf exSliced x).in_ = true ∧ (ctxOf exSliced x).saving = 0 ∧ x / 2 ∈ heldCores exSliced x ∧
      bitAt (homeBits exSliced 1) (clusterBit (x / 2)) = true ∧ (coreOf exSliced (x / 2)).leaving = 0 ∧ borrows exSliced x (x / 2) = (x == 2)) :=
  ⟨by decide +kernel, ⟨by decide +kernel, by decide +kernel, by decide +kernel⟩, by unfold pastSlice; decide +kernel, by decide +kernel, by decide +kernel,
    by decide +kernel, by decide +kernel⟩

/-- Context 0 with an entry to start, out of its cores. -/
def exOut : State := modCore (modCtx exTabled 0 fun c => { c with in_ := false, queues := [(0, { tail := 8 })] }) 0 fun k => { k with holder := 0, warps := [], groups := [] }

/-- SaveSteps: a context is switched in. -/
theorem witness_switch_in : (SliceActs exOut 0 ∧ wants exOut 0 = true ∧ ¬pastSlice exOut 0 ∧ lacking exOut 0 ≠ []) ∧
    ∃ r u, runCtx 0 (readRecord 0) exOut = .done r u ∧ (runnable (takeRecord 0 r u) 0 = true ∧
      (∀ c ∈ lacking (takeRecord 0 r u) 0, (coreOf (takeRecord 0 r u) c).holder = 0) ∧ lacking (takeRecord 0 r u) 0 ≠ [] ∧
      itsTurn (takeRecord 0 r u) 0 = true) := by
  refine ⟨⟨⟨by decide +kernel, by decide +kernel, by decide +kernel⟩, by decide +kernel, by unfold pastSlice; decide +kernel, by decide +kernel⟩, ?_⟩
  obtain ⟨r, u, h, k⟩ := done_ex (by decide +kernel : doneB (runCtx 0 (readRecord 0) exOut) (fun r u => decide (runnable (takeRecord 0 r u) 0 = true ∧
      (∀ c ∈ lacking (takeRecord 0 r u) 0, (coreOf (takeRecord 0 r u) c).holder = 0) ∧ lacking (takeRecord 0 r u) 0 ≠ [] ∧
      itsTurn (takeRecord 0 r u) 0 = true)) = true)
  exact ⟨r, u, h, of_decide_eq_true k⟩

/-- A saved warp. -/
def exSaved : Saved := { warp := { exWarp with st := .loading }, core := 0, slot := 0, group := { slots := [0], threads := 2, nbars := 4, padSize := 4096 }, compact := false }

/-- The state with it to restore. -/
def exRestoring : State :=
  modCore (modCtx exS 0 fun c => { c with record := exRecord, saved := [exSaved], savedCores := [(0, { groups := [(0, exSaved.group)] })] }) 0
    fun k => { k with warps := [], groups := [] }

/-- A saved warp of one thread with two registers, and what the save record of it holds. -/
def exRecorded : Warp := savedWarp { exWarp with
  st := .draining, regsN := 32, lanes := [(3, { exLane 0 with pc := 0x140, preds := 0x15, regs := [(1, 7), (31, 9)] })], masks := [(2, 8)] }

/-- 02 R40: a save record gives back the warp that was written. -/
theorem test_record_back : warpRestored (warpImage exRecorded) exRecorded = exRecorded := by decide +kernel

/-- SaveSteps: a restore at the last slot. -/
theorem witness_restore : ((ctxOf exRestoring 0).in_ = true ∧ (ctxOf exRestoring 0).saving = 0 ∧ (coreOf exRestoring 0).holder = 0 + 1 ∧
      (coreOf exRestoring 0).off = false ∧ (coreOf exRestoring 0).leaving = 0 ∧ borrows exRestoring 0 0 = false ∧
      sectorStays exRestoring 0 0 = true ∧ ((coreOf exRestoring 0).unitWait.any (·.1 == 14)) = false ∧
      (coreOf exRestoring 0).unitFail.contains 14 = false ∧ (ctxOf exRestoring 0).saved[0]? = some exSaved ∧
      ((ctxOf exRestoring 0).savedCores.any fun k => k.1 == exSaved.core) = true) ∧
    ∃ k e es wins u v w, readSaved 0 exSaved.core 0 (comeBack (ctxOf exRestoring 0) exSaved 0) exRestoring = .ok (k, e :: es, wins) u ∧
      e.warp.kind ≠ .handler ∧ (∀ y ∈ e :: es, y.warp.st = .loading) ∧ bringCore 0 exSaved.core 0 k u = some v ∧ (warpOf v 0 63).st = .free ∧
      installAll 0 0 wins (some 63) (e :: es) ((e :: es).map rootGroup).eraseDups v = some w := by
  refine ⟨by decide +kernel, ?_⟩
  have h : (match readSaved 0 exSaved.core 0 (comeBack (ctxOf exRestoring 0) exSaved 0) exRestoring with
    | .ok (k, e :: es, wins) u => decide (e.warp.kind ≠ .handler ∧ ∀ y ∈ e :: es, y.warp.st = .loading) &&
        match bringCore 0 exSaved.core 0 k u with
        | some v => decide ((warpOf v 0 63).st = .free) && (installAll 0 0 wins (some 63) (e :: es) ((e :: es).map rootGroup).eraseDups v).isSome
        | none => false
    | _ => false) = true := by decide +kernel
  split at h
  · rename_i k e es wins u hr
    simp only [Bool.and_eq_true, decide_eq_true_eq] at h
    obtain ⟨h1, h2⟩ := h
    split at h2
    · rename_i v hb
      simp only [Bool.and_eq_true, decide_eq_true_eq] at h2
      obtain ⟨w, hw⟩ := Option.isSome_iff_exists.1 h2.2
      exact ⟨k, e, es, wins, u, v, w, hr, h1.1, h1.2, hb, h2.1, hw⟩
    · simp at h2
  · simp at h

/-! ### Witnesses: tenancy -/

/-- The state with partition 1 free of sectors, for a word that gives it sector 1 with its record at physical 0. -/
def exPartWord : Word := 0x20000000000000

/-- TenancySteps, PARTCTL: refusals (busy; a sector set that is not legal; a sector of another partition), and an enable, a resize,
a disable. -/
theorem witness_partctl : exS.mgmt.ready = true ∧ ((partAt exS 0).en = true ∧ legalSectors (partSectors 0) = false ∧
      disjointSectors exS 1 (partSectors 0x10000000000000) = false) ∧
    ((partAt exS 1).busy = false ∧ (partAt exS 1).en = false ∧ legalSectors (partSectors exPartWord) = true ∧
      disjointSectors exS 1 (partSectors exPartWord) = true ∧ ∃ u, recordFound exPartWord exS u 0 0) ∧
    ((partAt exS 0).busy = false ∧ disjointSectors exS 0 (partSectors exPartWord) = true) ∧
    (workResident exS 0 = true ∧ (partAt exS 3).busy = false ∧ workResident exS 3 = false ∧ partSectors 0 ≠ 6 ∧ partSectors 0 ≠ 9 ∧
      partSectors 0x60000000000000 = 6 ∧ partSectors 0x90000000000000 = 9) := by
  refine ⟨by decide +kernel, by decide +kernel, ⟨by decide +kernel, by decide +kernel, by decide +kernel, by decide +kernel, ?_⟩, by decide +kernel,
    by decide +kernel⟩
  refine ⟨(partRecord exS ((sectorList (partSectors exPartWord)).headD 0) (partPrec exPartWord).toNat).2, ?_⟩
  have h : (partRecord exS ((sectorList (partSectors exPartWord)).headD 0) (partPrec exPartWord).toNat).1 = some (0, 0) := by decide +kernel
  unfold recordFound
  rw [← h]

/-- Partition 0 on its way from sector 0 to sector 1. -/
def exResizing : State := modPart exS 0 fun p => { p with busy := true, target := 2 }

/-- TenancySteps: a resize whose core still runs, and one whose cores have left. -/
theorem witness_resize : ((partAt exResizing 0).busy = true ∧
      (∀ e ∈ exResizing.ctxs, e.1 / 64 = 0 → e.2.ckpt.busy = false ∧ e.2.deadline = false) ∧ 0 ∈ departing exResizing 0 ∧
      (coreOf exResizing 0).leaving = 0) ∧
    let s := modCore exResizing 0 fun k => { k with holder := 0 }
    departing s 0 = [] ∧ (partAt s 0).sectors.getLsbD 0 = true ∧ (partAt s 0).target.getLsbD 0 = false := by decide +kernel

/-- TenancySteps, CTXCTL: SAVE in and out of its cores, RUN of a sound record, RESET. -/
theorem witness_ctxctl : (exTabled.mgmt.ready = true ∧ (ctxOf exTabled 0).in_ = true ∧ heldCores exTabled 0 ≠ [] ∧ (ctxOf exOut 0).in_ = false) ∧
    ∃ r u, runCtx 0 (readRecord 0) (modCtx exTabled 0 fun x => { x with stopped := false }) = .done r u ∧
      (bitAt r 384 && !recordSound r (partAt u (0 / 64)).sectors) = false := by
  refine ⟨by decide +kernel, ?_⟩
  obtain ⟨r, u, h, k⟩ := done_ex (by decide +kernel : doneB (runCtx 0 (readRecord 0) (modCtx exTabled 0 fun x => { x with stopped := false }))
    (fun r u => !(bitAt r 384 && !recordSound r (partAt u (0 / 64)).sectors)) = true)
  exact ⟨r, u, h, by simpa only [Bool.not_eq_true'] using k⟩

/-- A group whose record went to the host. -/
def exToHost : Group := { slots := [0], threads := 2, padSize := 4096, halted := true, recs := [{ addr := 0x2000, cause := 0x12, state := 4, lanes := 1, pc := 0x100 }] }

/-- TenancySteps: CTXCTL_RETRAP. -/
theorem witness_retrap : let s := exCoreWith fun k => { k with groups := [(0, exToHost)] }
    let r' : FaultRec := { addr := 0x2000, cause := 0x12, state := 0, lanes := 1, pc := 0x100, given := false }
    s.mgmt.ready = true ∧ (∀ e ∈ s.cores, e.1 ≠ 0 → e.2.groups = []) ∧ (coreOf s 0).groups = [(0, exToHost)] ∧ mwf {} s.cores = true ∧ mwf {} s.ctxs = true ∧
    (ctxOf s 0).saved = [] ∧ exToHost.ctx = 0 ∧ exToHost.recs = [{ addr := 0x2000, cause := 0x12, state := 4, lanes := 1, pc := 0x100 }] ∧
    okB (vwrite ⟨0, 0, 0⟩ 0x2000 (leBytes 64 (0 / 8 * 8))) (modGroup s 0 0 fun k => { k with tab := some (trapBase s 0), recs := [r'] }) = true := by
  decide +kernel

/-- TenancySteps: a checkpoint at each of its triggers. -/
theorem witness_triggers : (let k : Ckpt := { en := true, period := 1 }; k.en = true ∧ k.period ≠ 0 ∧ k.last + k.period.toNat * 1400000 ≤ 1400000) ∧
    (let k : Ckpt := { en := true, steps := 2, count := 2 }; k.en = true ∧ k.steps ≠ 0 ∧ k.steps.toNat ≤ k.count) ∧
    exS.mgmt.ready = true := by decide +kernel

/-! The hash exchange of a checkpoint reads all of a save area: that its accesses are answered is proved, not computed. -/

/-- Every access of context 0 below 2^33 is answered: one page maps all addresses to themselves, and no granule is damaged. -/
structure Clean (s : State) : Prop where
  ctx : ctxOf s 0 = { gen := 1, ckpt := (ctxOf s 0).ckpt, heads := (ctxOf s 0).heads }
  part : partAt s 0 = { en := true, sectors := 1 }
  tlb : (sectorOf s 0).tlb = [⟨0, 1, 57, 0, 0, 0, true, true, true, false⟩]
  noCore : (coreOf s 1920).tlb = []
  whole : (sectorOf s 0).damaged = [] ∧ (sectorOf s 0).scrub = [] ∧ (sectorOf s 0).sramBad = []

/-- A computation is answered wherever accesses are. -/
def Answers {α : Type} (m : M α) : Prop := ∀ s, Clean s → ∃ a t, m s = .ok a t ∧ Clean t

theorem answers_pure {α : Type} (a : α) : Answers (pure a) := fun s h => ⟨a, s, rfl, h⟩

theorem bind_ok {α β : Type} {m : M α} {f : α → M β} {s t : State} {a : α} (h : m s = .ok a t) : (m >>= f) s = f a t := by
  show EStateM.bind m f s = _
  simp only [EStateM.bind, h]

theorem answers_bind {α β : Type} {m : M α} {f : α → M β} (hm : Answers m) (hf : ∀ a, Answers (f a)) : Answers (m >>= f) := by
  intro s h
  obtain ⟨a, t, e, ht⟩ := hm s h
  obtain ⟨b, u, e', hu⟩ := hf a t ht
  refine ⟨b, u, ?_, hu⟩
  show EStateM.bind m f s = _
  simp only [EStateM.bind, e, e']

theorem answers_get {β : Type} {f : State → M β} (hf : ∀ s, Clean s → Answers (f s)) : Answers (get >>= f) := by
  intro s h
  obtain ⟨b, u, e, hu⟩ := hf s h s h
  exact ⟨b, u, e, hu⟩

theorem answers_modify {f : State → State} (hf : ∀ s, Clean s → Clean (f s)) : Answers (modify f) := fun s h => ⟨(), f s, rfl, hf s h⟩

theorem answers_mapM {α β : Type} {f : α → M β} (l : List α) (hf : ∀ a ∈ l, Answers (f a)) : Answers (l.mapM f) := by
  induction l with
  | nil => exact answers_pure []
  | cons a l ih =>
    rw [List.mapM_cons]
    exact answers_bind (hf a (by simp)) fun b => answers_bind (ih fun x hx => hf x (by simp [hx])) fun _ => answers_pure _

theorem answers_forIn {α β : Type} {f : α → β → M (ForInStep β)} (l : List α) (b : β) (hf : ∀ a ∈ l, ∀ b, Answers (f a b)) :
    Answers (forIn l b f) := by
  induction l generalizing b with
  | nil => exact answers_pure b
  | cons a l ih =>
    rw [List.forIn_cons]
    refine answers_bind (hf a (by simp) b) fun r => ?_
    cases r with
    | done b => exact answers_pure b
    | yield b => exact ih b fun x hx => hf x (by simp [hx])

/-- The unit that writes a checkpoint of context 0. -/
def exSaver : Who := ⟨1920, 0, 15⟩

theorem home_zero {pa : Nat} (hp : pa < 2 ^ 34) : backed pa = true ∧ homeSector pa = 0 ∧ isDevice pa = false := by
  have h1 : pa / 2 ^ 36 = 0 := Nat.div_eq_of_lt (by omega)
  have h2 : pa % 2 ^ 36 = pa := Nat.mod_eq_of_lt (by omega)
  have h3 : pa < 2 ^ 39 := by omega
  refine ⟨?_, ?_, ?_⟩
  · simp only [backed, h3, ↓reduceIte, h2, decide_eq_true_eq]; omega
  · simp only [homeSector, h3, ↓reduceIte, h1]
  · simp only [isDevice, decide_eq_false_iff_not]; omega

theorem clean_hurt {s : State} (h : Clean s) {pa : Nat} (hp : pa < 2 ^ 34) (n : Nat) : hurtGranules s pa n = [] := by
  have hf : ∀ l : List Nat, l.filter [].contains = [] := fun l => by simp
  simp only [hurtGranules, (home_zero hp).2.1, h.whole.1, h.whole.2.2, hf, List.map_nil, List.append_nil]

theorem clean_found {s : State} (h : Clean s) {pa : Nat} (hp : pa < 2 ^ 34) (n : Nat) :
    found exSaver s pa n 0 = ((List.range n).map fun i => readByte s 0 (pa + i), []) := by
  have hx : secOf exSaver.core = 0 := by decide
  simp only [found, (home_zero hp).1, (home_zero hp).2.1, h.whole.2.1, hx, clean_hurt h hp, inGranule, Bool.not_true, Bool.false_eq_true, ↓reduceIte,
    List.contains_nil, List.any_nil, List.map_nil]

theorem clean_readPhys {s : State} (h : Clean s) {pa : Nat} (hp : pa < 2 ^ 34) (n : Nat) :
    readPhys exSaver pa n 0 s = .ok ((List.range n).map fun i => readByte s 0 (pa + i)) s := by
  unfold readPhys
  rw [clean_found h hp]
  rfl

theorem clean_read (pa n : Nat) (hp : pa < 2 ^ 34) : Answers (readPhys exSaver pa n) := fun s h => ⟨_, s, clean_readPhys h hp n, h⟩

theorem clean_translate {va kind : Nat} (hk : kind = 0 ∨ kind = 1) (hp : va < 2 ^ 34) {s : State} (h : Clean s) :
    Machine.translate exSaver (.ofNat 64 va) kind s = .ok va s := by
  have hv : va % 18446744073709551616 = va := Nat.mod_eq_of_lt (by omega)
  have hd : va / 144115188075855872 = 0 := Nat.div_eq_of_lt (by omega)
  have hm : va % 144115188075855872 = va := Nat.mod_eq_of_lt (by omega)
  have hn : ¬(144115188075855872 ≤ va) := by omega
  have hx : secOf 1920 = 0 := by decide
  have hr : (ctxOf s 0).retired = false := by rw [h.ctx]
  have hg : (ctxOf s 0).gen = 1 := by rw [h.ctx]
  obtain ⟨hb, hh, -⟩ := home_zero hp
  have hp' : samePart s 0 0 = true := by simp [samePart]
  have hit : tlbHit (sectorOf s 0).tlb 0 1 va = some ⟨0, 1, 57, 0, 0, 0, true, true, true, false⟩ := by simp [tlbHit, h.tlb, hd]
  have hno : tlbHit (coreOf s 1920).tlb 0 1 va = none := by simp [tlbHit, h.noCore]
  rcases hk with rfl | rfl <;>
  simp [Machine.translate, bind, EStateM.bind, get, getThe, MonadStateOf.get, EStateM.get, pure, EStateM.pure, hv, hm, hn, hx, hr, hg,
    hit, hno, exSaver, hb, hh, hp']

theorem pieces_within (f a n : Nat) : ∀ p ∈ pieces f a n, p.1 < a + n := by
  induction f generalizing a n with
  | zero => simp [pieces]
  | succ f ih =>
    intro p hp
    unfold pieces at hp
    split at hp
    · simp at hp
    · rename_i h
      simp only [beq_iff_eq] at h
      rcases List.mem_cons.1 hp with rfl | hp
      · show a < a + n; omega
      · have := ih _ _ p hp; omega

theorem clean_sink {s : State} (h : Clean s) (va : Nat) : sinkWorld s exSaver va = none := by
  have : recField s exSaver.ctx 255 192 = 0 := by
    show fld (ctxOf s 0).record 255 192 = 0
    rw [h.ctx]
    show fld 0 255 192 = 0
    decide
  simp [sinkWorld, this]

theorem answers_bindQ {α β : Type} {m : M α} {f : α → M β} (Q : α → Prop) (hm : ∀ s, Clean s → ∃ a t, m s = .ok a t ∧ Clean t ∧ Q a)
    (hf : ∀ a, Q a → Answers (f a)) : Answers (m >>= f) := by
  intro s h
  obtain ⟨a, t, e, ht, hq⟩ := hm s h
  obtain ⟨b, u, e', hu⟩ := hf a hq t ht
  refine ⟨b, u, ?_, hu⟩
  show EStateM.bind m f s = _
  simp only [EStateM.bind, e, e']

theorem clean_causal {f : State → Nat → State} (hf : ∀ s d, ∃ c, f s d = { s with causal := c }) {s : State} (h : Clean s) (l : List Nat) :
    Clean (l.foldl f s) := by
  induction l generalizing s with
  | nil => exact h
  | cons d l ih =>
    obtain ⟨c, e⟩ := hf s d
    rw [List.foldl_cons, e]
    exact ih ⟨h.ctx, h.part, h.tlb, h.noCore, h.whole⟩

theorem clean_apply {s : State} (h : Clean s) (pa : Nat) (bs : List Byte) : Clean (applyWrite s 0 pa bs) := by
  unfold applyWrite
  refine clean_causal ?_ ?_ _
  · exact fun s d => ⟨_, rfl⟩
  refine ⟨h.ctx, h.part, ?_, h.noCore, ?_⟩
  · show (mget {} (mput {} s.sectors 0 _) 0).tlb = _
    rw [mget_mput_self]; exact h.tlb
  · show (mget {} (mput {} s.sectors 0 _) 0).damaged = _ ∧ (mget {} (mput {} s.sectors 0 _) 0).scrub = _ ∧ (mget {} (mput {} s.sectors 0 _) 0).sramBad = _
    rw [mget_mput_self]; exact h.whole

theorem clean_store {s : State} (h : Clean s) {pa : Nat} (hp : pa < 2 ^ 34) (bs : List Byte) : Clean (storeAt s 0 pa bs) := by
  have e : scrubFirst s pa = s := by simp [scrubFirst, (home_zero hp).2.1, h.whole.2.1]
  have e' : repair s 0 pa bs.length = s := by simp [repair, clean_hurt h hp]
  rw [storeAt, e, e']
  exact clean_apply h pa bs

theorem clean_vwrite (va : Nat) (bs : List Byte) (hp : va + bs.length ≤ 2 ^ 34) : Answers (vwrite exSaver va bs) := by
  unfold vwrite
  refine answers_get fun s hs => ?_
  rw [clean_sink hs]
  refine answers_bind (answers_forIn _ _ fun p hm b => ?_) fun r => answers_pure _
  have hlt := pieces_within _ _ _ p hm
  have ha : p.1 < 2 ^ 34 := by omega
  refine answers_bindQ (· = p.1) (fun t ht => ⟨_, t, clean_translate (Or.inr rfl) ha ht, ht, rfl⟩) fun pa hpa => ?_
  subst hpa
  simp only [(home_zero ha).2.2, (home_zero ha).1, Bool.false_eq_true, ↓reduceIte]
  exact answers_bind (answers_modify fun t ht => clean_store ht ha _) fun _ => answers_pure _


theorem pieces_sum (f a n : Nat) : ((pieces f a n).map (·.2)).sum ≤ n := by
  induction f generalizing a n with
  | zero => simp [pieces]
  | succ f ih =>
    unfold pieces
    split
    · simp
    · have := ih (a + min n (65536 - a % 65536)) (n - min n (65536 - a % 65536))
      simp only [List.map_cons, List.sum_cons]
      omega

theorem clean_read_length (pa n : Nat) (hp : pa < 2 ^ 34) (s : State) (h : Clean s) :
    ∃ b t, readPhys exSaver pa n 0 s = .ok b t ∧ Clean t ∧ b.length = n :=
   ⟨_, s, clean_readPhys h hp n, h, by simp⟩

/-- The body of a read's loop. -/
def exReadBody (p : Nat × Nat) (out : List Byte) : M (ForInStep (List Byte)) := do
  let pa ← Machine.translate exSaver (.ofNat 64 p.1) 0
  if isDevice pa then
    let out := out ++ leBytes p.2 (readRegister (← get) (pa / 8 * 8)).toNat
    modify (afterRead (pa / 8 * 8))
    return .yield out
  else return .yield (out ++ (← readPhys exSaver pa p.2))

theorem clean_step {p : Nat × Nat} (ha : p.1 < 2 ^ 34) {s : State} (h : Clean s) {out : List Byte} :
    exReadBody p out s = .ok (.yield (out ++ (List.range p.2).map fun i => readByte s 0 (p.1 + i))) s := by
  unfold exReadBody
  rw [bind_ok (clean_translate (Or.inl rfl) ha h)]
  simp only [(home_zero ha).2.2, Bool.false_eq_true, ↓reduceIte]
  rw [bind_ok (clean_readPhys h ha p.2)]
  rfl

theorem clean_body (ps : List (Nat × Nat)) (hp : ∀ p ∈ ps, p.1 < 2 ^ 34) (out : List Byte) (s : State) (h : Clean s) :
    ∃ b, forIn ps out exReadBody s = .ok b s ∧ b.length = out.length + (ps.map (·.2)).sum := by
  induction ps generalizing out with
  | nil => exact ⟨out, rfl, by simp⟩
  | cons p ps ih =>
    have ha := hp p (by simp)
    obtain ⟨c, e', hc⟩ := ih (fun q hq => hp q (by simp [hq])) (out ++ (List.range p.2).map fun i => readByte s 0 (p.1 + i))
    refine ⟨c, ?_, by simp only [hc, List.length_append, List.length_map, List.length_range, List.map_cons, List.sum_cons]; omega⟩
    rw [List.forIn_cons, bind_ok (clean_step ha h)]
    exact e'

/-- A read below 2^33 is answered and changes nothing. -/
theorem clean_vread (va n : Nat) (hp : va + n ≤ 2 ^ 34) (s : State) (h : Clean s) :
    ∃ b, vread exSaver va n s = .ok b s ∧ b.length ≤ n := by
  obtain ⟨b, e, hb⟩ := clean_body (pieces (n / 65536 + 2) va n) (fun p hm => by have := pieces_within _ _ _ p hm; omega) [] s h
  have hs := pieces_sum (n / 65536 + 2) va n
  refine ⟨b, ?_, by simp only [List.length_nil] at hb; omega⟩
  unfold vread
  rw [bind_ok (show (get : M State) s = .ok s s from rfl)]
  simp only [clean_sink h]
  show EStateM.bind _ _ s = _
  simp only [EStateM.bind]
  unfold exReadBody at e
  erw [e]
  rfl

/-- The state of a checkpoint whose context is saved. -/
def exCkpt (phase : Nat) : State :=
  { sectors := [(0, { tlb := [⟨0, 1, 57, 0, 0, 0, true, true, true, false⟩] })], parts := [(0, { en := true, sectors := 1 })], clk := 14000000
    ctxs := [(0, { ckpt := { busy := true, phase := phase } })] }

theorem exCkpt_clean (phase : Nat) : Clean (exCkpt phase) := ⟨rfl, rfl, rfl, rfl, rfl, rfl, rfl⟩

theorem clean_who {s : State} (h : Clean s) : ctxWho s 0 15 = exSaver := by
  unfold ctxWho
  have : ctxSector s 0 = 0 := by
    show (([0, 1, 2, 3] : List Nat).find? fun x => (partAt s 0).sectors.getLsbD x).getD 0 = 0
    rw [h.part]
    show (([0, 1, 2, 3] : List Nat).find? fun x => (1 : BitVec 4).getLsbD x).getD 0 = 0
    decide
  rw [this]; rfl

/-- The descriptor that it reads: nothing but zeros, which stand for 256 ranks. -/
def exDesc : CkptDesc := { group := 0, rank := 0, nrep := 256, pkg := 0, store := 0, manifest := 0, ranges := List.replicate 16 (0, 0) }

theorem clean_record {s : State} (h : Clean s) (hi lo : Nat) : recField s exSaver.ctx hi lo = 0 := by
  show fld (ctxOf s 0).record hi lo = 0
  rw [h.ctx]
  show fld 0 hi lo = 0
  simp only [fld, Nat.zero_div, Nat.zero_mod]

/-- In empty memory the descriptor is that one. -/
theorem clean_desc {s : State} (h : Clean s) (hm : (sectorOf s 0).mem = []) : ckptDesc exSaver s = .ok exDesc s := by
  have hz : (List.range 288).map (fun i => readByte s 0 (0 + i)) = List.replicate 288 0 := by
    rw [List.eq_replicate_iff]
    refine ⟨by rw [List.length_map, List.length_range], fun x hx => ?_⟩
    obtain ⟨i, hi, rfl⟩ := List.mem_map.1 hx
    have : homeSector (0 + i) = 0 := (home_zero (by have := List.mem_range.1 hi; omega)).2.1
    simp only [readByte, this]
    simp [hm, mget]
  have hv : vread exSaver 0 288 s = .ok (List.replicate 288 0) s := by
    unfold vread
    rw [bind_ok (show (get : M State) s = .ok s s from rfl)]
    simp only [clean_sink h, show pieces (288 / 65536 + 2) 0 288 = [(0, 288)] from by decide]
    rw [List.forIn_cons]
    have e := clean_step (p := (0, 288)) (by decide) h (out := [])
    unfold exReadBody at e
    show EStateM.bind (EStateM.bind _ _) _ s = _
    simp only [EStateM.bind]
    erw [e]
    simp only [hz, List.nil_append]
    rfl
  unfold ckptDesc
  rw [bind_ok (show (get : M State) s = .ok s s from rfl), clean_record h]
  have hn : vreadN exSaver 0 288 s = .ok 0 s := by
    unfold vreadN
    rw [bind_ok hv]
    rw [show ofBytes (List.replicate 288 0) = 0 from by decide +kernel]
    rfl
  rw [bind_ok hn]
  have hd : ∀ k, 0 / 2 ^ (64 * k) % 2 ^ 64 = 0 := fun k => by simp
  simp only [hd]
  rfl

/-- Its chunks: the save area alone. -/
theorem clean_chunks {s : State} (h : Clean s) : ckptChunks s 0 exDesc = (List.range 1536).map fun i => chunkLen * i := by
  unfold ckptChunks
  rw [show recField s 0 127 64 = 0 from clean_record h 127 64]
  simp [exDesc, chunkLen]

theorem clean_hashes (l : List Nat) (hl : ∀ a ∈ l, a + chunkLen ≤ 2 ^ 34) (s : State) (h : Clean s) :
    ∃ b, l.mapM (chunkHash exSaver) s = .ok b s ∧ b.length = l.length := by
  induction l with
  | nil => exact ⟨[], rfl, rfl⟩
  | cons a l ih =>
    obtain ⟨b, e, -⟩ := clean_vread a chunkLen (hl a (by simp)) s h
    obtain ⟨c, e', hc⟩ := ih fun x hx => hl x (by simp [hx])
    have e1 : chunkHash exSaver a s = .ok (ofBE (sha256 b)) s := by
      unfold chunkHash
      rw [bind_ok e]
      rfl
    refine ⟨ofBE (sha256 b) :: c, ?_, by simp [hc]⟩
    rw [List.mapM_cons, bind_ok e1, bind_ok e']
    rfl

theorem length_eraseDups : ∀ (n : Nat) (l : List Nat), l.length ≤ n → l.eraseDups.length ≤ l.length
  | _, [], _ => by simp
  | n + 1, a :: l, h => by
    rw [List.eraseDups_cons]
    have h1 := List.length_filter_le (fun b => !b == a) l
    have h2 := length_eraseDups n (l.filter fun b => !b == a) (by simp only [List.length_cons] at h; omega)
    simp only [List.length_cons]
    omega

/-- The loop that writes the chunks and the manifest is answered, whatever the hashes, while the offsets stay below 2^33. -/
theorem answers_write (hashes : List Nat) (place : Nat → Nat × Nat × Bool) (hp : ∀ k < 1536, (place k).1 ≤ 2 ^ 33) :
    Answers (ckptWrite exSaver exDesc ((List.range 1536).map fun i => chunkLen * i) hashes place) := by
  unfold ckptWrite
  refine answers_bind (answers_forIn _ _ fun p hm b => ?_) fun _ => answers_pure _
  obtain ⟨a, k⟩ := p
  have hk : k < 1536 ∧ a ≤ chunkLen * 1536 := by
    rw [List.mem_zipIdx_iff_getElem?] at hm
    simp only [List.getElem?_map, Option.map_eq_some_iff] at hm
    obtain ⟨j, hj, rfl⟩ := hm
    obtain ⟨h1, h2⟩ := List.getElem?_eq_some_iff.1 hj
    rw [List.getElem_range] at h2
    rw [List.length_range] at h1
    exact ⟨h1, Nat.mul_le_mul_left _ (by omega)⟩
  have h3 : chunkLen = 2097152 := rfl
  have hs : Answers (storeChunk exSaver exDesc a (place k).1) := by
    unfold storeChunk
    refine answers_bindQ (fun b => b.length ≤ chunkLen) (fun s h => by
      obtain ⟨b, e, hb⟩ := clean_vread a chunkLen (by omega) s h
      exact ⟨b, s, e, h, hb⟩) fun bs hb => ?_
    refine answers_get fun s h => ?_
    rw [if_pos (by simp [clean_record h])]
    have := hp k hk.1
    exact clean_vwrite _ _ (by show 0 + (place k).1 + bs.length ≤ _; omega)
  have hw : Answers (vwrite exSaver (exDesc.manifest + 64 + 48 * k) (beBytes 32 (hashes.getD k 0) ++ leBytes 8 (place k).1 ++ leBytes 8 (place k).2.1)) := by
    have l1 : ∀ n v, (leBytes n v).length = n := by
      intro n; induction n with
      | zero => intro v; rfl
      | succ n ih => intro v; simp [leBytes, ih]
    have l2 : ∀ v, (beBytes 32 v).length = 32 := fun v => by simp [beBytes, l1]
    refine clean_vwrite _ _ ?_
    simp only [List.length_append, l1, l2]
    show 0 + 64 + 48 * k + (32 + 8 + 8) ≤ _
    omega
  split
  rename_i a' k' e
  cases e
  split
  rename_i off owner mine hpl
  rw [hpl] at hs hw
  split
  · exact answers_bind hs fun _ => answers_bind hw fun _ => answers_pure _
  · exact answers_bind hw fun _ => answers_pure _

/-- The chunks' hashes are formed, and nothing changes. -/
theorem clean_own {s : State} (h : Clean s) (hm : (sectorOf s 0).mem = []) :
    ∃ b, ckptOwn exSaver s = .ok (exDesc, b) s ∧ b.length = 1536 := by
  obtain ⟨b, e, hb⟩ := clean_hashes ((List.range 1536).map fun i => chunkLen * i) (by
    intro a ha
    obtain ⟨i, hi, rfl⟩ := List.mem_map.1 ha
    have := List.mem_range.1 hi
    show 2097152 * i + 2097152 ≤ _
    omega) s h
  refine ⟨b, ?_, by simpa using hb⟩
  unfold ckptOwn
  rw [bind_ok (clean_desc h hm), bind_ok (show (get : M State) s = .ok s s from rfl),
    show ckptChunks s exSaver.ctx exDesc = (List.range 1536).map fun i => chunkLen * i from clean_chunks h, bind_ok e]
  rfl

/-- One rank has hashes, all others none: together they are that rank's. -/
theorem agreed_length (b : List Nat) :
    ((List.range 256).map fun r => if r = 0 then b else ([] : List (List Nat)).getD r []).flatten.length = b.length := by
  have h : ((List.range 255).map Nat.succ).map (fun r => if r = 0 then b else ([] : List (List Nat)).getD r []) = List.replicate 255 [] := by
    rw [List.eq_replicate_iff]
    refine ⟨by rw [List.length_map, List.length_map, List.length_range], fun x hx => ?_⟩
    obtain ⟨i, hi, rfl⟩ := List.mem_map.1 hx
    obtain ⟨j, -, rfl⟩ := List.mem_map.1 hi
    rfl
  rw [show List.range 256 = 0 :: (List.range 255).map Nat.succ from List.range_succ_eq_map, List.map_cons, h, List.flatten_cons,
    List.length_append, List.flatten_replicate_nil]
  rfl

/-- The exchange of a world whose other ranks sent no hash is answered. -/
theorem clean_agreed {s : State} (h : Clean s) (hm : (sectorOf s 0).mem = []) {b : List Nat} (hb : b.length ≤ 1536) :
    ∃ hs u, ckptAgreed 0 b [] s = .ok hs u ∧ Clean u := by
  let all := (List.range exDesc.nrep).map fun r => if r = exDesc.rank then b else ([] : List (List Nat)).getD r []
  obtain ⟨_, v, e, hv⟩ := answers_write b (fun k => (chunkLen * all.flatten.eraseDups.idxOf (b.getD k 0), (firstPair all (b.getD k 0)).1,
    firstPair all (b.getD k 0) == (exDesc.rank, k))) (by
      intro k _
      have h1 := List.idxOf_le_length (a := b.getD k 0) (l := all.flatten.eraseDups)
      have h2 := length_eraseDups _ all.flatten (Nat.le_refl _)
      have h3 : all.flatten.length = b.length := agreed_length b
      show 2097152 * _ ≤ _
      omega) s h
  refine ⟨all.flatten.eraseDups, v, ?_, hv⟩
  unfold ckptAgreed
  rw [bind_ok (show (get : M State) s = .ok s s from rfl), clean_who h, bind_ok (clean_desc h hm)]
  rw [bind_ok (show (get : M State) s = .ok s s from rfl), bind_ok (show (get : M State) s = .ok s s from rfl), clean_who h, clean_chunks h]
  exact bind_ok e

/-- TenancySteps: CKPT_HASHES_RECEIVED and CKPT_PEER_TIMEOUT of a saved context, in each phase. -/
theorem witness_ckpt_phases : (∀ ph ∈ [0, 1, 2], CkptAt (exCkpt ph) 0 ph) ∧
    (ctxOf (exCkpt 1) 0).ckpt.since + 14000000 ≤ (exCkpt 1).clk ∧ (∀ r ∈ (exCkpt 2).sent, r.ctx ≠ 0) ∧
    ckptDesc (ctxWho (exCkpt 2) 0 15) (deliverAll (exCkpt 2)) = .ok exDesc (exCkpt 2) ∧
    ∃ v, vwrite (ctxWho (exCkpt 2) 0 15) exDesc.manifest (leBytes 8 (1536 + 0)) (exCkpt 2) = .ok () v := by
  refine ⟨?_, by decide +kernel, by decide +kernel, ?_, ?_⟩
  · intro ph hp
    have h := List.all_eq_true.1 (by decide +kernel : [0, 1, 2].all (fun ph => decide (((ctxOf (exCkpt ph) 0).ckpt.busy = true ∧
      (ctxOf (exCkpt ph) 0).in_ = false ∧ (ctxOf (exCkpt ph) 0).saving = 0) ∧ ((ctxOf (exCkpt ph) 0).wait = none ∧ (ctxOf (exCkpt ph) 0).failed = false) ∧
      (ctxOf (exCkpt ph) 0).ckpt.phase = ph)) = true) ph hp
    simp only [decide_eq_true_eq] at h
    exact ⟨h.1, h.2.1, h.2.2⟩
  · rw [clean_who (exCkpt_clean 2)]
    exact clean_desc (exCkpt_clean 2) rfl
  · rw [clean_who (exCkpt_clean 2)]
    obtain ⟨_, v, e, -⟩ := clean_vwrite exDesc.manifest (leBytes 8 (1536 + 0)) (by decide) _ (exCkpt_clean 2)
    exact ⟨v, e⟩

/-- TenancySteps: a rank's hashes are formed and sent, and the exchange of a world whose other ranks sent none follows. -/
theorem witness_ckpt_send : ∃ own u v, ckptOwn (ctxWho (exCkpt 0) 0 15) (exCkpt 0) = .ok (exDesc, own) u ∧
    v = (modCkpt u 0 fun k => { k with phase := 1, since := u.clk, own := own, group := exDesc.group }) ∧
    (ctxOf u 0).wait = none ∧ (ctxOf u 0).failed = false ∧ ∃ hs w, ckptAgreed 0 own [] v = .ok hs w := by
  obtain ⟨b, e, hb⟩ := clean_own (exCkpt_clean 0) rfl
  obtain ⟨hs, w, e', -⟩ := clean_agreed (s := modCkpt (exCkpt 0) 0 fun k => { k with phase := 1, since := (exCkpt 0).clk, own := b, group := exDesc.group })
    (b := b) ⟨rfl, rfl, rfl, rfl, rfl, rfl, rfl⟩ rfl (by omega)
  rw [clean_who (exCkpt_clean 0)]
  exact ⟨b, exCkpt 0, _, e, rfl, rfl, rfl, hs, w, e'⟩

/-- TenancySteps, CKPT_HASHES_RECEIVED: the exchange of a waiting rank is answered. -/
theorem witness_ckpt_agreed : ∃ hs u, ckptAgreed 0 (ctxOf (exCkpt 1) 0).ckpt.own [] (exCkpt 1) = .ok hs u := by
  obtain ⟨hs, u, e, -⟩ := clean_agreed (exCkpt_clean 1) rfl (b := []) (Nat.zero_le _)
  exact ⟨hs, u, e⟩

/-- TenancySteps, CKPT_PEER_TIMEOUT: a silent exchange's writes are answered. -/
theorem witness_ckpt_alone : ∃ hs u, ckptAlone 0 (ctxOf (exCkpt 1) 0).ckpt.own (ctxOf (exCkpt 1) 0).ckpt.hashes (exCkpt 1) = .ok hs u := by
  have h := exCkpt_clean 1
  obtain ⟨_, v, e, -⟩ := answers_write [] (fun k => (chunkLen * (([] : List Nat).length + k), exDesc.rank, true))
    (by intro k hk; show 2097152 * (0 + k) ≤ _; omega) _ h
  refine ⟨[], v, ?_⟩
  show ckptAlone 0 [] [] (exCkpt 1) = _
  unfold ckptAlone
  rw [bind_ok (show (get : M State) (exCkpt 1) = .ok _ _ from rfl), clean_who h, bind_ok (clean_desc h rfl)]
  rw [bind_ok (show (get : M State) (exCkpt 1) = .ok _ _ from rfl), bind_ok (show (get : M State) (exCkpt 1) = .ok _ _ from rfl), clean_who h,
    clean_chunks h]
  exact bind_ok e

/-! ### Witnesses: registers -/

/-- The state with queue 3 of context 0 as given. -/
def exQueue (k : LQueue) : State := modCtx exS 0 fun c => { c with queues := [(3, k)] }

/-- The state whose context 0 is out of its cores and stays so, with queue 3 as given. -/
def exShadow (k : LQueue) : State := modCtx exS 0 fun c => { c with in_ := false, stopped := true, queues := [(3, k)] }

/-- RegisterWrites, LQTAIL and LQCTL: a shadowed queue and one that is not; a queue with an entry that runs, one whose entries have
ended, one with a pending error. -/
theorem witness_queue_writes :
    (exShadow {}).mgmt.ready = true ∧ shadowed (exShadow {}) 0 = true ∧ (exQueue {}).mgmt.ready = true ∧ shadowed (exQueue {}) 0 = false ∧
    (∃ e ∈ (queueOf (exQueue { entries := [{ off := 0, fin := 256, kind := 0 }] }) 0 3).entries, e.ended = false) ∧
    (∀ e ∈ (queueOf (exQueue { tail := 512, entries := [{ off := 0, fin := 256, kind := 0, ended := true }] }) 0 3).entries, e.ended = true) ∧
    (let s := exQueue { tail := 512, erroff := 256, errlen := 256, err := true, next := 256 }
     shadowed s 0 = false ∧ (queueOf s 0 3).err = true ∧ (queueOf s 0 3).errlen ≠ 0 ∧ (∀ e ∈ (queueOf s 0 3).entries, e.ended = true)) ∧
    (let s := exQueue { tail := 512, erroff := 512, errlen := 0, err := true, next := 512 }
     shadowed s 0 = false ∧ (queueOf s 0 3).err = true ∧ (queueOf s 0 3).errlen = 0) := by
  decide +kernel

/-- RegisterWrites: each write that is a step with its own name, at the last of its registers. -/
theorem witness_routed : Routed exS (8 * 3) 5 (.pglimWrite 3 5) ∧ Routed exS (0x40 + 8 * 3) (1#64 <<< 63) (.partctlEnable 3 (1#64 <<< 63)) ∧
    Routed exS 0x40 (3#64 <<< 62 ||| 1#64 <<< 53) (.partitionResize 0 (3#64 <<< 62 ||| 1#64 <<< 53)) ∧ Routed exS 0x40 0 (.partctlDisable 0 0) ∧
    Routed exS 0x100 7 (.ptpctlWrite 7) ∧ Routed exS 0x200 1 .bootStart ∧ Routed exS (0x300 + 8 * 3) 9 (.attnonceWrite 3 9) ∧
    Routed exS 0x320 1 .attestRequest ∧ Routed exS (0x10000 * 4 + 16 * 31 + 8) 2 (.rwinctlWrite 3 31 2) ∧
    Routed exS (0x10000 * 4 + 0x400 + 16) 3 (.hbmrtctlWrite 7 3) := by
  refine ⟨Or.inl ⟨3, by decide, rfl, rfl⟩, Or.inr (Or.inl ⟨3, by decide, rfl, Or.inl (by decide +kernel)⟩),
    Or.inr (Or.inl ⟨0, by decide, rfl, Or.inr (Or.inl (by decide +kernel))⟩), Or.inr (Or.inl ⟨0, by decide, rfl, Or.inr (Or.inr (by decide +kernel))⟩),
    Or.inr (Or.inr (Or.inl ⟨rfl, rfl⟩)), Or.inr (Or.inr (Or.inr (Or.inl ⟨rfl, by decide, rfl⟩))),
    Or.inr (Or.inr (Or.inr (Or.inr (Or.inl ⟨3, by decide, rfl, rfl⟩)))), Or.inr (Or.inr (Or.inr (Or.inr (Or.inr (Or.inl ⟨rfl, by decide, rfl⟩))))),
    Or.inr (Or.inr (Or.inr (Or.inr (Or.inr (Or.inr (Or.inl ⟨3, 31, by decide, by decide, rfl, rfl⟩)))))),
    Or.inr (Or.inr (Or.inr (Or.inr (Or.inr (Or.inr (Or.inr (Or.inl ⟨3, 1, by decide, by decide, rfl, rfl⟩)))))))⟩

/-- A write to the register at an offset of context 0's page is a step. -/
theorem routed_ctx {o : Nat} {v : Word} {i : Instr}
    (h : o = 0 ∧ v.getLsbD 31 = true ∧ i = .asgenBump 0 ∨ o = 0x10 ∧ i = .numctlWrite 0 v ∨ o = 0x28 ∧ i = .numdropClear 0 v ∨
      o = 0x48 ∧ v = 1#64 <<< 63 ∧ i = .ctxctlSave 0 ∨ o = 0x48 ∧ v = 1#64 <<< 62 ∧ i = .ctxctlRun 0 ∨
      o = 0x48 ∧ v = 1#64 <<< 61 ∧ i = .ctxctlReset 0 ∨ o = 0x48 ∧ v = 1#64 <<< 60 ∧ i = .ctxctlRetrap 0 ∨
      (∃ h < 2, o = 0x80 + 0x40 * h ∧ i = .headcfgWrite 0 h v ∨ o = 0x88 + 0x40 * h ∧ i = .headsurfWrite 0 h v)) :
    Routed exS (0x100000 + 0x10000 * 0 + o) v i :=
  Or.inr (Or.inr (Or.inr (Or.inr (Or.inr (Or.inr (Or.inr (Or.inr (Or.inl ⟨0, by decide, o, rfl, h⟩))))))))

/-- RegisterWrites: the registers of a context and of a queue with steps of their own. -/
theorem witness_routed_ctx : Routed exS 0x100000 (1#64 <<< 31) (.asgenBump 0) ∧ Routed exS 0x100010 6 (.numctlWrite 0 6) ∧
    Routed exS 0x100028 0xFFFFFFFF (.numdropClear 0 0xFFFFFFFF) ∧ Routed exS 0x100048 (1#64 <<< 63) (.ctxctlSave 0) ∧
    Routed exS 0x100048 (1#64 <<< 62) (.ctxctlRun 0) ∧ Routed exS 0x100048 (1#64 <<< 61) (.ctxctlReset 0) ∧
    Routed exS 0x100048 (1#64 <<< 60) (.ctxctlRetrap 0) ∧ Routed exS 0x1000C0 0 (.headcfgWrite 0 1 0) ∧
    Routed exS 0x1000C8 8 (.headsurfWrite 0 1 8) ∧ Routed exS 0x2003010 64 (.lqtailWrite 0 3 64) ∧
    Routed exS 0x2003020 (1#64 <<< 62) (.lqctlErrClear 0 3) ∧ Routed exS 0x2003020 (1#64 <<< 61) (.lqctlReset 0 3) ∧
    Routed exS 0x2003020 (1#64 <<< 63) (.lqctlEnable 0 3 true) ∧ Routed exS 0x2003020 0 (.lqctlEnable 0 3 false) := by
  have hq : ∀ {o : Nat} {v : Word} {i : Instr}, (o = 0x10 ∧ i = .lqtailWrite 0 3 v ∨
      o = 0x20 ∧ v = (if (queueOf exS 0 3).en then 1#64 <<< 63 else 0) ||| 1#64 <<< 62 ∧ i = .lqctlErrClear 0 3 ∨
      o = 0x20 ∧ v = (if (queueOf exS 0 3).en then 1#64 <<< 63 else 0) ||| 1#64 <<< 61 ∧ i = .lqctlReset 0 3 ∨
      o = 0x20 ∧ v = (if (v.getLsbD 63) then 1#64 <<< 63 else 0) ∧ i = .lqctlEnable 0 3 (v.getLsbD 63)) →
      Routed exS (0x2000000 + 0x1000 * (64 * 0 + 3) + o) v i := fun h =>
    Or.inr (Or.inr (Or.inr (Or.inr (Or.inr (Or.inr (Or.inr (Or.inr (Or.inr ⟨0, 3, by decide, by decide, _, rfl, h⟩))))))))
  have he : (queueOf exS 0 3).en = false := by decide +kernel
  refine ⟨routed_ctx (o := 0) ?_, routed_ctx (o := 0x10) ?_, routed_ctx (o := 0x28) ?_, routed_ctx (o := 0x48) ?_, routed_ctx (o := 0x48) ?_,
    routed_ctx (o := 0x48) ?_, routed_ctx (o := 0x48) ?_, routed_ctx (o := 0xC0) ?_, routed_ctx (o := 0xC8) ?_, hq (o := 0x10) ?_,
    hq (o := 0x20) ?_, hq (o := 0x20) ?_, hq (o := 0x20) ?_, hq (o := 0x20) ?_⟩
  all_goals simp [he]

/-- RegisterWrites: before READY; the plain registers of a context. -/
theorem witness_plain_writes : ({ exS with mgmt := {} } : State).mgmt.ready = false ∧ (0 : Nat) ≠ deviceBase + 0x200 ∧ exS.mgmt.ready = true ∧
    (storedCtx (ctxOf exS 255) 0x08 1).isSome = true ∧ (storedCtx (ctxOf exS 0) 0x18 1).isSome = true ∧
    (storedCtx (ctxOf exS 0) 0x20 1).isSome = true := by decide +kernel

/-- RegisterWrites, ASGEN_BUMP: busy, and free. -/
theorem witness_asgen : (ctxOf exS 0).busy = true ∧ (ctxOf (modCtx exS 0 fun c => { c with busy := false }) 0).busy = false := by decide +kernel

/-- The state whose window 3 of sector 2 is set up as given. -/
def exWindow (base ctl : Word) : State := modSector exS 2 fun k => { k with rwin := mput 0 (mput 0 k.rwin 6 base) 7 ctl }

/-- RegisterWrites, RWINCTL_WRITE: an enable of 96 MiB fits, one of 98 MiB does not, nor the first beside 2 MiB. -/
theorem witness_rwinctl :
    let beyond (s : State) (v : Word) := decide (100663296 < pinned (sectorOf s 2) 2 3 + windowCharge 2 (mget 0 (sectorOf s 2).rwin 6) (v &&& 0x3FFF000000000000 ||| 1#64 <<< 63))
    let s := exWindow 0x4000000000 0
    s.mgmt.ready = true ∧ beyond s (1#64 <<< 63 ||| 48#64 <<< 48) = false ∧ beyond s (1#64 <<< 63 ||| 49#64 <<< 48) = true ∧
    beyond (modSector s 2 fun k => { k with rwin := mput 0 (mput 0 k.rwin 0 0x4000000000) 1 (1#64 <<< 63 ||| 1#64 <<< 48) }) (1#64 <<< 63 ||| 48#64 <<< 48) = true := by
  decide +kernel

/-- A head of 1920 by 1080 at 60 Hz. -/
def exHead : Word := 1#64 <<< 63 ||| 1920#64 <<< 42 ||| 1080#64 <<< 28 ||| 60#64 <<< 20 ||| 10000

/-- RegisterWrites, heads: an enable that fits and one that does not; a surface for a head that is off, free, busy. -/
theorem witness_heads :
    (let good (v : Word) := headFieldsOk exS 0 v = true ∧ (otherHeads exS 0 1).length < 64 ∧
        ((otherHeads exS 0 1).filter fun c => headEnc c == headEnc v).foldl (fun n c => n + headLoad c) (headLoad v) ≤ 497664000
     good exHead ∧ ¬good (1#64 <<< 63)) ∧ (headOf exS 0 1).cfg.getLsbD 63 = false ∧
    (let s := modCtx exS 0 fun c => { c with heads := mput {} c.heads 1 { cfg := exHead } }
     (headOf s 0 1).cfg.getLsbD 63 = true ∧ (headOf s 0 1).encoding.isNone = true) ∧
    (let s := modCtx exS 0 fun c => { c with heads := mput {} c.heads 1 { cfg := exHead, encoding := some (8, 0) } }
     (headOf s 0 1).cfg.getLsbD 63 = true ∧ (headOf s 0 1).encoding.isSome = true) := by decide +kernel

/-- A LAUNCH's fields whose level 0 is bound to fabric. -/
def exFabric : List Word := [0, 1 ||| 6#64 <<< 4]

/-- RegisterWrites, PTPCTL and the boot: a fabric launch that runs, none; a machine that may boot. -/
theorem witness_ptpctl : fabricLaunch exS = false ∧
    (let s := modCtx exS 0 fun c => { c with launches := [(0, { fields := exFabric })] }
     fabricLaunch s = true ∧ (5 : Word).toNat % 64 ≠ s.mgmt.winLen.toNat) ∧ State.reset.mgmt.ready = false ∧ State.reset.mgmt.fail = false := by
  decide +kernel

/-! ### Witnesses: launch queues -/

/-- Sector 0 with the two pages of the state with a world. -/
def exArb (s : State) : State := modSector s 0 fun k => { k with tlb := [exPage, ⟨0, 1, 16, 2 ^ 41 - 1, 2, 1, true, true, true, false⟩] }

/-- Queue 3, enabled, with a ring of 4 KiB at virtual 0xC000 that holds words from an offset on. -/
def exRingIn (s : State) (off : Nat) (ws : List Nat) (k : LQueue) : State :=
  ws.zipIdx.foldl (fun s e => exPut (0xC000 + (off + 8 * e.2) % 4096) 8 e.1 s)
    (modCtx (exArb s) 0 fun c => { c with queues := [(3, { k with base := 0xC00C, en := true })] })

/-- The same of a machine that holds nothing else. -/
def exRing : Nat → List Nat → LQueue → State := exRingIn exS

/-- The header of an entry. -/
def exHeader (kind len fm : Nat) : Nat := kind * 2 ^ 24 + len * 2 ^ 16 + fm * 2 ^ 32

/-- An engine's answer with its state. -/
def exDone {α : Type} (e : Engine α) (s : State) : State :=
  match e with
  | .done _ u => u
  | _ => s

theorem engine_of {α : Type} [DecidableEq α] {e : Engine α} {a : α} {s : State}
    (h : (match e with | .done b _ => decide (b = a) | _ => false) = true) : e = .done a (exDone e s) := by
  unfold exDone
  cases e <;> simp_all

/-- An entry starts, as a test that computes. -/
def startsB (s : State) (ctx q kind : Nat) (ws : List Nat) (fin : Nat) : Bool :=
  let k := queueOf s ctx q
  queueOpen s ctx q && k.wait.isNone && ringOk k && decide (k.next < fin ∧ fin ≤ k.tail)
    && (k.entries.all fun e => e.ended || (e.kind != 2 && e.kind != 4))
    && match runQueue ctx q (ringRead (ctxWho s ctx 15) k k.next 1) (deliverAll s) with
      | .done [h] u' => headerOk k h && fld h 31 24 == kind && fin == k.next + 8 * fld h 23 16
        && (match runQueue ctx q (ringRead (ctxWho s ctx 15) k k.next (fld h 23 16)) u' with | .done vs _ => decide (vs = ws) | _ => false)
      | _ => false

theorem starts_of {s : State} {ctx q kind fin : Nat} {ws : List Nat} (h : startsB s ctx q kind ws fin = true) :
    ∃ u, Starts s ctx q kind ws fin u := by
  simp only [startsB, Bool.and_eq_true, Option.isNone_iff_eq_none, decide_eq_true_eq] at h
  obtain ⟨⟨⟨⟨⟨h1, h2⟩, h3⟩, h4⟩, h5⟩, h6⟩ := h
  split at h6
  · rename_i hd u' hr
    simp only [Bool.and_eq_true, beq_iff_eq] at h6
    obtain ⟨⟨⟨g1, g2⟩, g3⟩, g4⟩ := h6
    split at g4
    · rename_i vs u hv
      simp only [decide_eq_true_eq] at g4
      subst g4
      refine ⟨u, h1, ⟨h2, h3⟩, h4, ?_, hd, u', hr, g1, g2, g3, hv⟩
      intro e he hn
      have := List.all_eq_true.1 h5 e he
      simpa [hn] using this
    · simp at g4
  · simp at h6

/-- QueueSteps: the entries that stand last in the ring; a fence behind an entry that has ended and behind one that has not. -/
theorem witness_entries : (∃ u, Starts (exRing 4088 [exHeader 0 1 0] { next := 4088, tail := 4096 }) 0 3 0 [exHeader 0 1 0] 4096 u) ∧
    (∃ u, Starts (exRing 8 [exHeader 3 1 0] { next := 8, tail := 16, entries := [⟨0, 8, 0, 0, 0, false, true, 0, 0, []⟩] }) 0 3 3 [exHeader 3 1 0] 16 u) ∧
    (∃ u, Starts (exRing 8 [exHeader 3 1 0] { next := 8, tail := 16, entries := [⟨0, 8, 1, 1, 0, false, false, 0, 0, []⟩] }) 0 3 3 [exHeader 3 1 0] 16 u) :=
  ⟨starts_of (by decide +kernel), starts_of (by decide +kernel), starts_of (by decide +kernel)⟩

/-- QueueSteps: publications that publish nothing. -/
theorem witness_unpublished :
    (let k : LQueue := { arriving := [(0, 1)] }; ringOk k = false) ∧
    (let k := queueOf (exRing 0 [] { arriving := [(8, 1)], tail := 16, reserve := 32 }) 0 3; ringOk k = true ∧ 8 < k.tail) ∧
    (let k := queueOf (exRing 0 [] { arriving := [(32, 1)], tail := 16, reserve := 32 }) 0 3; k.reserve.toNat ≤ 32) ∧
    (let s := exRing 0 [] { arriving := [(24, 1)], tail := 8, reserve := 32, pubs := [(16, 32, 2, 0)] }
     (ctxOf s 0).in_ = true ∧ (queueOf s 0 3).wait = none ∧ ∃ p ∈ (queueOf s 0 3).pubs, p.1 ≤ 24 ∧ 24 < p.2.1) := by decide +kernel

/-- A publication that fills what is reserved. -/
def exArriving : State := exRing 8 [exHeader 0 33 0] { arriving := [(8, 5)], tail := 8, reserve := 272 }

/-- QueueSteps: a publication arrives. -/
theorem witness_arrival : (let k := queueOf exArriving 0 3
      k.arriving = (8, 5) :: [] ∧ (ctxOf exArriving 0).in_ = true ∧ k.pubWait = none ∧ k.pubFailed = false ∧ ringOk k = true ∧ k.tail ≤ 8 ∧
      8 + 8 * fld (exHeader 0 33 0) 23 16 ≤ k.reserve.toNat ∧ 1 ≤ fld (exHeader 0 33 0) 23 16 ∧ fld (exHeader 0 33 0) 23 16 ≤ 33 ∧
      ∀ p ∈ k.pubs, p.2.1 ≤ 8 ∨ 8 + 8 * fld (exHeader 0 33 0) 23 16 ≤ p.1) ∧
    ∃ u, ringRead (ctxWho exArriving 0 15) (queueOf exArriving 0 3) 8 1 (deliverAll exArriving) = .ok [exHeader 0 33 0] u := by
  refine ⟨by decide +kernel, ?_⟩
  obtain ⟨a, u, h, k⟩ := ok_ex (p := fun a => decide (a = [exHeader 0 33 0])) (by decide +kernel : okB (ringRead (ctxWho exArriving 0 15)
    (queueOf exArriving 0 3) 8 1) (deliverAll exArriving) (fun a => decide (a = [exHeader 0 33 0])) = true)
  exact ⟨u, by rw [h, of_decide_eq_true k]⟩

/-- A WSYNC entry of a world. -/
def exWsync (v : Nat) : State := exRingIn exWorldS 0 [exHeader 2 2 0, v] { tail := 16 }

/-- An engine answers. -/
theorem answer_of {α : Type} {e : Engine α} {p : α → State → Bool} (h : doneB e p = true) : ∃ a u, e = .done a u ∧ p a u = true := done_ex h

/-- What an entry's body runs after its words are read. -/
def bodyB {α : Type} (s : State) (ctx q len : Nat) (m : State → M α) (p : α → State → Bool) : Bool :=
  match runQueue ctx q (ringRead (ctxWho s ctx 15) (queueOf s ctx q) (queueOf s ctx q).next 1) (deliverAll s) with
  | .done _ u' =>
    match runQueue ctx q (ringRead (ctxWho s ctx 15) (queueOf s ctx q) (queueOf s ctx q).next len) u' with
    | .done _ u => doneB (runQueue ctx q (m u) u) fun a v => p a v
    | _ => false
  | _ => false

theorem body_of {α : Type} {s : State} {ctx q kind len : Nat} {ws : List Nat} {m : State → M α} {p : α → State → Bool}
    (h : startsB s ctx q kind ws ((queueOf s ctx q).next + 8 * len) = true) (hb : bodyB s ctx q len m p = true) :
    ∃ u a v, Starts s ctx q kind ws ((queueOf s ctx q).next + 8 * len) u ∧ runQueue ctx q (m u) u = .done a v ∧ p a v = true := by
  obtain ⟨u, hu⟩ := starts_of h
  obtain ⟨hd, u', hr, g1, g2, g3, hv⟩ := hu.reads
  have hl : fld hd 23 16 = len := by omega
  unfold bodyB at hb
  rw [hr] at hb
  rw [hl] at hv
  simp only [hv] at hb
  obtain ⟨a, v, e, hp⟩ := done_ex hb
  exact ⟨u, a, v, hu, e, hp⟩

/-- QueueSteps, QUEUE_WSYNC: a world that its queue owns; a reserved bit; a world without an owner; a version at its end. -/
theorem witness_wsync :
    (∃ u x v, Starts (exWsync 0x101) 0 3 2 [exHeader 2 2 0, 0x101] 16 u ∧
      runQueue 0 3 (worldGet (ctxWho (exWsync 0x101) 0 6) (0x101 % 256)) u = .done x v ∧
      (x.any fun x => 0x101 / 2 ^ 9 == 0 && x.owner && decide (x.version < 2 ^ 48 - 2)) = true) ∧
    (∃ u x v, Starts (exWsync 0x201) 0 3 2 [exHeader 2 2 0, 0x201] 16 u ∧
      runQueue 0 3 (worldGet (ctxWho (exWsync 0x201) 0 6) (0x201 % 256)) u = .done x v ∧ x.isSome = true) ∧
    (let s := exPut (0x1FF80 + 114) 1 0 (exWsync 1)
     ∃ u x v, Starts s 0 3 2 [exHeader 2 2 0, 1] 16 u ∧ runQueue 0 3 (worldGet (ctxWho s 0 6) (1 % 256)) u = .done x v ∧
      (x.any fun x => !x.owner) = true) ∧
    (let s := exPut (0x1FF80 + 40) 6 (2 ^ 48 - 2) (exWsync 1)
     ∃ u x v, Starts s 0 3 2 [exHeader 2 2 0, 1] 16 u ∧ runQueue 0 3 (worldGet (ctxWho s 0 6) (1 % 256)) u = .done x v ∧
      (x.any fun x => decide (2 ^ 48 - 2 ≤ x.version)) = true) := by
  refine ⟨?_, ?_, ?_, ?_⟩
  all_goals exact body_of (len := 2) (m := fun _ => worldGet _ _) (by decide +kernel) (by decide +kernel)

/-- A LAUNCH of work-groups of two threads: fields 1, 2, 3, 6 and 10. -/
def exLaunchWords (groups flags : Nat) : List Nat :=
  [exHeader 1 7 0x44F, flags, 3 + 2 * 2 ^ 7 + 5 * 2 ^ 10 + 3 * 2 ^ 34, 2 + groups * 2 ^ 32, 1, 32 * 2 ^ 48 + 0x100, 2 ^ 21]

/-- Its entry in the ring, published by launch 4, which has ended. -/
def exLaunch (groups flags : Nat) (es : List QEntry := []) : State :=
  modCtx (exRing 4080 (exLaunchWords groups flags) { next := 4080, tail := 4136, pubs := [(4080, 4136, 7, 5)], entries := es }) 0 fun c =>
    { c with launches := [(4, { fields := [0], done := true })] }

/-- The launch that the entry describes. -/
def exLaunched (groups flags : Nat) : Launch :=
  { ctx := 0, q := 3, off := 4080, fields := inheritFields [] (exLaunchWords groups flags), parent := 5 }

/-- QueueSteps, QUEUE_LAUNCH: a packet that is right, behind an entry that has ended; one with no work-groups; one whose query
descriptor is malformed. -/
theorem witness_launch :
    (let s := exLaunch 3 1 [⟨4072, 4080, 0, 0, 0, false, true, 0, 0, []⟩]
     ∃ u la' v, Starts s 0 3 1 (exLaunchWords 3 1) 4136 u ∧
      runQueue 0 3 (if packetOk u 0 (exLaunched 3 1) && (launchOf u 0 4).done then launchRecords (ctxWho s 0 15) 3 (exLaunched 3 1) else pure none) u
        = .done la' v ∧ (la'.isSome && !tagTaken (ctxOf v 0).launches (launchTag (ctxOf v 0).launches)) = true) ∧
    (∃ u a v, Starts (exLaunch 0 0) 0 3 1 (exLaunchWords 0 0) 4136 u ∧
      runQueue 0 3 (pure (packetOk u 0 (exLaunched 0 0)) : M Bool) u = .done a v ∧ a = false) := by
  refine ⟨?_, ?_⟩
  · exact body_of (len := 7) (m := fun u => if packetOk u 0 (exLaunched 3 1) && (launchOf u 0 4).done then
      launchRecords (ctxWho (exLaunch 3 1 [⟨4072, 4080, 0, 0, 0, false, true, 0, 0, []⟩]) 0 15) 3 (exLaunched 3 1) else pure none) (by decide +kernel)
      (by decide +kernel)
  · obtain ⟨u, a, v, h1, h2, h3⟩ := body_of (s := exLaunch 0 0) (q := 3) (ctx := 0) (kind := 1) (ws := exLaunchWords 0 0) (len := 7)
      (m := fun u => (pure (packetOk u 0 (exLaunched 0 0)) : M Bool)) (p := fun a _ => !a) (by decide +kernel) (by decide +kernel)
    exact ⟨u, a, v, h1, h2, by simpa using h3⟩

/-- Context 0 with the launch of three work-groups as tag 9, of which some are placed, on the first cluster. -/
def exPlacing (placed : Nat) : State :=
  modCtx (exArb exS) 0 fun c => { c with record := exRecord, launches := [(9, { exLaunched 3 0 with placed := placed, total := 3, extents := [2, 3, 1] })] }

/-- The launch in it. -/
def exPlaced (placed : Nat) : Launch := { exLaunched 3 0 with placed := placed, total := 3, extents := [2, 3, 1] }

/-- QueueSteps: the last work-group of a launch is placed, on core 1, whose slots are all free. -/
theorem witness_placement : MayPlace (exPlacing 2) 0 9 (exPlaced 2) ∧ (0 < (exPlaced 2).placed ∧ hasTeam (exPlaced 2) = false ∧
      (exPlaced 2).wait = none ∧ (exPlaced 2).failed = false ∧
      (∀ j < 192, eligible (deliverAll (exPlacing 2)) 0 j = true → bitAt (recField (deliverAll (exPlacing 2)) 0 559 512) (clusterBit j) = false)) ∧
    (let s := modCore (modCore (modCore (exPlacing 2) 1 fun k => { k with holder := 1 }) 2 fun k => { k with holder := 1 }) 3 fun k => { k with holder := 1 }
     bestCore (deliverAll s) ((List.range 192).filter (eligible (deliverAll s) 0)) (needOf (exPlaced 2) (roleOf (exPlaced 2) 2)) = some 1) ∧
    ∃ lanes u, ((List.range (groupThreads (exPlaced 2))).mapM fun i => gridLane (ctxWho (exPlacing 2) 0 6) (exPlaced 2)
      (fld (launchField (exPlaced 2) (6 + roleOf (exPlaced 2) 2)) 47 0) (2 % (exPlaced 2).extents.getD (coreLevel (exPlaced 2)) 1 * groupThreads (exPlaced 2) + i))
      (deliverAll (exPlacing 2)) = .ok lanes u := by
  refine ⟨⟨by decide +kernel, by decide +kernel, by decide +kernel, by decide +kernel⟩, by decide +kernel, by decide +kernel, ?_⟩
  obtain ⟨l, u, h, -⟩ := ok_ex (p := fun _ => true) (by decide +kernel : okB ((List.range (groupThreads (exPlaced 2))).mapM fun i =>
    gridLane (ctxWho (exPlacing 2) 0 6) (exPlaced 2)
      (fld (launchField (exPlaced 2) (6 + roleOf (exPlaced 2) 2)) 47 0) (2 % (exPlaced 2).extents.getD (coreLevel (exPlaced 2)) 1 * groupThreads (exPlaced 2) + i))
      (deliverAll (exPlacing 2)) = true)
  exact ⟨l, u, h⟩

/-- A launch whose three work-groups have ended. -/
def exOver : State := modCtx (exPlacing 3) 0 fun c => { c with launches := [(9, { exPlaced 3 with ended := 3 })] }

/-- The same with an arena record of it in use. -/
def exOverArena : State := modCore exOver 0 fun k => { k with arena := [(0, 5, 9)] }

/-- QueueSteps: a grid ends, and its arena record is freed first. -/
theorem witness_grid_end : (GridOver exOver 0 9 { exPlaced 3 with ended := 3 } ∧ arenaLeft exOver 0 9 = none) ∧
    GridOver exOverArena 0 9 { exPlaced 3 with ended := 3 } ∧ arenaLeft exOverArena 0 9 = some (0, (0, 5, 9)) ∧
    ((coreOf exOverArena 0).unitWait.any (·.1 == 10)) = false ∧ (coreOf exOverArena 0).unitFail.contains 10 = false ∧
    okB (vatomic ⟨0, 0, 4⟩ (recField exOverArena 0 191 128 + 262144 * 0 + 256 * 5 + 128) 8 fun h => some (h / 4 * 4)) exOverArena = true :=
  ⟨⟨⟨by decide +kernel, by decide +kernel, by decide +kernel, by decide +kernel⟩, by decide +kernel⟩,
    ⟨by decide +kernel, by decide +kernel, by decide +kernel, by decide +kernel⟩, by decide +kernel, by decide +kernel, by decide +kernel, by decide +kernel⟩

/-- A sync point of world 1 as the first entry of queue 3. -/
def exSync (world pos : Nat) (changed : List Nat := []) : State := modCtx (exArb exWorldS) 0 fun c =>
  { c with queues := [(3, { en := true, entries := [⟨0, 8, 0, 0, 0, false, true, 0, 0, []⟩, ⟨8, 24, 2, 0, world, false, false, pos, 1, changed⟩], tail := 24 })] }

/-- QueueSteps: a sync point starts, goes on, and has no world. -/
theorem witness_sync : (∀ w ∈ [1, 0], ∀ p ∈ [0, 1], SyncHere (exSync w p) 0 3 1 ⟨8, 24, 2, 0, w, false, false, p, 1, []⟩) ∧
    (∃ a u, runQueue 0 3 (syncBegin (ctxWho (exSync 1 0) 0 6) 1) (deliverAll (exSync 1 0)) = .done a u ∧ a.isSome = true) ∧
    (∃ u, runQueue 0 3 (syncBegin (ctxWho (exSync 0 0) 0 6) 0) (deliverAll (exSync 0 0)) = .done none u) ∧
    ∃ a u, runQueue 0 3 (worldGet (ctxWho (exSync 1 1) 0 6) 1) (deliverAll (exSync 1 1)) = .done a u ∧ a.isSome = true := by
  refine ⟨?_, done_ex (p := fun (a : Option _) _ => a.isSome) (by decide +kernel), ?_, done_ex (p := fun (a : Option _) _ => a.isSome) (by decide +kernel)⟩
  · have h := (by decide +kernel : ∀ w ∈ [1, 0], ∀ p ∈ [0, 1], queueOpen (exSync w p) 0 3 = true ∧ (queueOf (exSync w p) 0 3).wait = none ∧
      syncAt (exSync w p) 0 3 = some (1, ⟨8, 24, 2, 0, w, false, false, p, 1, []⟩))
    intro w hw p hp
    obtain ⟨h1, h2, h3⟩ := h w hw p hp
    exact ⟨h1, h2, h3⟩
  · obtain ⟨a, u, h, k⟩ := done_ex (p := fun (a : Option _) _ => a.isNone) (by decide +kernel : doneB (runQueue 0 3 (syncBegin (ctxWho (exSync 0 0) 0 6) 0) (deliverAll (exSync 0 0)))
      (fun a _ => a.isNone) = true)
    cases a with
    | none => exact ⟨u, h⟩
    | some _ => simp at k

/-- QueueSteps: the last unit of a sync point, and one before it. -/
theorem witness_sync_units :
    (∃ a u, runQueue 0 3 (syncOne (ctxWho (exSync 1 1) 0 6) ⟨8, 24, 2, 0, 1, false, false, 1, 1, []⟩ 17 1 0) (exSync 1 1) = .done a u ∧
      (a.any fun a => a.2 == 0) = true) ∧
    ∃ a u, runQueue 0 3 (syncOne (ctxWho (exSync 1 1 [0]) 0 6) ⟨8, 24, 2, 0, 1, false, false, 1, 1, [0]⟩ 17 1 0) (exSync 1 1 [0]) = .done a u ∧
      (a.any fun a => a.2 == 1) = true :=
  ⟨done_ex (p := fun (a : Option (List Nat × Nat)) _ => a.any fun a => a.2 == 0) (by decide +kernel), done_ex (p := fun (a : Option (List Nat × Nat)) _ => a.any fun a => a.2 == 1) (by decide +kernel)⟩

/-! ### Witnesses: tasks -/

/-- A frame that any core of the package may steal. -/
def exFrame (entry tag : Nat) : Frame := frameOf (2 ^ 63 + 3 * 2 ^ 60 + 3 * 2 ^ 58 + entry) 0x40 [1, 2, 3, 4, 5, 6] tag

/-- Context 0 on cores 0 and 191 with a launch of tag 9: stocks of 256 frames from 0x8000, task warps of 32 registers. -/
def exTasks (f : Core → Core) : State :=
  modCore (modCtx (modCore exS 0 f) 0 fun c => { c with launches := [(9,
    { fields := [0, 3 + 2 * 2 ^ 7 + 5 * 2 ^ 10, 0, 0, 0, 0, 32 * 2 ^ 48, 0, 0, 0, 0, 8 * 2 ^ 58 + 0x8000, 0, 0, 0, 0, 0], placed := 1, total := 1 })] })
    191 fun k => { k with holder := 1 }

/-- TaskSteps, TASK_DISPATCH: the last 32 of 33 alike frames; two frames behind one of another entry. -/
theorem witness_dispatch :
    (let s := exTasks fun k => { k with deck := List.replicate 33 (exFrame 0x40 9) }
     Takes s 0 0 ∧ Popped (coreOf s 0).deck (List.replicate 32 (exFrame 0x40 9)) ∧ pickSlot (coreOf s 0) = some 16 ∧
      padPlace (coreOf s 0) (taskPad (launchOf s 0 9)) = some 0 ∧ regsUsed (coreOf s 0) + taskRegs (launchOf s 0 9) ≤ 4096) ∧
    Popped [exFrame 0x80 9, exFrame 0x40 9, exFrame 0x40 9] [exFrame 0x40 9, exFrame 0x40 9] := by
  refine ⟨⟨⟨by decide +kernel, by decide +kernel, by decide +kernel, by decide +kernel⟩, ⟨by decide +kernel, by decide +kernel, ?_, fun h => absurd h (by decide)⟩,
    by decide +kernel, by decide +kernel, by decide +kernel⟩, by decide +kernel, by decide +kernel, ?_, ?_⟩
  · intro f hf g hg
    rw [List.eq_of_mem_replicate hf, List.eq_of_mem_replicate hg]
    exact ⟨rfl, rfl⟩
  · intro f hf g hg
    have h : ∀ x ∈ [exFrame 0x40 9, exFrame 0x40 9], x = exFrame 0x40 9 := by simp
    rw [h f hf, h g hg]
    exact ⟨rfl, rfl⟩
  · intro _ f hf g hg
    have h : ∀ x ∈ [exFrame 0x40 9, exFrame 0x40 9], x = exFrame 0x40 9 := by simp
    have hl : (List.take ([exFrame 0x80 9, exFrame 0x40 9, exFrame 0x40 9].length - [exFrame 0x40 9, exFrame 0x40 9].length)
      [exFrame 0x80 9, exFrame 0x40 9, exFrame 0x40 9]).getLast? = some (exFrame 0x80 9) := rfl
    rw [hl, Option.some.injEq] at hg
    rw [h f hf, ← hg]
    decide +kernel

/-- Core 0 with a stock of one frame. -/
def exRefill : State := exTasks fun k => { k with deck := List.replicate 31 (exFrame 0x40 9), stocks := [(9, ⟨0, 1, false⟩)] }

/-- TaskSteps, DECK_REFILL: a stock of one frame. -/
theorem witness_refill : Takes exRefill 0 0 ∧ ((coreOf exRefill 0).refill = none ∧ (coreOf exRefill 0).deck.length < 32 ∧ refillTags (coreOf exRefill 0) ≠ [] ∧
      ((coreOf exRefill 0).unitWait.any fun u => u.1 == 11) = false ∧ (coreOf exRefill 0).unitFail.contains 11 = false) ∧
    ∃ v u, vreadN ⟨0, 0, 15⟩ (stockAddr (launchOf exRefill 0 9) 0 0) 64 { exRefill with choice := exRefill.choice + 1 } = .ok v u := by
  refine ⟨⟨by decide +kernel, by decide +kernel, by decide +kernel, by decide +kernel⟩, by decide +kernel, ?_⟩
  obtain ⟨v, u, h, -⟩ := ok_ex (by decide +kernel : okB (vreadN ⟨0, 0, 15⟩ (stockAddr (launchOf exRefill 0 9) 0 0) 64)
    { exRefill with choice := exRefill.choice + 1 } (fun _ => true) = true)
  exact ⟨v, u, h⟩

/-- TaskSteps: an idle core asks its first victim, and waits after the last. -/
theorem witness_steal_request : (coreIdle (exTasks id) 0 = true ∧ (coreOf (exTasks id) 0).holder = 0 + 1 ∧ (coreOf (exTasks id) 0).stealUntil ≤ (exTasks id).clk ∧
      (victims (exTasks id) 0 0)[(coreOf (exTasks id) 0).stealPos]? = some 1) ∧
    let s := exTasks fun k => { k with stealPos := 47 }
    coreIdle s 0 = true ∧ victims s 0 0 ≠ [] ∧ (victims s 0 0).length ≤ (coreOf s 0).stealPos := by decide +kernel

/-- Core 0 hears core 191. -/
def exHears (m : StealMsg) (f : Core → Core) : State := { exTasks f with steals := [m] }

/-- TaskSteps, STEAL_SERVE: the empty reply of a core with no holder, of another, off, leaving, and with every slot taken. -/
theorem witness_serve_empty : let m : StealMsg := { kind := 0, src := 191, dst := 0, seq := 4 }
    Hears (exHears m id) 0 m ∧ (coreOf (exHears m fun k => { k with holder := 0 }) 0).holder ≠ m.ctx + 1 ∧
    (coreOf (exHears m fun k => { k with holder := 2 }) 0).holder ≠ m.ctx + 1 ∧ answersHeld (coreOf (exHears m id) 0) = false ∧
    (coreOf (exHears m fun k => { k with off := true }) 0).off = true ∧ (coreOf (exHears m fun k => { k with leaving := 1 }) 0).leaving ≠ 0 ∧
    ∀ i < 4, mget none (coreOf (exHears m fun k =>
      { k with transit := (List.range 4).map fun i => (i, some ⟨exFrame 0x40 9, 1, 0, 0⟩) }) 0).transit i ≠ none := by
  unfold Hears; decide +kernel

/-- TaskSteps, STEAL_SERVE: a frame of a stock, of the deck, none. -/
theorem witness_serve : let m : StealMsg := { kind := 0, src := 191, dst := 0, seq := 4 }
    let t : Map (Option Transit) := (List.range 3).map fun i => (i, some ⟨exFrame 0x40 9, 1, 0, 0⟩)
    (let s := exPut 0x8040 8 (2 ^ 63 + 3 * 2 ^ 60 + 0x40) (exHears m fun k => { k with transit := t, stocks := [(9, ⟨1, 2, false⟩)] })
     Hears s 0 m ∧ Takes s 0 0 ∧ m.ctx = 0 ∧ (List.range 4).find? (fun i => (mget none (coreOf s 0).transit i).isNone) = some 3 ∧
      ∃ o u, runEngine 0 12 (stockOffer 0 0 191 (stocksByTag (coreOf s 0).stocks)) s = .done o u ∧ o.isSome = true) ∧
    (let s := exHears m fun k => { k with transit := t, deck := [⟨0, 9⟩, exFrame 0x40 9] }
     (∃ o u, runEngine 0 12 (stockOffer 0 0 191 (stocksByTag (coreOf s 0).stocks)) s = .done o u ∧ o.isNone = true) ∧
      (coreOf s 0).deck.find? (mayGo 0 191) = some (exFrame 0x40 9)) ∧
    let s := exHears m fun k => { k with transit := t, deck := [⟨0, 9⟩] }
    (∃ o u, runEngine 0 12 (stockOffer 0 0 191 (stocksByTag (coreOf s 0).stocks)) s = .done o u ∧ o.isNone = true) ∧ (coreOf s 0).deck.find? (mayGo 0 191) = none := by
  refine ⟨⟨by unfold Hears; decide +kernel, ⟨by decide +kernel, by decide +kernel, by decide +kernel, by decide +kernel⟩, by decide +kernel, by decide +kernel, ?_⟩, ⟨?_, by decide +kernel⟩, ?_, by decide +kernel⟩
  · exact done_ex (p := fun (o : Option Frame) _ => o.isSome) (by decide +kernel)
  · exact done_ex (p := fun (o : Option Frame) _ => o.isNone) (by decide +kernel)
  · exact done_ex (p := fun (o : Option Frame) _ => o.isNone) (by decide +kernel)

/-- TaskSteps, STEAL_FRAME_ARRIVAL: a frame that is wanted, into a deck of 255; one that is not; an empty reply. -/
theorem witness_frame_arrival : let m : StealMsg := { kind := 1, src := 191, dst := 0, seq := 4, frame := some (exFrame 0x40 9) }
    (let s := exHears m fun k => { k with stealOut := some (191, 4), deck := List.replicate 255 (exFrame 0x40 9) }
     Hears s 0 m ∧ coreOpen (coreOf s 0) = true ∧ (coreOf s 0).stealOut = some (m.src, m.seq) ∧ (coreOf s 0).holder = m.ctx + 1 ∧
      deckCount (coreOf s 0) < 256) ∧
    (let s := exHears m fun k => { k with stealOut := some (191, 4), leaving := 2 }; Hears s 0 m ∧ coreOpen (coreOf s 0) = false) ∧
    (let s := exHears m fun k => { k with stealOut := some (191, 5) }; Hears s 0 m ∧ (coreOf s 0).stealOut ≠ some (m.src, m.seq)) ∧
    (let s := exHears m fun k => { k with stealOut := some (191, 4), holder := 2 }; Hears s 0 m ∧ (coreOf s 0).holder ≠ m.ctx + 1) ∧
    let e : StealMsg := { kind := 2, src := 191, dst := 0, seq := 4 }
    let s := exHears e fun k => { k with stealOut := some (191, 4) }
    Hears s 0 e ∧ (coreOf s 0).stealOut = some (e.src, e.seq) ∧ (coreOf s 0).holder = e.ctx + 1 := by
  unfold Hears; decide +kernel

/-- Core 0 with a frame on its way to core 191. -/
def exTransit (kind : Nat) (f : Core → Core) : State :=
  exHears { kind := kind, src := 191, dst := 0, seq := 4 } fun k => f { k with transit := [(3, some ⟨exFrame 0x40 9, 191, 4, 0⟩)] }

/-- TaskSteps, STEAL_ACK and STEAL_NACK: back to the deck, and back to the stock. -/
theorem witness_answers :
    (let s := exTransit 3 id; Hears s 0 { kind := 3, src := 191, dst := 0, seq := 4 } ∧ (coreOf s 0).holder = 0 + 1 ∧ transitAt (coreOf s 0) 191 4 = some 3) ∧
    (let s := exTransit 4 fun k => { k with deck := List.replicate 255 (exFrame 0x40 9) }
     Hears s 0 { kind := 4, src := 191, dst := 0, seq := 4 } ∧ nackedSlot (coreOf s 0) = none ∧ (coreOf s 0).holder = 0 + 1 ∧ transitAt (coreOf s 0) 191 4 = some 3 ∧
      mget none (coreOf s 0).transit 3 = some ⟨exFrame 0x40 9, 191, 4, 0⟩ ∧ returnStock (coreOf s 0) 9 = 9 ∧ (mget {} (coreOf s 0).stocks 9).used = 0 ∧
      (coreOf s 0).deck.length < 256) ∧
    let s := exTransit 4 fun k => { k with stocks := [(9, ⟨0, 1, false⟩)] }
    stockLog (launchOf s 0 9) ≠ 0 ∧ returnStock (coreOf s 0) 9 = 9 ∧ (mget {} (coreOf s 0).stocks 9).used ≠ 0 ∧
    ∃ u, runEngine 0 12 (vwrite ⟨0, 0, 15⟩ (stockAddr (launchOf s 0 9) (stockCore 9 0) (0 + 2 ^ 64 - 1)) (leBytes 64 (exFrame 0x40 9).bits.toNat))
      (noteNack 0 3 (dropMsg 0 s)) = .done () u := by
  refine ⟨by unfold Hears; decide +kernel, by unfold Hears; decide +kernel, by decide +kernel, by decide +kernel, by decide +kernel, ?_⟩
  obtain ⟨a, u, h, -⟩ := done_ex (p := fun _ _ => true) (by decide +kernel : doneB (runEngine 0 12 (vwrite ⟨0, 0, 15⟩
    (stockAddr (launchOf (exTransit 4 fun k => { k with stocks := [(9, ⟨0, 1, false⟩)] }) 0 9) (stockCore 9 0) (0 + 2 ^ 64 - 1)) (leBytes 64 (exFrame 0x40 9).bits.toNat))
    (noteNack 0 3 (dropMsg 0 (exTransit 4 fun k => { k with stocks := [(9, ⟨0, 1, false⟩)] })))) (fun _ _ => true) = true)
  exact ⟨u, h⟩

/-- Core 0 with nothing on it, heard for a saved core whose fourth slot holds a frame. -/
def exHeld (kind : Nat) : State :=
  modCtx (exHears { kind := kind, src := 191, dst := 0, seq := 4 } id) 0 fun x =>
    { x with savedCores := [(7, { transit := [(3, some ⟨exFrame 0x40 9, 191, 4, 0⟩)] })] }

/-- TaskSteps: an answer for a core that has been saved. -/
theorem witness_held : ∀ kind ∈ [3, 4], let m : StealMsg := { kind := kind, src := 191, dst := 0, seq := 4 }
    Hears (exHeld kind) 0 m ∧ nackedSlot (coreOf (exHeld kind) 0) = none ∧ slotOf (exHeld kind) m = none ∧
    mget none (mget {} (ctxOf (exHeld kind) 0).savedCores 7).transit 3 = some ⟨exFrame 0x40 9, 191, 4, 0⟩ := by
  unfold Hears; decide +kernel

/-! ### Witnesses: accesses -/

/-- Thread 0 of the small machine has some accesses. -/
def exFront (es : List Access) : State := exWith fun w => { w with lanes := [(0, { exLane 0 with front := es }), (1, exLane 1)] }

/-- A store, a load and an atomic. -/
def exStore (va : Word) (n : Nat) : Access := { kind := .store, va := va, size := n, x1 := 0x1122334455667788, gen := 1 }
def exLoad (va : Word) (n : Nat) : Access := { kind := .load, va := va, size := n, dst := 9, gen := 1 }
def exAtomic (ord : Nat) : Access := { kind := .atomic, va := 0x3008, size := 8, x1 := 5, ord := ord, dst := 9, gen := 1 }

theorem acts_of {s : State} {c slot l i : Nat} {e : Access}
    (h : decide ((frontOf s c slot l)[i]? = some e ∧ (e.wait = none ∧ e.gen = (ctxOf s (warpOf s c slot).ctx).gen) ∧
      ∀ b ∈ (frontOf s c slot l).take i, b.wait = none ∧ holdsLater (sectorOf s (secOf c)).a b = false) = true) : ActsAt s c slot l i e := by
  obtain ⟨h1, h2, h3⟩ := of_decide_eq_true h
  exact ⟨h1, h2, h3⟩

theorem leaves_of {s : State} {c slot l i : Nat} {e : Access}
    (h : decide (((frontOf s c slot l)[i]? = some e ∧ (e.wait = none ∧ e.gen = (ctxOf s (warpOf s c slot).ctx).gen) ∧
      ∀ b ∈ (frontOf s c slot l).take i, b.wait = none ∧ holdsLater (sectorOf s (secOf c)).a b = false) ∧
      (∀ b ∈ (frontOf s c slot l).take i, isMemAcc b = true → overlaps b e = false) ∧
      (e.ord ≠ 0 → (∀ b ∈ (frontOf s c slot l).take i, isMemAcc b = false) ∧ (e.ord = 5 → ∀ r ∈ s.sent, r.core ≠ c)) ∧
      lowerLanesClear s c slot l e = true) = true) : Leaves s c slot l i e := by
  obtain ⟨h0, h1, h2, h3⟩ := of_decide_eq_true h
  exact ⟨acts_of (decide_eq_true h0), h1, h2, h3⟩

/-- MemorySteps, STORE_DRAIN: the last eight bytes of a page, behind a store elsewhere; a release at .fabric. -/
theorem witness_drain : let e := exStore 0xFFF8 8
    let s := exFront [exStore 0x3000 8, e]
    Leaves s 0 0 0 1 e ∧ e.kind = .store ∧ 0 = secOf 0 ∧ (∃ u, Plain s u 0 (warpOf s 0 0).ctx e.va.toNat e.size 0x1FFF8) ∧
    Leaves (exFront [{ e with ord := 5 }]) 0 0 0 0 { e with ord := 5 } := by
  refine ⟨leaves_of (by decide +kernel), by decide +kernel, by decide +kernel, ?_, leaves_of (by decide +kernel)⟩
  exact ⟨_, by decide +kernel, by decide +kernel, ok_of (by decide +kernel), by decide +kernel, by decide +kernel⟩

/-- MemorySteps, LOAD_PERFORM: two of its bytes come from an earlier store, two from memory. -/
theorem witness_load : let e := exLoad 0x3006 4
    let s := exFront [exStore 0x3000 8, e]
    ActsAt s 0 0 0 1 e ∧ (∀ b ∈ (frontOf s 0 0 0).take 1, b.kind = .store ∨ isMemAcc b = false ∨ overlaps b e = false) ∧
    (∃ bs u, vread ⟨0, (warpOf s 0 0).ctx, 0⟩ e.va.toNat e.size s = .ok bs u ∧ bs.length = e.size ∧ e.size ≤ 8) ∧
    (∀ b ∈ (frontOf s 0 0 0).take 1, b.kind = .store → overlaps b (byteAccess e 2) = false) ∧
    (((frontOf s 0 0 0).take 1).reverse.find? fun b => b.kind == .store && overlaps b (byteAccess e 1)) = some (exStore 0x3000 8) ∧
    (exStore 0x3000 8).va.toNat ≤ e.va.toNat + 1 ∧ e.va.toNat + 1 < (exStore 0x3000 8).va.toNat + (exStore 0x3000 8).size := by
  refine ⟨acts_of (by decide +kernel), by decide +kernel, ?_, by decide +kernel, by decide +kernel, by decide +kernel, by decide +kernel⟩
  obtain ⟨bs, u, h, k⟩ := ok_ex (p := fun (b : List Byte) => b.length == 4) (by decide +kernel : okB (vread ⟨0, (warpOf
    (exFront [exStore 0x3000 8, exLoad 0x3006 4]) 0 0).ctx, 0⟩ (exLoad 0x3006 4).va.toNat (exLoad 0x3006 4).size)
    (exFront [exStore 0x3000 8, exLoad 0x3006 4]) (fun b => b.length == 4) = true)
  exact ⟨bs, u, h, by simpa [exLoad] using k, by decide⟩

/-- MemorySteps, ATOMIC_PERFORM: relaxed behind a store elsewhere, an acquire and release at .package. -/
theorem witness_atomic_step : ∀ s ∈ [exFront [exStore 0x3000 8, exAtomic 0], exFront [exAtomic 4]], ∃ i ord, Leaves s 0 0 0 i (exAtomic ord) ∧
    mergePeers s 0 0 0 i (exAtomic ord) = [] ∧ ∃ a u, atomicVirt ⟨0, (warpOf s 0 0).ctx, 0⟩ (exAtomic ord).va (exAtomic ord).size
      (fun v => atomNew (exAtomic ord).op (exAtomic ord).size v (exAtomic ord).x1.toNat (exAtomic ord).x2.toNat) s = .ok a u := by
  intro s hs
  simp only [List.mem_cons, List.not_mem_nil, or_false] at hs
  rcases hs with rfl | rfl
  · refine ⟨1, 0, leaves_of (by decide +kernel), by decide +kernel, ?_⟩
    obtain ⟨a, u, h, -⟩ := ok_ex (p := fun _ => true) (by decide +kernel : okB (atomicVirt ⟨0, (warpOf (exFront [exStore 0x3000 8, exAtomic 0]) 0 0).ctx, 0⟩
      (exAtomic 0).va (exAtomic 0).size fun v => atomNew (exAtomic 0).op (exAtomic 0).size v (exAtomic 0).x1.toNat (exAtomic 0).x2.toNat)
      (exFront [exStore 0x3000 8, exAtomic 0]) (fun _ => true) = true)
    exact ⟨a, u, h⟩
  · refine ⟨0, 4, leaves_of (by decide +kernel), by decide +kernel, ?_⟩
    obtain ⟨a, u, h, -⟩ := ok_ex (p := fun _ => true) (by decide +kernel : okB (atomicVirt ⟨0, (warpOf (exFront [exAtomic 4]) 0 0).ctx, 0⟩
      (exAtomic 4).va (exAtomic 4).size fun v => atomNew (exAtomic 4).op (exAtomic 4).size v (exAtomic 4).x1.toNat (exAtomic 4).x2.toNat)
      (exFront [exAtomic 4]) (fun _ => true) = true)
    exact ⟨a, u, h⟩

/-- A write of sector 0 on its way to sector 3, one of whose bytes has a greater key there. -/
def exCausal : State := { exS with causal := [(3, [⟨0x20000, [1, 2], ⟨5, 0, 0, 2⟩⟩])], sectors := [(3, { a := ⟨4, 0, 0, 2⟩, keys := [(0x20001, 400)], mem := [(0x20001, 9)] })] }

/-- MemorySteps, CAUSAL_DELIVERY. -/
theorem witness_delivery : mget [] exCausal.causal (4 * 0 + 3) = ⟨0x20000, [1, 2], ⟨5, 0, 0, 2⟩⟩ :: [] ∧ canDeliver exCausal 0 3 = true := by decide +kernel

/-- A fence at .package of a partition with the sectors 0 and 3. -/
def exFenced (e : Access) (v : Vec4) : State :=
  modSector (modSector (modPart (exFront [e]) 0 fun p => { p with sectors := 9 }) 0 fun k => { k with a := ⟨4, 0, 0, 0⟩ }) 3 fun k => { k with a := v }

/-- MemorySteps, FENCE_COMPLETE: sector 3 has the vector; it lacks it; a remote write is on its way. -/
theorem witness_fence_step : let e : Access := { kind := .fence, ord := 4 }
    let f : Access := { kind := .fence, ord := 5 }
    (let s := exFenced e ⟨4, 0, 0, 7⟩
     (frontOf s 0 0 0).findIdx? (fun b => b.kind == .fence) = some 0 ∧ (frontOf s 0 0 0)[0]? = some e ∧
      (∀ b ∈ (frontOf s 0 0 0).take 0, isMemAcc b = false) ∧ (laneOf (warpOf s 0 0) 0).stamp.le (sectorOf s (secOf 0)).a = true ∧
      (∀ d ∈ fenceSectors s 0 4, (sectorOf s (secOf 0)).a.le (sectorOf s d).a = true) ∧ (laneOf (warpOf s 0 0) 0).park.kind ≠ 5) ∧
    (let s := exFenced e ⟨3, 0, 0, 7⟩
     (laneOf (warpOf s 0 0) 0).stamp.le (sectorOf s (secOf 0)).a = true ∧ ∃ d ∈ fenceSectors s 0 4, (sectorOf s (secOf 0)).a.le (sectorOf s d).a = false) ∧
    let s := { exFenced f ⟨4, 0, 0, 7⟩ with sent := [⟨0, 0, 1, 0, 0, [], 0, 0, false, 0, 0, 0, none, false⟩] }
    (frontOf s 0 0 0)[0]? = some f ∧ ∃ r ∈ s.sent, r.core = 0 := by decide +kernel

/-- MemorySteps: an access of generation 0; a bump whose last access has gone, and one with an access left. -/
theorem witness_generation : let e := { exStore 0x3000 8 with gen := 0 }
    let s := exFront [exLoad 0x3008 8, e]
    (frontOf s 0 0 0).findIdx? (fun b => isOwnAcc b && b.gen != 1 && b.wait.isNone) = some 1 ∧ (frontOf s 0 0 0)[1]? = some e ∧
    (ctxOf s (warpOf s 0 0).ctx).gen = 1 ∧ sinkWorld (modEntry s 0 0 0 1 fun b => { b with gen := 1 }) ⟨0, (warpOf s 0 0).ctx, 0⟩ e.va.toNat = none ∧
    (∃ u, Machine.translate ⟨0, (warpOf s 0 0).ctx, 0⟩ e.va 1 (modEntry s 0 0 0 1 fun b => { b with gen := 1 }) = .ok 0x13000 u) ∧
    (ctxOf exS 0).busy = true ∧ staleLeft 0 exS = false ∧ (ctxOf s 0).busy = true ∧ staleLeft 0 s = true := by
  refine ⟨by decide +kernel, by decide +kernel, by decide +kernel, by decide +kernel, ⟨_, ok_of (by decide +kernel)⟩, by decide +kernel, by decide +kernel,
    by decide +kernel, by decide +kernel⟩

/-- An access of a kind that waits on the last slot of sector 3. -/
def exMissing (k : AccKind) : Access := { exLoad 0x3000 4 with kind := k, wait := some (3, 4095) }

/-- Thread 0 has it, and the request is posted. -/
def exMissed (k : AccKind) : State :=
  modSector (exFront [exMissing k]) 3 fun x => { x with posted := [(4095, { ctx := 0, req := 0, stage := 1, core := 0, addr := 0x3000, gen := 1 })] }

theorem exMissed_alone (k : AccKind) : WaitsAlone (exMissed k) 3 4095 0 0 0 0 (exMissing k) := by
  have hc : (exMissed k).cores = [(0, coreOf (exMissed k) 0)] := rfl
  have hw : (coreOf (exMissed k) 0).warps = [(0, warpOf (exMissed k) 0 0)] := rfl
  have hl : (warpOf (exMissed k) 0 0).lanes = [(0, { exLane 0 with front := [exMissing k] }), (1, exLane 1)] := rfl
  have none_ : ∀ c' w' l', ¬(c' = 0 ∧ w' = 0 ∧ l' = 0) → frontOf (exMissed k) c' w' l' = [] ∧ (laneOf (warpOf (exMissed k) c' w') l').wait = none := by
    intro c' w' l' h
    by_cases h0 : c' = 0
    · subst h0
      by_cases h1 : w' = 0
      · subst h1
        have h2 : l' ≠ 0 := fun h2 => h ⟨rfl, rfl, h2⟩
        unfold frontOf laneOf
        rw [hl]
        by_cases h3 : l' = 1
        · subst h3; exact ⟨rfl, rfl⟩
        · simp [mget, Ne.symm h2, Ne.symm h3]
      · unfold frontOf laneOf warpOf
        rw [hw]
        simp [mget, Ne.symm h1]
    · unfold frontOf laneOf warpOf coreOf
      rw [hc]
      simp [mget, Ne.symm h0]
  have one : frontOf (exMissed k) 0 0 0 = [exMissing k] := rfl
  have free : (laneOf (warpOf (exMissed k) 0 0) 0).wait = none := rfl
  refine ⟨⟨by decide, rfl⟩, ⟨rfl, rfl⟩, ?_, ?_, ?_⟩
  · intro c' w' l' i' e' he _
    by_cases h : c' = 0 ∧ w' = 0 ∧ l' = 0
    · obtain ⟨rfl, rfl, rfl⟩ := h
      rw [one] at he
      cases i' with
      | zero => exact ⟨rfl, rfl, rfl, rfl⟩
      | succ n => simp at he
    · rw [(none_ _ _ _ h).1] at he
      simp at he
  · intro b hb
    rw [one, List.mem_singleton] at hb
    exact Or.inr (by rw [hb]; rfl)
  · intro c' w' l' v hv
    by_cases h : c' = 0 ∧ w' = 0 ∧ l' = 0
    · obtain ⟨rfl, rfl, rfl⟩ := h
      rw [free] at hv
      simp at hv
    · rw [(none_ _ _ _ h).2] at hv
      simp at hv

/-- MemorySteps: the answers to a page request, of a load and of a VOPEN. -/
theorem witness_page : ∀ k ∈ [AccKind.load, AccKind.vopen], (∃ r, (4095, r) ∈ (sectorOf (exMissed k) 3).posted) ∧ (sectorOf (exMissed k) 3).waiting = [] ∧
    (∀ c slot, c < 2 → slot < 2 → mwf {} (warpOf (exMissed k) c slot).lanes = true) ∧
    WaitsAlone (exMissed k) 3 4095 0 0 0 0 (exMissing k) ∧ (exMissing k).kind ≠ .query ∧ (warpOf (exMissed k) 0 0).kind ≠ .handler := by
  have h : ∀ k ∈ [AccKind.load, AccKind.vopen], ∀ c < 2, ∀ slot < 2, mwf {} (warpOf (exMissed k) c slot).lanes = true := by decide +kernel
  have h1 : ∀ k ∈ [AccKind.load, AccKind.vopen], (exMissing k).kind ≠ .query ∧ (warpOf (exMissed k) 0 0).kind ≠ .handler := by decide +kernel
  exact fun k hk => ⟨⟨_, List.mem_singleton.2 rfl⟩, rfl, fun c slot hc hs => h k hk c hc slot hs, exMissed_alone k, h1 k hk⟩

/-- MemorySteps, PAGE_SCRUB. -/
theorem witness_scrub : (sectorOf (modSector exS 0 fun k => { k with scrub := [2], mem := [(0x20003, 7)] }) (homeSector (2 * 65536))).scrub.contains 2 = true := by
  decide +kernel

/-! ### Witnesses: the engines -/

/-- The threads and the window of a command. -/
def exSrc : Origin := { slot := 0, serial := 1, lanes := 3, pc := 0x100, size := 4096 }

/-- The image of a tensor of one row at the window's first byte. -/
def exImage (format d0 : Nat) : Nat := format + 2 ^ 8 + 2 ^ 11 + d0 * 2 ^ 35

/-- Core 0 with commands, and the tensor entry 3 as given. -/
def exMat (img : Nat) (cmds : List MCmd) (f : Core → Core := id) : State :=
  exPut 0x20C0 64 img (modCtx (exCoreWith fun k => f { k with matrix := { cmds := cmds } }) 0 fun c => { c with record := 0x2000 * 2 ^ 256 })

/-- A command starts in a state that reading its entry leaves as it is, as a test that computes. -/
def mayStartB (s : State) (c i kind : Nat) (x : MCmd) (t : Tensor) : Bool :=
  decide ((cmdsOf s c)[i]? = some x ∧ x.kind = kind ∧ nextCmd s c i t = true ∧ (cmdWatts s c x t = 0 ∨ x.leave = 2) ∧ bitAt x.cmd.toNat 63 = false)
    && (match cmdTensor c x s with | .done t' u => decide (t' = t) && decide (u = s) | _ => false)

theorem mayStart_of {s : State} {c i kind : Nat} {x : MCmd} {t : Tensor} (h : mayStartB s c i kind x t = true) : MayStart s c i kind x t s := by
  simp only [mayStartB, Bool.and_eq_true, decide_eq_true_eq] at h
  obtain ⟨⟨h1, h2, h3, h4, h5⟩, h6⟩ := h
  refine ⟨⟨h1, h2⟩, s, ?_, h3, h4, ?_⟩
  · split at h6
    · rename_i t' u hc
      simp only [Bool.and_eq_true, decide_eq_true_eq] at h6
      rw [hc, h6.1, h6.2]
    · simp at h6
  · unfold cmdEvent
    simp [h5]

theorem rows_of {s : State} {c : Nat} {x : MCmd} {t : Tensor} {stored : Bool} {n count : Nat}
    (h : decide (∀ m < count, ∀ sp ∈ rowSpans t stored (x.row + m) x.elem n, spanIn x.src.size sp = true ∧ spanHeld s c x.src.base sp = false) = true) :
    ∃ rows u, RowsRead s c x t stored n count rows u := ⟨_, _, of_decide_eq_true h, rfl⟩

/-- A WSWAP, loads of one array row, a stream of one tile row into the last of tile 3, drains, an EPISET. -/
def exSwap : MCmd := { kind := 2, src := exSrc }
def exLoadCmd (kind : Nat) : MCmd := { kind := kind, cmd := 3 + 2 ^ 8, x2 := 0x800, src := exSrc }
def exStreamCmd : MCmd := { kind := 3, cmd := 3 + 3 * 2 ^ 8 + 127 * 2 ^ 10 + 2 ^ 17, src := exSrc }
def exDrain (cmd : Word) : MCmd := { kind := 4, cmd := 3 + cmd, src := exSrc }
def exEpiset : MCmd := { kind := 5, x2 := 3, src := exSrc }

/-- EngineSteps: WSWAP, alone and behind a load that runs with its leave. -/
theorem witness_swap : MayStart (exMat 0 [exSwap]) 0 0 2 exSwap (tensorOf 0) (exMat 0 [exSwap]) ∧
    nextCmd (exMat 0 [{ exLoadCmd 0 with phase := 1 }, exLoadCmd 1]) 0 1 (tensorOf (exImage 8 4)) = false ∧
    nextCmd (exMat 0 [{ exStreamCmd with phase := 1 }, exLoadCmd 0]) 0 1 (tensorOf (exImage 8 4)) = true ∧ ∀ x ∈ [exSwap, exEpiset], x.kind ≤ 5 :=
  ⟨mayStart_of (by decide +kernel), by decide +kernel, by decide +kernel, by decide +kernel⟩

/-- EngineSteps: WLOAD of INT8, narrow, and of INT4, wide. -/
theorem witness_loads : ∀ f ∈ [8, 9], let x := exLoadCmd 0
    let t := tensorOf (exImage f 16)
    let s := exMat (exImage f 16) [x]
    MayStart s 0 0 0 x t s ∧ loadBad x t = false ∧ wideLoad x t = (f == 9) ∧
      ∃ rows w, RowsRead s 0 x t false (perCell (pairOf t.format) * x.count_) 256 rows w := by
  intro f hf
  simp only [List.mem_cons, List.not_mem_nil, or_false] at hf
  rcases hf with rfl | rfl
  all_goals exact ⟨mayStart_of (by decide +kernel), by decide +kernel, by decide +kernel, rows_of (by decide +kernel)⟩

/-- The state of a sparse load, its one metadata halfword as given. -/
def exSparse (h : List Byte) : State := exMat (exImage 8 8) [exLoadCmd 1] fun k => { k with pad := memPuts [] 0x800 h }

/-- EngineSteps: WLOADSP, with sound metadata and with an index twice. -/
theorem witness_sparse : let x := exLoadCmd 1
    let t := tensorOf (exImage 8 8)
    (∀ h ∈ [[0x88, 0x06], [0x00, 0x00]], MayStart (exSparse h) 0 0 1 x t (exSparse h) ∧
      (∃ rows w, RowsRead (exSparse h) 0 x t t.sparse (8 * x.count_) 256 rows w) ∧
      spanHeld (exSparse h) 0 x.src.base (x.x2.toNat % 2 ^ 20, 512 * x.count_) = false) ∧ loadBad x t = false ∧
    (∃ ms y, readMetas 0 x t x.count_ 0 (exSparse [0x88, 0x06]) = (ms, none, y)) ∧
    ∃ ms a y, readMetas 0 x t x.count_ 0 (exSparse [0x00, 0x00]) = (ms, some a, y) := by
  refine ⟨?_, by decide +kernel, ?_, ?_⟩
  · intro h hh
    simp only [List.mem_cons, List.not_mem_nil, or_false] at hh
    rcases hh with rfl | rfl
    all_goals exact ⟨mayStart_of (by decide +kernel), rows_of (by decide +kernel), by decide +kernel⟩
  · have h : (readMetas 0 (exLoadCmd 1) (tensorOf (exImage 8 8)) (exLoadCmd 1).count_ 0 (exSparse [0x88, 0x06])).2.1 = none := by decide +kernel
    exact ⟨_, _, by rw [← h]⟩
  · have h : (readMetas 0 (exLoadCmd 1) (tensorOf (exImage 8 8)) (exLoadCmd 1).count_ 0 (exSparse [0x00, 0x00])).2.1 = some 0x800 := by decide +kernel
    exact ⟨_, _, _, by rw [← h]⟩

/-- EngineSteps: loads that fault: no entry, and a window that ends inside their row. -/
theorem witness_load_faults : (∀ k ∈ [0, 1], MayStart (exMat 0 [exLoadCmd k]) 0 0 k (exLoadCmd k) (tensorOf 0) (exMat 0 [exLoadCmd k]) ∧
      loadBad (exLoadCmd k) (tensorOf 0) = true) ∧
    let x := { exLoadCmd 0 with src := { exSrc with size := 1 } }
    let t := tensorOf (exImage 8 4)
    MayStart (exMat (exImage 8 4) [x]) 0 0 0 x t (exMat (exImage 8 4) [x]) ∧
    ∃ m < 256, ∃ sp ∈ rowSpans t t.sparse (x.row + m) x.elem (loadK x t * x.count_), spanIn x.src.size sp = false := by
  refine ⟨?_, mayStart_of (by decide +kernel), 0, by decide, by decide +kernel⟩
  intro k hk
  simp only [List.mem_cons, List.not_mem_nil, or_false] at hk
  rcases hk with rfl | rfl
  all_goals exact ⟨mayStart_of (by decide +kernel), by decide +kernel⟩

/-- EngineSteps: MSTREAM through a plane without weights, and through one of INT8. -/
theorem witness_stream : let t := tensorOf (exImage 8 4)
    let s := exMat (exImage 8 4) [exStreamCmd]
    let v := modMatrix s 0 fun m => { m with planes := [(0, { format := 8, words := [(0, 0x0201)] })] }
    MayStart s 0 0 3 exStreamCmd t s ∧ (activeWeights (coreOf s 0).matrix).format = 0 ∧ streamBad exStreamCmd t (activeWeights (coreOf s 0).matrix) = false ∧
    (∃ rows w, RowsRead s 0 exStreamCmd t false (streamN (activeWeights (coreOf s 0).matrix) t) exStreamCmd.count_ rows w) ∧
    MayStart v 0 0 3 exStreamCmd t v ∧ (activeWeights (coreOf v 0).matrix).format ≠ 0 ∧ streamBad exStreamCmd t (activeWeights (coreOf v 0).matrix) = false ∧
    ∃ rows w, RowsRead v 0 exStreamCmd t false (streamN (activeWeights (coreOf v 0).matrix) t) exStreamCmd.count_ rows w :=
  ⟨mayStart_of (by decide +kernel), by decide +kernel, by decide +kernel, rows_of (by decide +kernel), mayStart_of (by decide +kernel), by decide +kernel,
    by decide +kernel, rows_of (by decide +kernel)⟩

/-- EngineSteps: the words of a pass. -/
theorem witness_pass : (let t := tensorOf (exImage 8 4); let p : Weights := ⟨8, false, fun _ _ => (0x0201, 0)⟩
      t.format = 8 ∧ p.format = 8 ∧ p.sparse = false ∧ 0xFFFFFFFF < 2 ^ 32) ∧
    (Machine.Num.nan ∈ [Machine.Num.nan, .inf true]) ∧
    (let vs := [Machine.Num.inf true, .inf false]; Machine.Num.nan ∉ vs ∧ Machine.Num.inf true ∈ vs ∧ Machine.Num.inf false ∈ vs) ∧
    (let vs := [Machine.Num.fin false 1 0, .inf false]; Machine.Num.nan ∉ vs ∧ Machine.Num.inf true ∉ vs ∧ Machine.Num.inf false ∈ vs) ∧
    (let vs := [Machine.Num.fin false 1 0, .inf true]; Machine.Num.nan ∉ vs ∧ Machine.Num.inf true ∈ vs ∧ Machine.Num.inf false ∉ vs) := by decide +kernel

/-- EngineSteps: MDRAIN to FP32, without a bias and with one. -/
theorem witness_mdrain : let t := tensorOf (exImage 1 4)
    ∀ b ∈ [0, 2 ^ 12], let x := exDrain b
    let s := exMat (exImage 1 4) [x]
    MayStart s 0 0 4 x t s ∧ drainBad x t (tileOf s 0 (fld x.cmd.toNat 9 8)).int = false ∧ (∀ m < 128, spanIn x.src.size (drainSpan x t m).1 = true) ∧
    (bitAt x.cmd.toNat 12 = true ∨ b = 0) ∧ epiWord s 0 x.set 131 % 4 = 0 ∧ epiWord s 0 x.set 131 + 1024 ≤ x.src.size ∧
    ∃ bias w, spanRead 0 x.src (epiWord s 0 x.set 131, 1024) s = (bias, w) := by
  intro t b hb
  simp only [List.mem_cons, List.not_mem_nil, or_false] at hb
  rcases hb with rfl | rfl
  all_goals exact ⟨mayStart_of (by decide +kernel), by decide +kernel, by decide +kernel, by decide +kernel, by decide +kernel, by decide +kernel, _, _, (Prod.eta _).symm⟩

/-- The state of an EPISET whose set ends with the words given, from word 128 on. -/
def exEpi (ws : List Byte) : State := exMat 0 [exEpiset] fun k => { k with pad := memPuts [] 512 ws }

/-- EngineSteps: EPISET of a sound set; of a NaN, of an infinity, of bounds that meet, of a reserved word that is not zero. -/
theorem witness_episet : let val (s : State) : Nat := (spanRead 0 exSrc (0, 576) s).1
    (let s := exEpi [0, 0, 0, 0x80, 1, 0, 0, 0]
     MayStart s 0 0 5 exEpiset (tensorOf 0) s ∧ (∃ w, spanRead 0 exEpiset.src (exEpiset.x1.toNat % 2 ^ 20, 576) s = (val s, w)) ∧
      nonFinite (f32.decode (elemAt (val s) 32 128)) = false ∧ nonFinite (f32.decode (elemAt (val s) 32 129)) = false ∧
      (ltNum (f32.decode (elemAt (val s) 32 128)) (f32.decode (elemAt (val s) 32 129)) = true ∧ val s / 2 ^ 4224 = 0)) ∧
    nonFinite (f32.decode (elemAt (val (exEpi [1, 0, 0x80, 0x7F])) 32 128)) = true ∧
    nonFinite (f32.decode (elemAt (val (exEpi [0, 0, 0, 0, 0, 0, 0x80, 0x7F])) 32 129)) = true ∧
    ltNum (f32.decode (elemAt (val (exEpi [])) 32 128)) (f32.decode (elemAt (val (exEpi [])) 32 129)) = false ∧
    val (exEpi (List.replicate 63 0 ++ [1])) / 2 ^ 4224 ≠ 0 := by
  refine ⟨⟨mayStart_of (by decide +kernel), ⟨_, (Prod.eta _).symm⟩, by decide +kernel, by decide +kernel, by decide +kernel⟩, by decide +kernel, by decide +kernel,
    by decide +kernel, by decide +kernel⟩

/-- EngineSteps: commands that complete, with an object and without. -/
theorem witness_complete : (let x := { exSwap with phase := 1 }
      let s := exMat 0 [x]
      (cmdsOf s 0)[0]? = some x ∧ x.phase = 1 ∧ x.sample = none ∧ objReady s 0 x.obj = true ∧ x.leave = 0 ∧ x.obj = none) ∧
    (let x := { exStreamCmd with phase := 1, cmd := exStreamCmd.cmd ||| 1#64 <<< 57 ||| 31#64 <<< 52 ||| 1#64 <<< 48 ||| 6#64 <<< 32, flags := 1, bytes := 4 }
     let s := exMat 0 [exSwap, x]
     (cmdsOf s 0)[1]? = some x ∧ objReady s 0 x.obj = true ∧ bitAt x.cmd.toNat 57 = true ∧ x.obj.isSome = true) ∧ exSwap.mode = 0 := by decide +kernel

/-- A ray query with result slot 0x6000, counter 0x3008 and scene 0x4000, a beam query of one ray, in the engine of core 0. -/
def exRayQuery : Query := { ray := true, addr := 0x2000, image := 2 ^ 224 + 2 ^ 256 * (0x6000 + 2 ^ 64 * (0x3008 + 2 ^ 64 * 0x4000)) }
def exBeam (q : Query) : State := exCoreWith fun k => { k with beams := [q] }

/-- The only query of core 0 is taken up. -/
theorem takes_one {q : Query} (h : readyQueries (coreOf (exBeam q) 0) = [0]) : TakesUp (exBeam q) 0 q (takeUp 0 0 (exBeam q)) :=
  ⟨[0], 0, exBeam q, h.symm, by simp, rfl, rfl, rfl⟩

/-- A beam of one ray at work while its core drains. -/
def exTile : Query := { ray := false, addr := 0x2000, image := 0x6000 * 2 ^ 608, started := true, stack := [5] }
def exTileS : State := modCore (exBeam exTile) 0 fun k => { k with leaving := 1 }

/-- EngineSteps: the beam engine with a bad record, a query to start, one with an empty stack, one that a draining core hands over, and
one with a leaf. -/
theorem witness_beam :
    (let q := { exRayQuery with bad := 2 }
     let v := takeUp 0 0 (exBeam q)
     TakesUp (exBeam q) 0 q v ∧ ∃ u, recordBad ⟨0, 0, 4⟩ (beamOf true q.image) q v = .ok () u) ∧
    (let v := takeUp 0 0 (exBeam exRayQuery)
     TakesUp (exBeam exRayQuery) 0 exRayQuery v ∧ exRayQuery.bad = 0 ∧ exRayQuery.started = false ∧
      ∃ u, initSlots ⟨0, 0, 4⟩ (beamOf true exRayQuery.image) v = .ok () u) ∧
    (let q := { exRayQuery with started := true, best := [(0, ⟨1, 3, 1 / 2, 1 / 4, false⟩)] }
     let v := takeUp 0 0 (exBeam q)
     TakesUp (exBeam q) 0 q v ∧ q.started = true ∧ q.stack = [] ∧ ∃ u, finish ⟨0, 0, 4⟩ (beamOf true q.image) q v = .ok () u) ∧
    let q := { exRayQuery with started := true, stack := [5, 2 ^ 31 + 3 * 2 ^ 28 + 1] }
    let v := takeUp 0 0 (exBeam q)
    TakesUp (exBeam q) 0 q v ∧ (coreOf (exBeam q) 0).draining = false ∧
      q.failed = [] ∧ q.stack = [5] ++ [2 ^ 31 + 3 * 2 ^ 28 + 1] ∧ (2 ^ 31 + 3 * 2 ^ 28 + 1) / 2 ^ 30 = 2 ∧
      ∃ d u, vreadN ⟨0, 0, 4⟩ ((beamOf true q.image).root + 64 * ((2 ^ 31 + 3 * 2 ^ 28 + 1) % 2 ^ 28)) (64 * (fld (2 ^ 31 + 3 * 2 ^ 28 + 1) 29 28 + 1)) v = .ok d u := by
  refine ⟨⟨takes_one (by decide +kernel), _, done_of (by decide +kernel)⟩,
    ⟨takes_one (by decide +kernel), by decide, by decide, _, done_of (by decide +kernel)⟩,
    ⟨takes_one (by decide +kernel), by decide, by decide, _, done_of (by decide +kernel)⟩,
    takes_one (by decide +kernel), by decide +kernel, by decide, by decide, by decide, ?_⟩
  obtain ⟨d, u, h, -⟩ := ok_ex (p := fun _ => true) (by decide +kernel : okB (vreadN ⟨0, 0, 4⟩ ((beamOf true exRayQuery.image).root +
    64 * ((2 ^ 31 + 3 * 2 ^ 28 + 1) % 2 ^ 28)) (64 * (fld (2 ^ 31 + 3 * 2 ^ 28 + 1) 29 28 + 1)))
    (takeUp 0 0 (exBeam { exRayQuery with started := true, stack := [5, 2 ^ 31 + 3 * 2 ^ 28 + 1] })) (fun _ => true) = true)
  exact ⟨d, u, h⟩

/-- EngineSteps: a beam that its core, which drains, hands over. -/
theorem witness_hand_over : TakesUp exTileS 0 exTile (takeUp 0 0 exTileS) ∧ exTile.bad = 0 ∧ exTile.started = true ∧ exTile.stack ≠ [] ∧
    exTile.toEnd = false ∧ (coreOf exTileS 0).draining = true ∧
    ∃ u, drainBeam ⟨0, 0, 4⟩ (beamOf false exTile.image) exTile (takeUp 0 0 exTileS) = .ok true u := by
  refine ⟨⟨[0], 0, exTileS, by decide +kernel, by simp, rfl, rfl, rfl⟩, by decide, by decide, by decide, by decide, by decide +kernel, ?_⟩
  obtain ⟨a, u, h, k⟩ := ok_ex (p := fun (a : Bool) => a) (by decide +kernel : okB (drainBeam ⟨0, 0, 4⟩ (beamOf false exTile.image) exTile) (takeUp 0 0 exTileS)
    (fun a => a) = true)
  exact ⟨u, by rw [h, k]⟩

/-! ### Witnesses: chain entries -/

/-- Queue 7 of core 0 stands before an entry at offset 64 of its window, the last of its chain. -/
def exChain (e : Nat) (f : Core → Core := id) (k : CopyQ → CopyQ := id) : State :=
  modCtx (exMat (exImage 8 4) [] fun x => f { x with
    pad := memPuts [] 64 (leBytes 32 (e ||| 2 ^ 8))
    queues := [(7, k { cur := some ⟨64, 8, exSrc⟩, off := 64, kicks := 1 })] }) 0 fun x =>
      { x with launches := [(0, { fields := exFabric, extents := [2] })] }

/-- Its head. -/
def exHead7 : Head := ⟨64, 8, exSrc⟩

/-- An entry as it is read, or as it was read. -/
def readEntry (s : State) (c q : Nat) (h : Head) : Nat × State :=
  let k := copyQOf s c q
  if k.waitEv = true ∨ k.waitPwr = true then (k.entry.toNat, s) else padNum c h.src k.off 32 s

/-- A queue stands before an entry, as a test that computes. -/
def atEntryB (s : State) (c q : Nat) (h : Head) (e : Nat) (idx : List Nat) (mask : Nat) (bad : Bool) : Bool :=
  let k := copyQOf s c q
  let l := entryLists c h.src e (readEntry s c q h).2
  decide (k.cur = some h ∧ k.err = false ∧ k.landed = false ∧ k.failed = false ∧ k.started = false ∧ k.waitCond = false
    ∧ engineStops (coreOf s c) = false ∧ (readEntry s c q h).1 = e ∧ l.1 = idx ∧ l.2.1 = mask)
  && match followCheck c q h e l.2.2 with | .done b _ => decide (b = bad) | _ => false

/-- The state in which it stands. -/
def atState (s : State) (c q : Nat) (h : Head) (e : Nat) : State :=
  exDone (followCheck c q h e (entryLists c h.src e (readEntry s c q h).2).2.2) s

theorem at_of {s : State} {c q e mask : Nat} {h : Head} {idx : List Nat} {bad : Bool} (hb : atEntryB s c q h e idx mask bad = true) :
    AtEntry s c q h (copyQOf s c q) e idx mask bad (atState s c q h e) := by
  unfold atEntryB at hb
  simp only [Bool.and_eq_true, decide_eq_true_eq] at hb
  obtain ⟨⟨h1, h2, h3, h4, h5, h6, h7, h8, h9, h10⟩, h11⟩ := hb
  refine ⟨⟨rfl, h1, h2, h3, h4, h5, h6⟩, h7, (readEntry s c q h).2, (entryLists c h.src e (readEntry s c q h).2).2.2, ?_, ?_, ?_⟩
  · unfold readEntry at h8 ⊢
    split
    · rename_i hw
      rw [if_pos hw] at h8 ⊢
      exact ⟨h8.symm, rfl⟩
    · rename_i hw
      rw [if_neg hw] at h8 ⊢
      rw [← h8]
  · rw [← h9, ← h10]
  · unfold atState exDone
    cases hf : followCheck c q h e (entryLists c h.src e (readEntry s c q h).2).2.2 with
    | done b v => simp only [hf, decide_eq_true_eq] at h11; rw [h11]
    | wait o => simp [hf] at h11
    | failed v => simp [hf] at h11

/-- An entry's fields: OP, SRC and DST in the window or in memory, bits 38 and up, and the bits from 192 on. -/
def exEntry (op : Nat) (srcPad : Bool) (src : Nat) (dstPad : Bool) (dst mid hi : Nat) : Nat :=
  op + 2 ^ 8 + mid * 2 ^ 38 + src * 2 ^ 64 + (if srcPad then 2 ^ 121 else 0) + dst * 2 ^ 128 + (if dstPad then 2 ^ 185 else 0) + hi * 2 ^ 192

/-- A FOLLOW of eight bytes and a stream into tile 3 with the tensor given. -/
def exFollow (tid : Nat) : Nat := exEntry 13 false 0x3000 true 0x400 0 (8 + (3 * 2 ^ 2 + 2 ^ 11 + tid * 2 ^ 19) * 2 ^ 32)

/-- One entry of each data OP. -/
def exCopyE : Nat := exEntry 1 true 0x200 false 0x5FF8 0 8
def exStrided : Nat := exEntry 2 true 0x200 true 0x400 1 (8 + 0xFFFFF0 * 2 ^ 16 + 16 * 2 ^ 40)
def exGather : Nat := exEntry 3 true 0x200 true 0x400 4 (1 + 0x100 * 2 ^ 32)
def exScatter : Nat := exEntry 4 true 0x200 true 0x400 4 (1 + 0x100 * 2 ^ 32)
def exNmgather : Nat := exEntry 5 false 0x3000 true 0x400 4 (1 + 0x100 * 2 ^ 32)
def exMaskrow (format : Nat) (pack : Bool) : Nat :=
  exEntry 6 true 0x200 true 0x400 (1 + format * 2 ^ 16 + if pack then 2 ^ 24 else 0) (4 + 4 * 2 ^ 16 + 0x120 * 2 ^ 40)
def exRwrite : Nat := exEntry 8 true 0x200 false 0x5000 1 600
def exRreduce : Nat := exEntry 9 true 0x200 false 0x5000 1 8

theorem event_of {e : Nat} {v : State} (h : (bitAt e 11 && !(copyQOf v 0 7).evTaken && decide (sinksAhead 0 7 (fld e 21 17) v < mget 0 (coreOf v 0).events (fld e 21 17)) &&
    (takeEvent 0 (fld e 21 17) v).isSome) = true) : ∃ w, EventMet 0 7 e v w := by
  simp only [Bool.and_eq_true, Bool.not_eq_true', decide_eq_true_eq] at h
  obtain ⟨⟨⟨h1, h2⟩, h3⟩, h4⟩ := h
  obtain ⟨w, hw⟩ := Option.isSome_iff_exists.1 h4
  exact ⟨w, Or.inr ⟨h1, h2, h3, hw⟩⟩

/-- ChainSteps: entries that may start: a copy of 64 KiB with its event, one that was read before its queue waited, and a gather beside 61
ranges of other queues. -/
theorem witness_entry_starts :
    (let e := exEntry 1 false 0x3000 false 0x8000 0 65536 + 2 ^ 11 + 5 * 2 ^ 17
     ∀ k ∈ [false, true], let s := exChain e (fun k => { k with events := [(5, 1)] }) fun y => { y with waitEv := k, entry := if k then .ofNat 256 e else 0 }
     let v := atState s 0 7 exHead7 e
     AtEntry s 0 7 exHead7 (copyQOf s 0 7) e [] 0 false v ∧ malformed v exHead7 64 e [] false = none ∧ (∃ w, EventMet 0 7 e v w) ∧ eMoves e 0 ≤ 65536) ∧
    let s := exChain exGather fun k => { k with ranges := (List.range 61).map fun i => (8192 + 64 * i, 8256 + 64 * i, 3) }
    let v := atState s 0 7 exHead7 exGather
    AtEntry s 0 7 exHead7 (copyQOf s 0 7) exGather [0] 0 false v ∧ malformed v exHead7 64 exGather [0] false = none ∧ EventMet 0 7 exGather v v ∧
    eMoves exGather 0 ≤ 65536 ∧ ((coreOf v 0).ranges.filter (·.2.2 != 7)).length + (entryRanges exGather [0]).1.length +
      (entryRanges exGather [0]).2.length ≤ 64 := by
  refine ⟨?_, at_of (by decide +kernel), by decide +kernel, Or.inl ⟨Or.inl (by decide +kernel), rfl⟩, by decide +kernel, by decide +kernel⟩
  intro e k hk
  simp only [List.mem_cons, List.not_mem_nil, or_false] at hk
  rcases hk with rfl | rfl
  all_goals
    refine ⟨at_of (by decide +kernel), by decide +kernel, event_of (by decide +kernel), by decide +kernel⟩

/-- ChainSteps: entries that do not start: reserved OPs, a fence with an object, a FOLLOW of a bad tensor; an event that is not there, a move of
more than 64 KiB. -/
theorem witness_entry_waits :
    (∀ x ∈ [(2 ^ 8, false), (15 + 2 ^ 8, false), (255 + 2 ^ 8, false), (exEntry 12 false 0 false 0 0 0 + 2 ^ 9, false), (exFollow 4, true)],
      AtEntry (exChain x.1) 0 7 exHead7 (copyQOf (exChain x.1) 0 7) x.1 [] 0 x.2 (atState (exChain x.1) 0 7 exHead7 x.1)
        ∧ (malformed (atState (exChain x.1) 0 7 exHead7 x.1) exHead7 64 x.1 [] x.2).isSome = true) ∧
    (let e := exCopyE + 2 ^ 11
     let v := atState (exChain e) 0 7 exHead7 e
     AtEntry (exChain e) 0 7 exHead7 (copyQOf (exChain e) 0 7) e [] 0 false v ∧ malformed v exHead7 64 e [] false = none ∧ bitAt e 11 = true ∧
      (copyQOf v 0 7).evTaken = false ∧ (copyQOf v 0 7).waitEv = false ∧ mget 0 (coreOf v 0).events (fld e 21 17) ≤ sinksAhead 0 7 (fld e 21 17) v) ∧
    let e := exEntry 1 false 0x3000 false 0x8000 0 65537
    let v := atState (exChain e) 0 7 exHead7 e
    AtEntry (exChain e) 0 7 exHead7 (copyQOf (exChain e) 0 7) e [] 0 false v ∧ malformed v exHead7 64 e [] false = none ∧ EventMet 0 7 e v v ∧
    65536 < eMoves e 0 ∧ (copyQOf v 0 7).leave ≠ 2 ∧ (copyQOf v 0 7).waitPwr = false := by
  refine ⟨?_, ⟨at_of (by decide +kernel), by decide +kernel, by decide +kernel, by decide +kernel, by decide +kernel, by decide +kernel⟩,
    at_of (by decide +kernel), by decide +kernel, Or.inl ⟨Or.inl (by decide +kernel), rfl⟩, by decide +kernel, by decide +kernel, by decide +kernel⟩
  intro x hx
  simp only [List.mem_cons, List.not_mem_nil, or_false] at hx
  rcases hx with rfl | rfl | rfl | rfl | rfl
  all_goals exact ⟨at_of (by decide +kernel), by decide +kernel⟩

/-- A gate lets an entry go. -/
def gateB (g : Gate) (p : Head → CopyQ → Nat → State → Bool) : Bool :=
  match g with
  | .go h k e s => p h k e s
  | .stay _ => false

theorem gate_ex {g : Gate} {p : Head → CopyQ → Nat → State → Bool} (h : gateB g p = true) :
    ∃ hd k e u, g = .go hd k e u ∧ p hd k e u = true := by
  cases g with
  | go hd k e u => exact ⟨hd, k, e, u, rfl, h⟩
  | stay o => simp [gateB] at h

/-- No page request of a queue is open or has failed. -/
def freeB (s : State) (c q : Nat) : Bool := ((coreOf s c).unitWait.all fun w => w.1 != q) && !(coreOf s c).unitFail.contains q

theorem free_of {s : State} {c q : Nat} (h : freeB s c q = true) : UnitFree s c q := by
  simp only [freeB, Bool.and_eq_true, List.all_eq_true, bne_iff_ne, Bool.not_eq_true'] at h
  exact ⟨h.1, fun hm => by simp [hm] at h⟩

/-- Units run to the end, as a test that computes. -/
def runB (c q e mask : Nat) (unit : Nat × Nat → M Nat) (fin : State → Bool) : List (Nat × Nat) → Tally → State → Bool
  | [], _, s => fin s
  | x :: xs, a, s => freeB s c q && match unit x s with
    | .ok g u => runB c q e mask unit fin xs ⟨a.prog + x.2, a.bytes + unitBytes e mask x, a.flags ||| g⟩ u
    | .error _ _ => false

theorem run_ex {c q e mask : Nat} {unit : Nat × Nat → M Nat} {fin : State → Bool} : ∀ (xs : List (Nat × Nat)) (a : Tally) (s : State),
    runB c q e mask unit fin xs a s = true → ∃ b t, UnitsRun c q e mask unit xs a s b t ∧ fin t = true
  | [], a, s, h => ⟨a, s, ⟨rfl, rfl⟩, h⟩
  | x :: xs, a, s, h => by
    simp only [runB, Bool.and_eq_true] at h
    obtain ⟨h1, h2⟩ := h
    split at h2
    · rename_i g u hu
      obtain ⟨b, t, hr, hf⟩ := run_ex xs _ u h2
      exact ⟨b, t, ⟨free_of h1, g, u, hu, hr⟩, hf⟩
    · simp at h2

/-- The units that a queue has left run, as a test that computes. -/
def leftB (k : CopyQ) (e : Nat) (unit : Nat × Nat → M Nat) (s : State) (fin : State → Bool := fun _ => true) : Bool :=
  runB 0 7 e k.mask unit fin (leftUnits k.prog0 (unitOrder e k.seed)) { prog := k.prog0 } s

/-- ChainSteps: COPY up to a page's end, STRIDED, GATHER, SCATTER, NMGATHER, MASKROW; a remote write of two packets and a remote reduce:
every unit is answered. -/
theorem witness_units : ∀ x ∈ [(1, exCopyE), (2, exStrided), (3, exGather), (4, exScatter), (5, exNmgather), (6, exMaskrow 0 true), (8, exRwrite), (9, exRreduce)],
    ∃ h k e u, gate x.1 0 7 (exChain x.2) = .go h k e u ∧ eOp e = x.1 ∧ ∃ b v,
      LeftRun 0 7 k e (if x.1 ≤ 6 then copyUnit 0 h.src e k.idx k.mask else remoteUnit 0 7 h.src e) u b v := by
  intro x hx
  have h := List.all_eq_true.1 (by decide +kernel : ([(1, exCopyE), (2, exStrided), (3, exGather), (4, exScatter), (5, exNmgather), (6, exMaskrow 0 true),
      (8, exRwrite), (9, exRreduce)] : List (Nat × Nat)).all (fun x => gateB (gate x.1 0 7 (exChain x.2)) fun h k e u => decide (eOp e = x.1) &&
      leftB k e (if x.1 ≤ 6 then copyUnit 0 h.src e k.idx k.mask else remoteUnit 0 7 h.src e) u) = true) x hx
  obtain ⟨hd, k, e, u, h1, h2⟩ := gate_ex h
  simp only [Bool.and_eq_true, decide_eq_true_eq] at h2
  obtain ⟨b, v, hr, -⟩ := run_ex _ _ _ h2.2
  exact ⟨hd, k, e, u, h1, h2.1, b, v, hr⟩

theorem moved_ex {c : Nat} {o : Origin} {e agent a b n : Nat} {s : State}
    (h : (match copyRead c o (eSrcPad e) a n agent s with | .ok bs u => okB (copyWrite c o (eDstPad e) b bs) u | .error _ _ => false) = true) :
    ∃ t, Moved c o e agent a b n s t := by
  cases hr : copyRead c o (eSrcPad e) a n agent s with
  | ok bs u =>
    rw [hr] at h
    exact ⟨_, bs, u, hr, done_of h⟩
  | error x u => simp [hr] at h

/-- ChainSteps: the units' own moves. -/
theorem witness_moves :
    (∃ t, Moved 0 exSrc exCopyE 2 (eSrc exCopyE + 2) (eDst exCopyE + 2) 6 exS t) ∧
    (∃ t, Moved 0 exSrc exStrided 2 (stepAddr (eSrc exStrided) (2 * eSStride exStrided)) (stepAddr (eDst exStrided) (2 * eDStride exStrided)) (eRowLen exStrided) exS t) ∧
    (∃ t, Moved 0 exSrc exGather 2 (eSrc exGather + [0, 3].getD 1 0 * eEsize exGather) (eDst exGather + 1 * eEsize exGather) (eEsize exGather) exS t) ∧
    (∃ t, Moved 0 exSrc exScatter 2 (eSrc exScatter + 1 * eEsize exScatter) (eDst exScatter + [0, 3].getD 1 0 * eEsize exScatter) (eEsize exScatter) exS t) ∧
    (∃ t, Moved 0 exSrc exNmgather 8 (eSrc exNmgather + [0, 3].getD 1 0 * eEsize exNmgather) (eDst exNmgather + 1 * eEsize exNmgather) (eEsize exNmgather) exS t) ∧
    (∀ p ∈ [true, false], ∃ t, Moved 0 exSrc (exMaskrow 0 p) 2 (stepAddr (eSrc (exMaskrow 0 p)) (2 * eSStride (exMaskrow 0 p)))
      (eDst (exMaskrow 0 p) + (if bitAt (exMaskrow 0 p) 62 then ((List.range 2).filter (bitAt 5 ·)).length else 2) * eRowLen (exMaskrow 0 p))
      (eRowLen (exMaskrow 0 p)) exS t) ∧
    (bitAt 5 2 = true ∧ bitAt 5 1 = false ∧ fld (exMaskrow 0 true) 61 54 = 0 ∧ bitAt (exMaskrow 0 true) 62 = true ∧ bitAt (exMaskrow 0 false) 62 = false) ∧
    (∃ t, copyWrite 0 exSrc (eDstPad (exMaskrow 0 false)) (eDst (exMaskrow 0 false) + 1 * eRowLen (exMaskrow 0 false))
      (List.replicate (eRowLen (exMaskrow 0 false)) 0) exS = .ok () t) ∧
    (eOp (exMaskrow 1 true) = 6 ∧ fld (exMaskrow 1 true) 61 54 ≠ 0 ∧ bitAt (exMaskrow 1 true) 62 = true) ∧
    ∃ bs t, copyRead 0 exSrc (eSrcPad (exMaskrow 1 true)) (stepAddr (eSrc (exMaskrow 1 true)) (1 * eSStride (exMaskrow 1 true))) (eRowLen (exMaskrow 1 true)) 2 exS
      = .ok bs t := by
  refine ⟨moved_ex (by decide +kernel), moved_ex (by decide +kernel), moved_ex (by decide +kernel), moved_ex (by decide +kernel),
    moved_ex (by decide +kernel), ?_, by decide +kernel, ⟨_, done_of (by decide +kernel)⟩, by decide +kernel, ?_⟩
  · intro p hp
    simp only [List.mem_cons, List.not_mem_nil, or_false] at hp
    rcases hp with rfl | rfl
    all_goals exact moved_ex (by decide +kernel)
  · obtain ⟨bs, t, h, -⟩ := ok_ex (p := fun _ => true) (by decide +kernel : okB (copyRead 0 exSrc (eSrcPad (exMaskrow 1 true))
      (stepAddr (eSrc (exMaskrow 1 true)) (1 * eSStride (exMaskrow 1 true))) (eRowLen (exMaskrow 1 true)) 2) exS (fun _ => true) = true)
    exact ⟨bs, t, h⟩

/-- ChainSteps: the second packet of a remote write, and a remote reduce's. -/
theorem witness_packet : ∀ x ∈ [(exRwrite, 512, 88), (exRreduce, 0, 2)], let z := if eOp x.1 = 9 then ropSize (fld x.1 49 46) else 1
    (0 < 192 ∧ 7 < 8 ∧ (eOp x.1 = 8 ∨ eOp x.1 = 9) ∧ x.2.2 * z ≤ 512) ∧
    ∃ bs u, copyRead 0 exSrc (eSrcPad x.1) (eSrc x.1 + x.2.1 * z) (x.2.2 * z) 2 exS = .ok bs u ∧ (bs.length == x.2.2 * z) = true := by
  intro x hx
  have h := (by decide +kernel : ∀ x ∈ ([(exRwrite, 512, 88), (exRreduce, 0, 2)] : List (Nat × Nat × Nat)), let z := if eOp x.1 = 9 then ropSize (fld x.1 49 46) else 1
    (0 < 192 ∧ 7 < 8 ∧ (eOp x.1 = 8 ∨ eOp x.1 = 9) ∧ x.2.2 * z ≤ 512) ∧
    okB (copyRead 0 exSrc (eSrcPad x.1) (eSrc x.1 + x.2.1 * z) (x.2.2 * z) 2) exS (fun b => b.length == x.2.2 * z) = true) x hx
  exact ⟨h.1, ok_ex h.2⟩

/-- The state with an INSTAR of 2 bytes, its tensor's code at 0x6000: one-bit codes for the bytes 65 and 66, or too many of them. -/
def exInstar (codes : Nat) : State :=
  exPut 0x6020 2 0x4241 (exPut 0x6000 2 codes (exPut 0x20C0 64 (exImage 4 8 + 2 ^ 12 + 0x6000 * 2 ^ 398) (exChain (exEntry 7 true 0x200 true 0x400 3 (1 + 2 * 2 ^ 32)))))

/-- ChainSteps: INSTAR. -/
theorem witness_instar : (∃ h k e u, gate 7 0 7 (exInstar 2) = .go h k e u ∧ UnitFree u 0 7 ∧
      ∃ out v, instarOut 0 h.src e u = .ok out v ∧ out.isSome = true) ∧
    ∃ h k e u, gate 7 0 7 (exInstar 3) = .go h k e u ∧ UnitFree u 0 7 ∧ ∃ out v, instarOut 0 h.src e u = .ok out v ∧ out.isNone = true := by
  constructor
  · obtain ⟨hd, k, e, u, h1, h2⟩ := gate_ex (by decide +kernel : gateB (gate 7 0 7 (exInstar 2)) (fun h _ e u => freeB u 0 7 &&
      okB (instarOut 0 h.src e) u fun o => o.isSome) = true)
    simp only [Bool.and_eq_true] at h2
    exact ⟨hd, k, e, u, h1, free_of h2.1, ok_ex h2.2⟩
  · obtain ⟨hd, k, e, u, h1, h2⟩ := gate_ex (by decide +kernel : gateB (gate 7 0 7 (exInstar 3)) (fun h _ e u => freeB u 0 7 &&
      okB (instarOut 0 h.src e) u fun o => o.isNone) = true)
    simp only [Bool.and_eq_true] at h2
    exact ⟨hd, k, e, u, h1, free_of h2.1, ok_ex h2.2⟩

/-- A LOOP from offset 32 on with some steps to go. -/
def exLoop (rem : Nat) : Nat := 10 + 2 ^ 8 + 32 * 2 ^ 38 + 8 * 2 ^ 64 + 16 * 2 ^ 128 + 5 * 2 ^ 192 + rem * 2 ^ 224

/-- ChainSteps: LOOP with one step to go, and with none. -/
theorem witness_loop : ∀ r ∈ [1, 0], ∃ h k e u, gate 10 0 7 (exChain (exLoop r)) = .go h k e u ∧ (fld e 255 224 == r) = true := by
  intro r hr
  have h := List.all_eq_true.1 (by decide +kernel : [1, 0].all (fun r => gateB (gate 10 0 7 (exChain (exLoop r))) fun _ _ e _ => fld e 255 224 == r) = true) r hr
  exact gate_ex h

/-- A COND on the window's word at 0x200, its target 0: its test, whether it polls, and its operand. -/
def exCond (test : Nat) (poll : Bool) (x : Nat) : Nat := exEntry 11 true 0x200 false 0 (test * 2 ^ 20 + if poll then 2 ^ 23 else 0) x

/-- ChainSteps: COND, that holds under each test, jumps or polls; COND_POLL. -/
theorem witness_cond :
    (∀ x ∈ [exCond 5 false 1, exCond 5 true 1, exCond 0 false 0], ∃ h k e u, gate 11 0 7 (exChain x) = .go h k e u ∧ (copyQOf (exChain x) 0 7).waitCond = false ∧
      fld e 60 58 ≤ 5 ∧ UnitFree u 0 7 ∧ ∃ bs v, copyRead 0 h.src (eSrcPad e) (eSrc e) 8 2 u = .ok bs v ∧ (ofBytes bs == 0) = true) ∧
    (CondHolds 0 0 0 ∧ CondHolds 1 0 1 ∧ CondHolds 2 0 1 ∧ CondHolds 3 1 1 ∧ CondHolds 4 3 1 ∧ CondHolds 5 3 1 ∧ ¬CondHolds 5 0 1) ∧
    let s := { exChain 0 id (fun k => { k with entry := .ofNat 256 (exCond 5 true 1), started := true, waitCond := true }) with clk := 64 }
    let k := copyQOf s 0 7
    (copyQOf s 0 7).waitCond = true ∧ k.err = false ∧ k.landed = false ∧ k.failed = false ∧ engineStops (coreOf s 0) = false ∧ k.polled + 64 ≤ s.clk ∧
    bitAt k.entry.toNat 61 = true := by
  refine ⟨?_, by simp [CondHolds], by decide +kernel⟩
  intro x hx
  have h := List.all_eq_true.1 (by decide +kernel : [exCond 5 false 1, exCond 5 true 1, exCond 0 false 0].all (fun x => gateB (gate 11 0 7 (exChain x)) fun h _ e u =>
    decide ((copyQOf (exChain x) 0 7).waitCond = false ∧ fld e 60 58 ≤ 5) && freeB u 0 7 && okB (copyRead 0 h.src (eSrcPad e) (eSrc e) 8 2) u fun b => ofBytes b == 0) = true) x hx
  obtain ⟨hd, k, e, u, h1, h2⟩ := gate_ex h
  simp only [Bool.and_eq_true, decide_eq_true_eq] at h2
  exact ⟨hd, k, e, u, h1, h2.1.1.1, h2.1.1.2, free_of h2.1.2, ok_ex h2.2⟩

/-- A QFENCE on queues 0 and 6, queue 6 having three chains of which some have ended. -/
def exFence (n : Nat) : State := exChain (exEntry 12 false 0 false 0 0x41 0) fun x => { x with queues := mput {} x.queues 6 { kicks := 3, ends := n } }

/-- ChainSteps: QFENCE: all chains have ended, and one has not. -/
theorem witness_qfence : ∀ n ∈ [2, 3], ∃ h k e u, gate 12 0 7 (exFence n) = .go h k e u ∧ (copyQOf (exFence n) 0 7).started = false ∧
    bitAt e 38 = true ∧ bitAt e 44 = true ∧ (copyQOf u 0 6).kicks = 3 ∧ (copyQOf u 0 6).ends = n := by
  intro n hn
  have h := List.all_eq_true.1 (by decide +kernel : [2, 3].all (fun n => gateB (gate 12 0 7 (exFence n)) fun _ _ e u =>
    decide ((copyQOf (exFence n) 0 7).started = false ∧ bitAt e 38 = true ∧ bitAt e 44 = true ∧ (copyQOf u 0 6).kicks = 3 ∧ (copyQOf u 0 6).ends = n)) = true) n hn
  obtain ⟨hd, k, e, u, h1, h2⟩ := gate_ex h
  exact ⟨hd, k, e, u, h1, of_decide_eq_true h2⟩

/-- ChainSteps: FOLLOW, the matrix engine with room and full. -/
theorem witness_follow : ∀ n ∈ [0, 32], let s := exChain (exFollow 3) fun k => { k with matrix := { cmds := List.replicate n exSwap } }
    ∃ h k e u, gate 13 0 7 s = .go h k e u ∧ ∃ b w, LeftRun 0 7 k e (copyUnit 0 h.src e [] 0) u b w ∧
      matrixRoom w 0 = (n == 0) ∧ k.prog0 ≠ eLen e := by
  intro n hn
  have h := List.all_eq_true.1 (by decide +kernel : [0, 32].all (fun n => gateB (gate 13 0 7 (exChain (exFollow 3) fun k =>
    { k with matrix := { cmds := List.replicate n exSwap } })) fun h k e u => decide (k.prog0 ≠ eLen e) &&
      leftB k e (copyUnit 0 h.src e [] 0) u fun w => matrixRoom w 0 == (n == 0)) = true) n hn
  obtain ⟨hd, k, e, u, h1, h2⟩ := gate_ex h
  simp only [Bool.and_eq_true, decide_eq_true_eq] at h2
  obtain ⟨b, w, hr, hf⟩ := run_ex _ _ _ h2.2
  exact ⟨hd, k, e, u, h1, b, w, hr, by simpa using hf, h2.1⟩

/-- A SIGNAL at .fabric: to the window or to memory, a store or an addition. -/
def exSignal (pad add : Bool) : Nat := exEntry 14 false 0 pad (if pad then 0xFF8 else 0x3000) (4 + if add then 8 else 0) 5

/-- ChainSteps: SIGNAL. -/
theorem witness_signal :
    (∀ p ∈ [true, false], ∃ h k e u, gate 14 0 7 (exChain (exSignal p false)) = .go h k e u ∧ UnitFree u 0 7 ∧
      (remoteOut u 0 = false ∧ bitAt e 41 = false) ∧ ∃ v, copyWrite 0 h.src (eDstPad e) (eDst e) (leBytes 8 (fld e 255 192)) u = .ok () v) ∧
    (∃ h k e u, gate 14 0 7 (exChain (exSignal false true)) = .go h k e u ∧ (bitAt e 41 = true ∧ eDstPad e = false) ∧
      ∃ old v, vatomic ⟨0, h.src.ctx, 2⟩ (eDst e) 8 (fun old => some ((old + fld e 255 192) % 2 ^ 64)) u = .ok old v) ∧
    ∃ h k e u, gate 14 0 7 (exChain (exSignal true true)) = .go h k e u ∧ (bitAt e 41 = true ∧ eDstPad e = true) ∧
      ∃ bs w, padRead u 0 h.src.ctx 2 (h.src.base + eDst e) 8 2 = (bs, w) := by
  refine ⟨?_, ?_, ?_⟩
  · intro p hp
    have h := List.all_eq_true.1 (by decide +kernel : [true, false].all (fun p => gateB (gate 14 0 7 (exChain (exSignal p false))) fun h _ e u => freeB u 0 7 &&
      decide (remoteOut u 0 = false ∧ bitAt e 41 = false) && okB (copyWrite 0 h.src (eDstPad e) (eDst e) (leBytes 8 (fld e 255 192))) u) = true) p hp
    obtain ⟨hd, k, e, u, h1, h2⟩ := gate_ex h
    simp only [Bool.and_eq_true, decide_eq_true_eq] at h2
    exact ⟨hd, k, e, u, h1, free_of h2.1.1, h2.1.2, _, done_of h2.2⟩
  · obtain ⟨hd, k, e, u, h1, h2⟩ := gate_ex (by decide +kernel : gateB (gate 14 0 7 (exChain (exSignal false true))) (fun h _ e u =>
      decide (bitAt e 41 = true ∧ eDstPad e = false) && okB (vatomic ⟨0, h.src.ctx, 2⟩ (eDst e) 8 fun old => some ((old + fld e 255 192) % 2 ^ 64)) u) = true)
    simp only [Bool.and_eq_true, decide_eq_true_eq] at h2
    obtain ⟨old, v, h3, -⟩ := ok_ex h2.2
    exact ⟨hd, k, e, u, h1, h2.1, old, v, h3⟩
  · obtain ⟨hd, k, e, u, h1, h2⟩ := gate_ex (by decide +kernel : gateB (gate 14 0 7 (exChain (exSignal true true))) (fun _ _ e _ =>
      decide (bitAt e 41 = true ∧ eDstPad e = true)) = true)
    exact ⟨hd, k, e, u, h1, of_decide_eq_true h2, _, _, (Prod.eta _).symm⟩

/-- An entry of queue 7 that is done, with an object, a pulse and flags; where it goes on. -/
def exDoneEntry (next : Nat) : State :=
  exChain 0 (fun k => { k with matrix := { tiles := [(3, { count := 1 })] } }) fun k => { k with
    landed := true, next := next, bytes := 8, flags := 1, heads := [⟨0x80, 0, exSrc⟩], started := true
    entry := .ofNat 256 (exCopyE + 2 ^ 9 + 2 ^ 10 + 6 * 2 ^ 22) }

/-- ChainSteps: entries complete, the last of their chain or not; an access has failed. -/
theorem witness_entry_done : (∀ n ∈ [96, 32], let k := copyQOf (exDoneEntry n) 0 7
      k.landed = true ∧ curHead k = exHead7 ∧ objReady (exDoneEntry n) 0 ((eObj k.entry.toNat).map ((curHead k).src.base + ·)) = true ∧
      eLast k.entry.toNat = true ∧ (k.next = k.off + 32 ↔ n = 96)) ∧
    (copyQOf (exChain exCopyE id fun k => { k with failed := true, prog0 := 4 }) 0 7).failed = true := by decide +kernel

/-! ### Witnesses: FloxLink -/

/-- The header of a packet: KIND, data flits, channel, LEN, ADDR, then every other field at its place (21 R363). -/
def exHdr (kind flits vc len addr rest : Nat) : BitVec 256 :=
  .ofNat 256 (kind * 2 ^ 248 + flits * 2 ^ 243 + vc * 2 ^ 241 + addr * 2 ^ 128 + len * 2 ^ 64 + rest)

/-- The machine with ports and records of remote writes under way. -/
def exPorts (ps : Map Port) : State :=
  { exS with ports := ps, sent := [⟨0, 1, 2, 0, 0x5000, [1], 0, 0, false, 0, 0, 7, none, false⟩, ⟨0, 1, 2, 0, 0x5008, [1], 0, 0, false, 0, 0, 8, none, false⟩] }

/-- A port that keeps two blocks, each with a remote write, and has packets of three channels to send, the first of 16 flits. -/
def exPort : Port :=
  { kept := [(0, [(1, 17, 8, 9), (3, 1, 0, 4)]), (255, [(1, 2, 7, 5)])], unacked := 2, bseq := 1, back := 254, credit0 := 16, credit1 := 3,
    outbox := [(0, 16, 0, 1), (1, 4, 9, 2), (1, 1, 10, 3), (3, 1, 0, 6)] }

/-- A block header: BSEQ, BACK, BNAK. -/
def exBlock (bseq back bnak : Nat) : BitVec 20 := .ofNat 20 (bseq * 2 ^ 12 + back * 2 ^ 4 + bnak * 2 ^ 3)

/-- LinkSteps, BLOCK_RECEIVE: block 0 after reset, whose BACK takes one of the two kept blocks, with BNAK and without; the same BACK
again; a block out of sequence, and one that the FEC cannot correct. -/
theorem witness_block : let s := exPorts [(23, exPort)]
    (portAt s 23).up = true ∧ hdrSeq (exBlock 0 255 1) = (portAt s 23).rx + 1 ∧ hdrSeq (exBlock 0 254 0) = (portAt s 23).rx + 1 ∧
    hdrSeq (exBlock 255 255 0) ≠ (portAt s 23).rx + 1 := by decide +kernel

/-- LinkSteps, BLOCK_SEND, BLOCK_RESEND and LINK_RETRAIN_COMPLETE: the last block before the limit; a port that is down. -/
theorem witness_send_block : (let s := exPorts [(23, { exPort with unacked := 127 })]
      (portAt s 23).up = true ∧ (portAt s 23).resend = [] ∧ (portAt s 23).unacked < 128 ∧
      ∃ x r, (portAt s 23).outbox = x :: r ∧ x.2.1 ≤ 20 ∧ x.1 = 0 ∧ x.2.1 ≤ (portAt s 23).credit0) ∧
    (let s := exPorts [(23, { exPort with unacked := 127, resend := [255, 0] })]
     (portAt s 23).up = true ∧ (portAt s 23).resend = 255 :: [0] ∧ (portAt s 23).unacked < 128) ∧
    (portAt (exPorts [(23, { exPort with up := false })]) 23).up = false := by
  refine ⟨⟨by decide +kernel, by decide +kernel, by decide +kernel, (0, 16, 0, 1), [(1, 4, 9, 2), (1, 1, 10, 3), (3, 1, 0, 6)], ?_⟩, ?_, ?_⟩
  all_goals decide +kernel

/-- LinkSteps, LINK_DOWN: port 2 while port 0 is down and port 1 up; the last port of sector 0 that is up. LINK_RETRAIN_COMPLETE: port 2 while
port 1 is up, and while it is the lowest. -/
theorem witness_down : (let s := exPorts [(0, { up := false }), (2, exPort)]
      let up := fun j => j != 2 && (portAt s j).up
      (portAt s 2).up = true ∧ 1 / 6 = 2 / 6 ∧ up 1 = true ∧ ∀ j, j / 6 = 2 / 6 → j < 1 → up j = false) ∧
    (let s := exPorts [(0, { up := false }), (1, { up := false }), (2, exPort), (3, { up := false }), (4, { up := false }), (5, { up := false })]
     (portAt s 2).up = true ∧ ∀ j, j / 6 = 2 / 6 → j ≠ 2 → (portAt s j).up = false) ∧
    ∀ far ∈ [1, 2], let s := exPorts [(0, { up := false }), (1, { up := far == 1, outbox := [(1, 4, 3, 2)] }), (2, { exPort with up := false })]
      let up := fun j => j == 2 || (portAt s j).up
      (portAt s 2).up = false ∧ far / 6 = 2 / 6 ∧ up far = true ∧ ∀ j, j / 6 = 2 / 6 → j < far → up j = false := by
  refine ⟨⟨by decide +kernel, by decide +kernel, by decide +kernel, ?_⟩, ⟨by decide +kernel, ?_⟩, ?_⟩
  · intro j _ h
    have : j = 0 := by omega
    subst this
    decide +kernel
  · have h : ∀ j < 6, j ≠ 2 → (portAt (exPorts [(0, { up := false }), (1, { up := false }), (2, exPort), (3, { up := false }), (4, { up := false }),
      (5, { up := false })]) j).up = false := by decide +kernel
    exact fun j hj => h j (by omega)
  · have h : ∀ far ∈ [1, 2], let s := exPorts [(0, { up := false }), (1, { up := far == 1, outbox := [(1, 4, 3, 2)] }), (2, { exPort with up := false })]
      (portAt s 2).up = false ∧ far / 6 = 2 / 6 ∧ (far == 2 || (portAt s far).up) = true ∧ ∀ j < far, (j == 2 || (portAt s j).up) = false := by decide +kernel
    exact fun far hf => ⟨(h far hf).1, (h far hf).2.1, (h far hf).2.2.1, fun j _ hj => (h far hf).2.2.2 j hj⟩

/-- LinkSteps, REMOTE_WRITE_APPLY at the target: the second write sent, of a window queue of its own, that its port has sent. -/
theorem witness_applied_far : let r : Remote := ⟨0, 2, 2, 0, 0x5008, [1], 0, 0, false, 0, 0, 8, none, false⟩
    let s : State := { exPorts [(23, exPort)] with sent := [⟨0, 1, 2, 0, 0x5000, [1], 0, 0, false, 0, 0, 9, none, false⟩, r] }
    s.sent[1]? = some r ∧ (∀ o ∈ s.sent.take 1, ¬(o.core = r.core ∧ o.q = r.q ∧ o.pkg = r.pkg ∧ o.ctx = r.ctx)) ∧
    ∀ p ∈ s.ports, ∀ x ∈ p.2.outbox, x.2.2.1 ≠ r.ident := by decide +kernel

/-- A packet keeps its form, as a test that computes. -/
def goodFormB (P : Packet) : Bool :=
  let h := P.hdr.toNat
  decide (pKind h = P.kind ∧ (bitAt h 240 = false ∧ fld h 95 91 = 0 ∧ fld h 58 0 = 0) ∧ pVc h = P.vc ∧
    (P.data.length = (if P.payload then pLen h else 0) ∧ pFlits h = (if P.payload then (pLen h + 31) / 32 else 0)) ∧
    if P.fabric then pTag h = 0 ∧ pSendq h < 1536 ∧ pDomain h ≠ 0
      else pSrc h = 0 ∧ pDst h = 0 ∧ pDomain h = 0 ∧ pWindow h = 0 ∧ pSendq h = 0 ∧ pRop h = 0 ∧ pDet h = false)

theorem form_of {P : Packet} (h : goodFormB P = true) : GoodForm P P.hdr.toNat := by
  obtain ⟨h1, h2, h3, h4, h5⟩ := of_decide_eq_true h
  exact ⟨⟨rfl, h1⟩, h2, h3, h4, h5⟩

/-- LinkSteps: a packet of a reserved KIND; a TIME packet with its reserved bit set. -/
theorem witness_bad_packet : pKind (exHdr 0x07 0 0 8 0 0).toNat ∉ [0x01, 0x02, 0x03, 0x04, 0x05, 0x06, 0x10, 0x11, 0x20, 0x30] ∧
    ∃ P, packetOf (.timePacket 23 (exHdr 0x20 2 2 64 0 (2 ^ 240)) (List.replicate 64 7)) = some P ∧ pKind P.hdr.toNat = P.kind ∧ ¬GoodForm P P.hdr.toNat := by
  refine ⟨by decide +kernel, _, rfl, by decide +kernel, fun h => ?_⟩
  have : bitAt (exHdr 0x20 2 2 64 0 (2 ^ 240)).toNat 240 = true := by decide +kernel
  exact absurd (this.symm.trans h.reserved.1) (by decide)

/-- LinkSteps, RDREQ and WRREQ: POWER_LIMIT's register and the last register address, with TAG 65535. -/
theorem witness_register_packet : ∀ a ∈ [deviceBase, 2 ^ 52 - 8],
    (let h := exHdr 0x01 0 0 8 a (65535 * 2 ^ 192)
     GoodForm ⟨23, 0x01, 0, false, false, 3, h, []⟩ h.toNat ∧ pLen h.toNat = 8 ∧ registerAddr (pAddr h.toNat) = true) ∧
    let h := exHdr 0x03 1 0 8 a 0
    GoodForm ⟨23, 0x03, 0, true, false, 3, h, leBytes 8 600⟩ h.toNat ∧ pLen h.toNat = 8 ∧ registerAddr (pAddr h.toNat) = true := by
  intro a ha
  simp only [List.mem_cons, List.not_mem_nil, or_false] at ha
  rcases ha with rfl | rfl
  all_goals exact ⟨⟨form_of (by decide +kernel), by decide +kernel, by decide +kernel⟩, form_of (by decide +kernel), by decide +kernel, by decide +kernel⟩

/-- LinkSteps, MRDREQ: the last 512 bytes of a page; one word too many; the first address outside. -/
theorem witness_memory_read : (∀ a ∈ [0x20E00, 0x20E08, 2 ^ 52], let h := exHdr 0x04 0 0 512 a 0
      let P : Packet := ⟨23, 0x04, 0, false, false, 3, h, []⟩
      GoodForm P h.toNat ∧ pAddr h.toNat = a ∧ memoryRequestOk (credited P exS) (pAddr h.toNat) (pLen h.toNat) = (a != 0x20E08)) ∧
    let h := exHdr 0x04 0 0 512 0x20E00 0
    ∃ bs w, readPhys (hostWho (pAddr h.toNat)) (pAddr h.toNat) (pLen h.toNat) 0 (credited ⟨23, 0x04, 0, false, false, 3, h, []⟩ exS) = .ok bs w ∧
      bs.length = pLen h.toNat := by
  constructor
  · intro a ha
    simp only [List.mem_cons, List.not_mem_nil, or_false] at ha
    rcases ha with rfl | rfl | rfl
    all_goals exact ⟨form_of (by decide +kernel), by decide +kernel, by decide +kernel⟩
  · obtain ⟨bs, w, h, k⟩ := ok_ex (p := fun (b : List Byte) => decide (b.length = 512)) (by decide +kernel : okB (readPhys (hostWho 0x20E00) 0x20E00 512)
      (credited ⟨23, 0x04, 0, false, false, 3, exHdr 0x04 0 0 512 0x20E00 0, []⟩ exS) (fun b => decide (b.length = 512)) = true)
    exact ⟨bs, w, h, (of_decide_eq_true k : bs.length = 512).trans (by decide +kernel)⟩

/-- LinkSteps, MWRREQ: the first two of these requests; a word that is no status word. -/
theorem witness_memory_write : statusSlot 0x20E00 = none ∧ ∀ a ∈ [0x20E00, 0x20E08], let h := exHdr 0x06 16 0 512 a 0
    let P : Packet := ⟨0, 0x06, 0, true, false, 3, h, List.replicate 512 7⟩
    GoodForm P h.toNat ∧ memoryRequestOk (credited P exS) (pAddr h.toNat) (pLen h.toNat) = (a == 0x20E00) ∧ backed (pAddr h.toNat) = true := by
  refine ⟨by decide +kernel, fun a ha => ?_⟩
  simp only [List.mem_cons, List.not_mem_nil, or_false] at ha
  rcases ha with rfl | rfl
  all_goals exact ⟨form_of (by decide +kernel), by decide +kernel, by decide +kernel⟩

/-- Context 0 with FABDOM 7, FABIDX 2 and a valid record. -/
def exNamed : State := modCtx (exArb exS) 0 fun c => { c with record := 7 * 2 ^ 560 + 2 * 2 ^ 440 + 2 ^ 384 }

/-- The fields of a fabric packet: SRC, DST, DOMAIN, WINDOW, SENDQ, ROP. -/
def exNames (dst rop : Nat) : Nat := 255 * 2 ^ 232 + dst * 2 ^ 224 + 7 * 2 ^ 208 + (2 ^ 32 - 1) * 2 ^ 96 + 1535 * 2 ^ 80 + rop * 2 ^ 60

/-- LinkSteps, RWRITE and RREDUCE: 512 bytes to context 0, with the last SENDQ; a DST that no context has. -/
theorem witness_fabric_packet : ∀ dst ∈ [2, 3], ∀ k ∈ [(0x10, 1, 0), (0x11, 2, 5)], let h := exHdr k.1 16 1 512 (2 ^ 57 - 8) (exNames dst k.2.2)
    let P : Packet := ⟨23, k.1, 1, true, true, k.2.1, h, List.replicate 512 7⟩
    GoodForm P h.toNat ∧ pAddr h.toNat < 2 ^ 57 ∧ pLen h.toNat = 512 ∧ pRop h.toNat = k.2.2 ∧ pDet h.toNat = false ∧
      pLen h.toNat % ropSize (pRop h.toNat) = 0 ∧ pAddr h.toNat % ropSize (pRop h.toNat) = 0 ∧
      fabricCtx (credited P exNamed) h.toNat = if dst = 2 then some 0 else none := by
  intro dst hd k hk
  simp only [List.mem_cons, List.not_mem_nil, or_false] at hd hk
  rcases hd with rfl | rfl <;> rcases hk with rfl | rfl
  all_goals refine ⟨form_of (by decide +kernel), ?_⟩; decide +kernel

/-- A write or reduce of two elements, received by sector 0. -/
def exRemote (rop va : Nat) : Remote := { core := 5, q := 1, pkg := 2, ctx := 0, va := va, bytes := leBytes 8 0x1122334455667788, window := 1, rop := rop, det := false }

/-- The received writes: one of another queue, then the given one. -/
def exReceived (r : Remote) (clk : Nat) : State := { exArb exS with received := [{ exRemote 0 0x40 with q := 2 }, r], clk := clk }

/-- LinkSteps, REMOTE_WRITE_APPLY: a write and a reduce, in time and late. -/
theorem witness_remote_apply : ∀ rop ∈ [0, 1], ∀ clk ∈ [0, 140000000], let r := exRemote rop 0x5000
    let s := exReceived r clk
    s.received[1]? = some r ∧ r.wait = none ∧ r.failed = false ∧
    (∀ o ∈ s.received.take 1, ¬(o.core = r.core ∧ o.q = r.q ∧ o.pkg = r.pkg ∧ o.ctx = r.ctx)) ∧
    ∃ u, applyRemote r s = .ok () u ∧ (lateness (windowNow u) r.window == 0) = (clk == 0) := by
  intro rop hr clk hc
  simp only [List.mem_cons, List.not_mem_nil, or_false] at hr hc
  rcases hr with rfl | rfl <;> rcases hc with rfl | rfl
  all_goals refine ⟨by decide +kernel, by decide +kernel, by decide +kernel, by decide +kernel, _, done_of (by decide +kernel), by decide +kernel⟩

/-- LinkSteps, REMOTE_WRITE_APPLY: one that was answered FAIL, and one that its page refuses. -/
theorem witness_remote_drop : (exReceived { exRemote 0 0x5000 with failed := true } 0).received[1]? = some { exRemote 0 0x5000 with failed := true } ∧
    ∃ x a u, applyRemote (exRemote 0 (2 ^ 57)) (exReceived (exRemote 0 (2 ^ 57)) 0) = .error (.fail x a) u := by
  refine ⟨by decide +kernel, ?_⟩
  have h : (match applyRemote (exRemote 0 (2 ^ 57)) (exReceived (exRemote 0 (2 ^ 57)) 0) with | .error (.fail _ _) _ => true | _ => false) = true := by
    decide +kernel
  split at h
  · rename_i x a u e
    exact ⟨x, a, u, e⟩
  · simp at h

/-- LinkSteps, TIME and CREDIT: on PTPCTL's port, while it is off; a CREDIT of every channel. -/
theorem witness_time_credit : (let h := exHdr 0x20 2 2 64 0 0
      let P : Packet := ⟨23, 0x20, 2, true, false, 3, h, List.replicate 64 7⟩
      GoodForm P h.toNat ∧ pAddr h.toNat = 0 ∧ 1 ≤ pLen h.toNat ∧ pLen h.toNat ≤ 64 ∧
      (let u := credited P { exS with mgmt := { exS.mgmt with ptpEn := true, ptpPort := 23 } }
       u.mgmt.ptpEn = true ∧ u.mgmt.ptpPort.toNat = 23) ∧ (credited P exS).mgmt.ptpEn = false) ∧
    let h := exHdr 0x30 0 3 0 (65535 * 2 ^ 32 + 17 * 2 ^ 16 + 1) 0
    GoodForm ⟨23, 0x30, 3, false, false, 3, h, []⟩ h.toNat ∧ pTag h.toNat = 0 ∧ pLen h.toNat = 0 ∧ pAddr h.toNat < 2 ^ 48 := by
  refine ⟨⟨form_of (by decide +kernel), ?_⟩, form_of (by decide +kernel), ?_⟩ <;> decide +kernel

/-! ### Witnesses: handlers, health, time, boot -/

/-- A trap table with a handler of class 5 at 0x4000, `hregs` registers for it, and a watchdog of one millisecond. -/
def exTrapTab (hregs : Nat) : Nat := (2 ^ 63 + 0x4000) * 2 ^ 320 + 2 ^ 448 + hregs * 2 ^ 464

/-- The halted group's record of a BKPT. -/
def exOpen : FaultRec := { addr := 0x2000, cause := 0x13, lanes := 1, pc := 0x100 }

/-- The small machine with that group and its trap table at 0x2100. -/
def exHalted (tab : Nat) (f : Core → Core := id) : State :=
  exPut 0x2100 64 tab (modCtx (exCoreWith fun k => f { k with
    warps := [(0, { exWarp with st := .halted, regsN := 64 })],
    groups := [(0, { slots := [0], threads := 2, nbars := 4, padSize := 4096, halted := true, recs := [exOpen] })] }) 0
    fun c => { c with record := 0x2100 * 2 ^ 320 })

/-- Every warp slot is taken. -/
def exCrowded (k : Core) : Core := { k with warps := (List.range 64).map fun i => (i, { exWarp with st := .halted, regsN := 64 }) }

/-- The trap table of the group. -/
def exTrap (s : State) : M Nat := trapTab ⟨0, 0, 0⟩ ((groupOf s 0 0).tab.getD (recField s 0 383 320))

/-- The group's handlers may be dispatched, as a test that computes. -/
def mayDispatchB (s : State) (t : Nat) : Bool :=
  decide (((groupOf s 0 0).halted = true ∧ openRecs (groupOf s 0 0) ≠ []) ∧ (groupHalted s 0 (groupOf s 0 0) = true ∧ (ctxOf s (groupOf s 0 0).ctx).in_ = true) ∧
    ((∀ r ∈ (groupOf s 0 0).recs, r.wait = none ∧ r.written = true) ∧ (groupOf s 0 0).tabDue = false) ∧ (groupOf s 0 0).ctx = 0)
    && (match exTrap s s with | .ok x _ => decide (x = t) | .error _ _ => false)

theorem mayDispatch_of {s : State} {t : Nat} (h : mayDispatchB s t = true) : MayDispatch s 0 0 (groupOf s 0 0) t (exState (exTrap s) s) := by
  simp only [mayDispatchB, Bool.and_eq_true, decide_eq_true_eq] at h
  obtain ⟨⟨h1, h2, h3, h4⟩, h6⟩ := h
  refine ⟨⟨rfl, h1⟩, h2, h3, ?_⟩
  rw [h4]
  show exTrap s s = _
  unfold exState
  split at h6
  · rename_i x a e
    rw [e, of_decide_eq_true h6]
  · simp at h6

/-- FaultAndServiceSteps, HANDLER_DISPATCH: the halt table comes first, here at the table's new place. -/
theorem witness_halt_table : let s := modGroup (exHalted 0) 0 0 fun k => { k with tabDue := true }
    let k := groupOf s 0 0
    k.halted = true ∧ groupHalted s 0 k = true ∧ (ctxOf s k.ctx).in_ = true ∧ (∀ r ∈ k.recs, r.wait = none ∧ r.written = true) ∧ k.tabDue = true ∧
    k.ctx = 0 ∧ okB (writeTable ⟨0, 0, 0⟩ 0) s = true := by decide +kernel

/-- FaultAndServiceSteps, HANDLER_DISPATCH: no entry; an entry and a free slot; no slot. -/
theorem witness_handlers : ∀ e ∈ [(0, 0, false), (1, 64, false), (2, 64, true)], ∃ t v, let s := exHalted (if e.2.1 = 0 then 0 else exTrapTab e.2.1) (if e.2.2 then exCrowded else id)
    let k := groupOf s 0 0
    MayDispatch s 0 0 k t v ∧ (openRecs k).length ≤ 32 ∧
    (e.1 = 0 → ∀ i ∈ openRecs k, trapEntry t (k.recs.getD i {}).cause = none) ∧
    (e.1 ≠ 0 → ∀ i ∈ openRecs k, (trapEntry t (k.recs.getD i {}).cause).isSome = true) ∧
    (e.1 = 1 → freeSlots (coreOf v 0) ≠ [] ∧ regsUsed (coreOf v 0) + fld t 473 464 ≤ 4096) ∧
    (e.1 = 2 → freeSlots (coreOf v 0) = [] ∧ k.waitSince = none) := by
  intro e he
  simp only [List.mem_cons, List.not_mem_nil, or_false] at he
  rcases he with rfl | rfl | rfl
  · exact ⟨0, _, mayDispatch_of (by decide +kernel), by decide +kernel, by decide +kernel, by decide +kernel, by decide +kernel, by decide +kernel⟩
  · exact ⟨exTrapTab 64, _, mayDispatch_of (by decide +kernel), by decide +kernel, by decide +kernel, by decide +kernel, by decide +kernel, by decide +kernel⟩
  · exact ⟨exTrapTab 64, _, mayDispatch_of (by decide +kernel), by decide +kernel, by decide +kernel, by decide +kernel, by decide +kernel, by decide +kernel⟩

/-- A group of two warps: the first has exited, thread 1 of the second has parked at a word of 2. -/
def exStuck : State :=
  let s := exCoreWith fun k => { k with
    warps := [(0, { exWarp with st := .exiting, lanes := [(0, { exLane 0 with st := .exited }), (1, { exLane 1 with st := .exited })] }),
      (1, { exWarp with st := .parked, lanes := [(0, { exLane 0 with st := .exited }),
        (1, { exLane 1 with st := .parked, park := { kind := 4, op := 3, words := 2, widx := 1, word := 7 } })] })],
    groups := [(0, { slots := [0, 1], threads := 2, nbars := 4, padSize := 4096, parkedSince := some 0 })] }
  { exPut 0x2100 64 (exTrapTab 32) (modCtx s 0 fun c => { c with record := 0x2100 * 2 ^ 320, timedFrom := some 0 }) with clk := 1400000 }

/-- FaultAndServiceSteps: HANDLER_RESOURCE_TIMEOUT after 10 µs; WATCHDOG after exactly one millisecond. -/
theorem witness_watchdog : (groupOf (modGroup exS 0 0 fun k => { k with waitSince := some 0 }) 0 0).waitSince = some 0 ∧
    (let s := exStuck
     let k := groupOf s 0 0
     k.parkedSince = some 0 ∧ k.halted = false ∧ allParked s 0 0 = true ∧ (ctxOf s k.ctx).timedFrom.isSome = true ∧
     (∀ j ∈ k.slots, (warpOf s 0 j).kind ≠ .handler) ∧ k.slots = [0] ++ 1 :: [] ∧
     ∃ u, trapTab ⟨0, k.ctx, 0⟩ (recField s k.ctx 383 320) s = .ok (exTrapTab 32) u ∧ (warpOf u 0 1).kind ≠ .handler ∧ watchLimit (exTrapTab 32) ≠ 0 ∧
       0 + watchLimit (exTrapTab 32) * 1400000 ≤ watchTime u k.ctx ∧ (∀ j ∈ [0], ∀ l ∈ liveLanes (warpOf u 0 j), (laneOf (warpOf u 0 j) l).st ≠ .parked) ∧
       ∃ l ∈ liveLanes (warpOf u 0 1), (laneOf (warpOf u 0 1) l).st = .parked) := by
  refine ⟨by decide +kernel, by decide +kernel, by decide +kernel, by decide +kernel, by decide +kernel, by decide +kernel, by decide +kernel, _, ok_of (by decide +kernel), by decide +kernel, by decide +kernel, by decide +kernel, by decide +kernel, by decide +kernel⟩

/-- FaultAndServiceSteps, SOFT_ERROR: the last address of the second tier; a task frame whose launch a group runs; a barrier; a warp. -/
theorem witness_soft : backed (2 ^ 34 - 1) = true ∧
    (let s := exCoreWith fun k => { k with deck := [⟨1, 0⟩] }
     (coreOf s 0).deck[0]? = some ⟨1, 0⟩ ∧ ∃ e ∈ (coreOf s 0).groups, e.1 = 0 ∧ e.2.launch = 0) ∧
    (∃ e ∈ (coreOf exS 0).groups, e.1 = 0) ∧ (warpOf exS 0 0).st ≠ .free := by decide +kernel

/-- Sector 0 with two corrections of row 7 and `n` spare rows. -/
def exSpares (n : Nat) : State := putHealth (modSector exS 0 fun k => { k with rowHits := [(7, 0), (7, 0)] }) 0 (n * 2 ^ 32 + 0xFFFFFFFF)

/-- FaultAndServiceSteps: a correction of another row, the third of row 7 with one spare row left and with two, and with none. -/
theorem witness_corrected : (∀ n ∈ [1, 2], let s := exSpares n
      let hits := (sectorOf s 0).rowHits.filter fun e => s.clk < e.2 + 24 * 3600 * 1400000000
      (hits.filter (·.1 == 8)).length < 2 ∧ 2 ≤ (hits.filter (·.1 == 7)).length ∧ 0 < fld (health s 0) 47 32) ∧
    fld (health (exSpares 0) 0) 47 32 = 0 := by decide +kernel

/-- FaultAndServiceSteps: CORE_DISABLED of a core in use and of the last one; HBM_RETRAIN, during a deadline save too. -/
theorem witness_service : (0 < 192 ∧ (coreOf exS 0).off = false ∧ (coreOf exS 0).holder = 1 ∧ 191 < 192 ∧ (coreOf exS 191).off = false ∧ (coreOf exS 191).holder = 0) ∧
    let s := { exS with clk := 140000000 }
    (stackAt s 7).en = true ∧ (stackAt s 7).last + (stackAt s 7).interval * 1400000 ≤ s.clk ∧ saveRuns s (7 / 2) = false ∧
    saveRuns (modCtx s 0 fun c => { c with saving := 1, deadline := true }) (1 / 2) = true ∧ (stackAt s 1).since = none := by decide +kernel

/-- FaultAndServiceSteps: the time protocol on and off, attestation, boot. -/
theorem witness_protocols : (let s := { exS with mgmt := { exS.mgmt with ptpEn := true, attBusy := true, booting := true } }
    s.mgmt.ptpEn = true ∧ s.mgmt.everLocked = false ∧ s.mgmt.attBusy = true ∧ s.mgmt.booting = true) ∧ exS.mgmt.ptpEn = false := by decide +kernel

/-- A context with a frame of 1920 by 1080 under way, its ring as given; one page maps all addresses to themselves. -/
def exFramed (out : Word) : State := { exCkpt 0 with ctxs := [(0, { heads := [(1, { cfg := exHead, out := out, encoding := some (5, 9) })] })] }

theorem exFramed_clean (out : Word) : Clean (exFramed out) := ⟨rfl, rfl, rfl, rfl, rfl, rfl, rfl⟩

/-- Its surface is read. -/
theorem exFramed_read (out : Word) : ∃ pixels, vread exSaver 5 (surfaceBytes (headOf (exFramed out) 0 1).cfg) (exFramed out) = .ok pixels (exFramed out) := by
  obtain ⟨b, e, -⟩ := clean_vread 5 (surfaceBytes exHead) (by decide +kernel) (exFramed out) (exFramed_clean out)
  exact ⟨b, e⟩

/-- FaultAndServiceSteps, FRAME_ENCODE_COMPLETE: ring sizes out of range; the greatest ring at address 0, which a unit of any length
fits in and is written to, or does not fit in. -/
theorem witness_frame : (∀ n ∈ [15, 31], let s := exFramed (.ofNat 64 n)
      (headOf s 0 1).encoding = some (5, 9) ∧ (ctxOf s 0).wait = none ∧ (ctxOf s 0).failed = false ∧
      ((headOf s 0 1).out.toNat % 32 < 16 ∨ 30 < (headOf s 0 1).out.toNat % 32) ∧
      ∃ u, encodeFrame (ctxWho s 0 15) (headOf s 0 1) 5 9 s = .ok none u) ∧
    let s := exFramed 30
    let k := headOf s 0 1
    k.encoding = some (5, 9) ∧ 16 ≤ k.out.toNat % 32 ∧ k.out.toNat % 32 ≤ 30 ∧
    ∃ pixels, vread (ctxWho s 0 15) 5 (surfaceBytes k.cfg) s = .ok pixels s ∧
      ∀ bs, bs = frameBytes k.frames 9 (temporalUnit k.cfg k.frames pixels) → 2 ^ (k.out.toNat % 32) < bs.length ∨ bs.length ≤ 2 ^ (k.out.toNat % 32) ∧
        ∃ u, ringWrite (ctxWho s 0 15) (fld k.out.toNat 56 12 * 4096) (2 ^ (k.out.toNat % 32)) k.pos bs s = .ok () u := by
  constructor
  · intro n hn
    have h := (by decide +kernel : ∀ n ∈ [15, 31], (headOf (exFramed (.ofNat 64 n)) 0 1).encoding = some (5, 9) ∧ (ctxOf (exFramed (.ofNat 64 n)) 0).wait = none ∧
      (ctxOf (exFramed (.ofNat 64 n)) 0).failed = false ∧
      ((headOf (exFramed (.ofNat 64 n)) 0 1).out.toNat % 32 < 16 ∨ 30 < (headOf (exFramed (.ofNat 64 n)) 0 1).out.toNat % 32)) n hn
    refine ⟨h.1, h.2.1, h.2.2.1, h.2.2.2, exFramed (.ofNat 64 n), ?_⟩
    obtain ⟨pixels, e⟩ := exFramed_read (.ofNat 64 n)
    rw [clean_who (exFramed_clean _)]
    unfold encodeFrame
    rw [bind_ok e]
    rw [if_pos (by rcases h.2.2.2 with h | h <;> simp [h])]
    rfl
  obtain ⟨pixels, e⟩ := exFramed_read 30
  refine ⟨by decide +kernel, by decide +kernel, by decide +kernel, pixels, ?_, ?_⟩
  · rw [clean_who (exFramed_clean _)]; exact e
  intro bs hb
  have ho : (headOf (exFramed 30) 0 1).out.toNat % 32 = 30 := by decide +kernel
  have hp : (headOf (exFramed 30) 0 1).pos = 0 := by decide +kernel
  have hbase : fld (headOf (exFramed 30) 0 1).out.toNat 56 12 * 4096 = 0 := by decide +kernel
  rw [ho, hp, hbase]
  rcases Nat.lt_or_ge (2 ^ 30) bs.length with h | h
  · exact Or.inl h
  refine Or.inr ⟨h, ?_⟩
  obtain ⟨_, u, e', -⟩ := clean_vwrite 0 (bs.take bs.length) (by rw [List.take_length]; omega) _ (exFramed_clean 30)
  refine ⟨u, ?_⟩
  rw [clean_who (exFramed_clean _)]
  unfold ringWrite
  have hm : min bs.length (2 ^ 30 - 0 % 2 ^ 30) = bs.length := by omega
  generalize exFramed 30 = s at e'
  rw [hm]
  refine (bind_ok (a := ()) e').trans ?_
  rw [if_neg (Nat.lt_irrefl _)]
  rfl

end Sys2Proof.Tests
end

section
/-! SUPPORT. Words that have no effect (10 R215, R227, 04 R69): O12. -/

namespace Sys2Proof.Machine

/-- `t` is what some word `i` under guard `g` leaves, the checks and the effect its own, no transfer target among them. -/
def IssuedAs (i : Instr) (g : BitVec 3) (s t : State) : Prop :=
  ∃ (own : Check) (eff : List Nat → State → State), t = issueWord i g noCheck own eff s

/-- `t` is what a transfer `i` under guard `g` leaves: its targets are checked first (10 R218). -/
def TransfersAs (i : Instr) (g : BitVec 3) (s t : State) : Prop :=
  (majorOf i = 0x0C ∨ majorOf i = 0x0D ∨ majorOf i = 0x0E) ∧
  ∃ (dest : State → Nat → Option Nat) (check : Check) (eff : List Nat → State → State), t = issueTarget i g dest check noCheck eff s

section
variable (i : Instr) (g : BitVec 3) (s : State)

theorem issuedAs_word (own : Check) (eff : List Nat → State → State) : IssuedAs i g s (issueWord i g noCheck own eff s) := ⟨_, _, rfl⟩
theorem issuedAs_x (d lat : Nat) (f : State → Nat → Word) : IssuedAs i g s (issueX i g d lat f s) := ⟨_, _, rfl⟩
theorem issuedAs_p (d lat : Nat) (f : State → Nat → Bool) : IssuedAs i g s (issueP i g d lat f s) := ⟨_, _, rfl⟩
theorem issuedAs_e (own : Check) (eff : List Nat → State → State) : IssuedAs i g s (issueE i g own eff s) := ⟨_, _, rfl⟩
theorem issuedAs_pad (n : Nat) (off : State → Nat → Word) (ord : Nat) (eff : List Nat → State → State) :
    IssuedAs i g s (issuePad i g n off ord eff s) := ⟨_, _, rfl⟩
theorem issuedAs_obj (a : BitVec 6) (eff : List Nat → State → State) : IssuedAs i g s (issueObj i g a eff s) := ⟨_, _, rfl⟩
theorem issuedAs_arrive (n : BitVec 10) (d : BitVec 6) (eng : Bool) (k : List (Nat × Nat) → State → State) :
    IssuedAs i g s (issueArrive i g n d eng k s) := ⟨_, _, rfl⟩
theorem issuedAs_atomic (a : BitVec 6) (p : BitVec 1) (t : Atom) : IssuedAs i g s (issueAtomic i g a p t s) := by
  unfold issueAtomic
  split
  · exact issuedAs_pad ..
  · exact issuedAs_word ..
theorem issuedAs_v (d lat : Nat) (f : State → Nat → Word × Nat) : IssuedAs i g s (issueV i g d lat f s) := ⟨_, _, rfl⟩
theorem issuedAs_conv (d a : BitVec 6) (mode ws wd : Nat) (h : Nat → Nat → Nat × Nat) :
    IssuedAs i g s (issueConv i g d a mode ws wd h s) := ⟨_, _, rfl⟩
theorem issuedAs_compare (e p : BitVec 3) (a b : BitVec 6) (f : Fmt) : IssuedAs i g s (fCompare i g e p a b f s) := ⟨_, _, rfl⟩

end

/-! ### The guard field of an encoding: fields above it and below it do not reach it (10 R214, R215) -/

/-- The bits of the guard field. -/
def guardField (w : Nat) : Nat := fld w 24 22

/-- No bit below `m` is set. -/
def ZeroBelow (m w : Nat) : Prop := 2 ^ m ∣ w

theorem guardField_high (w k : Nat) : guardField (w + k * 2 ^ 25) = guardField w := by
  rw [guardField, fld, show k * 2 ^ 25 = k * 8 * 2 ^ 22 by omega, Nat.add_mul_div_right _ _ (by decide),
    show 2 ^ (24 - 22 + 1) = 8 from rfl, Nat.add_mul_mod_self_right]
  rfl

theorem guardField_above {n : Nat} (w : Nat) (f : BitVec n) {lo : Nat} (h : 25 ≤ lo) (_ : lo < 31) : guardField (addF w f lo) = guardField w := by
  obtain ⟨k, rfl⟩ := Nat.exists_eq_add_of_le h
  rw [addF, show f.toNat * 2 ^ (25 + k) = f.toNat * 2 ^ k * 2 ^ 25 by rw [Nat.pow_add]; ring, guardField_high]

theorem guardField_chain (op : Nat) (c : BitVec 1) : guardField (addF op c 31) = op / 2 ^ 22 % 8 := by
  rw [addF, show c.toNat * 2 ^ 31 = c.toNat * 64 * 2 ^ 25 by omega, guardField_high]
  rfl

theorem guardField_self (w : Nat) (g : BitVec 3) (h : guardField w = 0) : guardField (addF w g 22) = g.toNat := by
  simp only [guardField, fld] at h
  rw [guardField, fld, addF, Nat.add_mul_div_right _ _ (by decide)]
  omega

theorem guardField_below {n : Nat} (w : Nat) (f : BitVec n) {lo : Nat} (hn : lo + n ≤ 22) (hw : ZeroBelow (lo + n) w) :
    guardField (addF w f lo) = guardField w := by
  obtain ⟨k, rfl⟩ := hw
  obtain ⟨m, hm⟩ := Nat.exists_eq_add_of_le hn
  have hf : f.toNat * 2 ^ lo < 2 ^ (lo + n) := by
    rw [Nat.pow_add, Nat.mul_comm]
    exact Nat.mul_lt_mul_of_pos_left f.isLt (Nat.two_pow_pos lo)
  rw [guardField, guardField, fld, fld, addF, hm, Nat.pow_add 2 (lo + n), ← Nat.div_div_eq_div_mul, ← Nat.div_div_eq_div_mul,
    Nat.mul_add_div (Nat.two_pow_pos _), Nat.mul_div_cancel_left _ (Nat.two_pow_pos _), Nat.div_eq_of_lt hf, Nat.add_zero]

theorem zeroBelow_addF {n m : Nat} (w : Nat) (f : BitVec n) {lo : Nat} (hm : m ≤ lo) (_ : lo < 31) :
    ZeroBelow m (addF w f lo) ↔ ZeroBelow m w :=
  (Nat.dvd_add_iff_left ((Nat.pow_dvd_pow 2 hm).mul_left _)).symm

theorem zeroBelow_chain {m : Nat} (op : Nat) (c : BitVec 1) (hm : m ≤ 31) : ZeroBelow m (addF op c 31) ↔ op % 2 ^ m = 0 :=
  (Nat.dvd_add_iff_left ((Nat.pow_dvd_pow 2 hm).mul_left _)).symm.trans Nat.dvd_iff_mod_eq_zero

theorem guardOf_eq {i : Instr} {g : BitVec 3} (hm : majorOf i < 0x3E) (h : guardField (encode i) = g.toNat) : guardOf i = g.toNat := by
  rw [guardOf, if_neg (by omega)]; exact h

/-- Every word but the two prefixes is one issue under its guard. -/
theorem exec_word {i : Instr} (s : State) (hw : i.isWord = true) (hm : majorOf i < 0x3E) :
    ∃ g t, guardOf i = g.toNat ∧ exec i s = .next t ∧ (IssuedAs i g s t ∨ TransfersAs i g s t) := by
  cases i
  case add | sub | minS | minZ | maxS | maxZ | abs | and | or | xor | andn | shl | shr | sra | rot | mul | mulhS | mulhZ | mad
      | divS | divZ | remS | remZ | clz | popc | brev | bfx | bfi | addi | andi | ori | xori | shli | shri | srai | movi | sel
      | mov | lea | gets | mget | pack | unpk | perm | shfl | lbcast | fminS | fminH | fmaxS | fmaxH | fabsS | fabsH | fnegS
      | fnegH | fclassS | fclassH =>
    exact ⟨_, _, guardOf_eq hm (by
      simp only [encode, guardField_above, guardField_chain, guardField_self, guardField_below, zeroBelow_addF, zeroBelow_chain,
        Nat.reduceLeDiff, Nat.reduceLT, Nat.reduceAdd, Nat.reduceDiv, Nat.reduceMod, Nat.reducePow]), rfl, .inl (issuedAs_x ..)⟩
  case cmpi | cmp | pand | por | pxor | pnot =>
    exact ⟨_, _, guardOf_eq hm (by
      simp only [encode, guardField_chain, guardField_self, guardField_below, zeroBelow_addF, zeroBelow_chain,
        Nat.reduceLeDiff, Nat.reduceLT, Nat.reduceAdd, Nat.reduceDiv, Nat.reduceMod, Nat.reducePow]), rfl, .inl (issuedAs_p ..)⟩
  case ixget | ixput | puts | nop | yield | exit | mjoin | mleave | mwait | mset | voteBallot
      | ldg | stg | waitv | fence | fenceEng | barWait | barWaitEng | pref | flushl | trap | bkpt =>
    exact ⟨_, _, guardOf_eq hm (by
      simp only [encode, guardField_chain, guardField_self, guardField_below, zeroBelow_addF, zeroBelow_chain, Nat.reduceLeDiff,
        Nat.reduceLT, Nat.reduceAdd, Nat.reduceDiv, Nat.reduceMod, Nat.reducePow]), rfl, .inl (issuedAs_word ..)⟩
  case lds | sts | cbinit => exact ⟨_, _, guardOf_eq hm (by
      simp only [encode, guardField_chain, guardField_self, guardField_below, zeroBelow_addF, zeroBelow_chain,
        Nat.reduceLeDiff, Nat.reduceLT, Nat.reduceAdd, Nat.reduceDiv, Nat.reduceMod, Nat.reducePow]), rfl, .inl (issuedAs_pad ..)⟩
  case cbwait | cbtest | cbadd => exact ⟨_, _, guardOf_eq hm (by
      simp only [encode, guardField_chain, guardField_self, guardField_below, zeroBelow_addF, zeroBelow_chain, Nat.reduceLeDiff,
        Nat.reduceLT, Nat.reduceAdd, Nat.reduceDiv, Nat.reduceMod, Nat.reducePow]), rfl, .inl (issuedAs_obj ..)⟩
  case barArrive | barSync | barSyncEng =>
    exact ⟨_, _, guardOf_eq hm (by
      simp only [encode, guardField_chain, guardField_self, guardField_below, zeroBelow_addF, zeroBelow_chain, Nat.reduceLeDiff,
        Nat.reduceLT, Nat.reduceAdd, Nat.reduceDiv, Nat.reduceMod, Nat.reducePow]), rfl, .inl (issuedAs_arrive ..)⟩
  case atomAdd | atomMinS | atomMaxS | atomAnd | atomOr | atomXor | atomExch | atomInc | atomfAdd | cas | nibins | redAdd
      | redMinS | redMaxS | redAnd | redOr | redXor | redFadd | redInc =>
    exact ⟨_, _, guardOf_eq hm (by simp only [encode, addF, guardField, fld]; omega), rfl, .inl (issuedAs_atomic ..)⟩
  case voteAll | voteAny | voteUni =>
    exact ⟨_, _, guardOf_eq hm (by simp only [encode, addF, guardField, fld]; omega), rfl, .inl (issuedAs_word ..)⟩
  case fadd | fsub | fmul | ffma | frcp | frsq | fsqrt | fexp2 | flog2 | fsin | fcos =>
    exact ⟨_, _, guardOf_eq hm (by
      simp only [encode, guardField_above, guardField_chain, guardField_self, guardField_below, zeroBelow_addF, zeroBelow_chain,
        Nat.reduceLeDiff, Nat.reduceLT, Nat.reduceAdd, Nat.reduceDiv, Nat.reduceMod, Nat.reducePow]), rfl, .inl (issuedAs_v ..)⟩
  case fcvt | icvt | fcvti => exact ⟨_, _, guardOf_eq hm (by
      simp only [encode, guardField_chain, guardField_self, guardField_below, zeroBelow_addF, zeroBelow_chain, Nat.reduceLeDiff,
        Nat.reduceLT, Nat.reduceAdd, Nat.reduceDiv, Nat.reduceMod, Nat.reducePow]), rfl, .inl (issuedAs_conv ..)⟩
  case fcmpS | fcmpH => exact ⟨_, _, guardOf_eq hm (by
      simp only [encode, guardField_above, guardField_chain, guardField_self, guardField_below, zeroBelow_addF, zeroBelow_chain,
        Nat.reduceLeDiff, Nat.reduceLT, Nat.reduceAdd, Nat.reduceDiv, Nat.reduceMod, Nat.reducePow]), rfl, .inl (issuedAs_compare ..)⟩
  case tidset | tidget | wload | wloadsp | wswap | mstream | mdrain | episet | accz | accrd | accwr | spcmp | kick | qstat
      | evset | evclr | fetch | eref | ecol | espan | enew | edel | eadd | erem | vopen | vclose | beamq | rayq | spawn | join
      | tdone | lqpub | resumeReplay =>
    exact ⟨_, _, guardOf_eq hm (by
      simp only [encode, guardField_chain, guardField_self, guardField_below, zeroBelow_addF, zeroBelow_chain, Nat.reduceLeDiff,
        Nat.reduceLT, Nat.reduceAdd, Nat.reduceDiv, Nat.reduceMod, Nat.reducePow]), rfl, .inl (issuedAs_e ..)⟩
  case resumeSkip | resumeEnd =>
    exact ⟨_, _, guardOf_eq hm (by simp only [encode, addF, guardField, fld]; omega), rfl, .inl (issuedAs_e ..)⟩
  case bra | call | brx | ret =>
    exact ⟨_, _, guardOf_eq hm (by
      simp only [encode, guardField_chain, guardField_self, guardField_below, zeroBelow_addF, zeroBelow_chain, Nat.reduceLeDiff,
        Nat.reduceLT, Nat.reduceAdd, Nat.reduceDiv, Nat.reduceMod, Nat.reducePow]), rfl, .inr ⟨by simp only [majorOf, encode, addF, fld]; omega, _, _, _, rfl⟩⟩
  case extWord | repWord =>
    simp only [majorOf, encode, addF, fld] at hm
    omega
  all_goals exact absurd hw Bool.false_ne_true


/-- A word that names a register of REGS or more, no target to be checked first, faults the bundle. -/
theorem issueWord_badReg {i : Instr} {g : BitVec 3} {s : State} {n : Nat} {own : Check} {eff : List Nat → State → State}
    (hr : badReg s i = some n) : issueWord i g noCheck own eff s = stopIssue 0x09 (.ofNat 64 n) s.issue.lanes s := by
  unfold issueWord
  simp [hr, noCheck]

/-- A transfer that no thread makes changes nothing. -/
theorem issueTarget_none {i : Instr} {g : BitVec 3} {s : State} {dest : State → Nat → Option Nat} {check own : Check}
    {eff : List Nat → State → State} (h : actLanes s g = []) (hr : badReg s i = none) : issueTarget i g dest check own eff s = s := by
  unfold issueTarget
  simp [h, issueWord_none h hr]

theorem ofNat_guardOf {i : Instr} {g : BitVec 3} (h : guardOf i = g.toNat) : BitVec.ofNat 3 (guardOf i) = g := by
  rw [h, BitVec.ofNat_toNat, BitVec.setWidth_eq]

/-- Settles O12: a word is one issue under its guard; with no thread, or with a register out of range, its effect is not reached. -/
theorem wordsThatDoNotAct : Obligations.WordsThatDoNotAct := by
  refine ⟨fun i s hw hm hl hr => ?_, fun i s n hw hm h1 h2 h3 hr => ?_⟩
  · obtain ⟨g, t, hg, he, h⟩ := exec_word s hw hm
    rw [ofNat_guardOf hg] at hl
    obtain ⟨own, eff, rfl⟩ | ⟨-, dest, check, eff, rfl⟩ := h
    · rw [he, issueWord_none hl hr]
    · rw [he, issueTarget_none hl hr]
  · obtain ⟨g, t, -, he, h⟩ := exec_word s hw hm
    obtain ⟨own, eff, rfl⟩ | ⟨hx, -⟩ := h
    · rw [he, issueWord_badReg hr]
    · omega

end Sys2Proof.Machine
end

section
/-! SUPPORT. Checks of the threads in lane order, and words that act lane by lane (04 R70, 11 R242, R243): O11. -/

namespace Sys2Proof.Machine

/-! ### The first thread that fails a check -/

theorem lanesOf_sorted (m : W32) : (lanesOf m).Pairwise (· < ·) := List.Pairwise.filter _ List.pairwise_lt_range

theorem actLanes_sorted (s : State) (g : BitVec 3) : (actLanes s g).Pairwise (· < ·) := (lanesOf_sorted _).filter _

theorem firstBad_none {f : State → Nat → Option (Nat × Word)} {ls : List Nat} {s : State} (h : ∀ l ∈ ls, f s l = none) :
    firstBad f ls s = none := List.findSome?_eq_none_iff.2 h

/-- Of rising threads the lowest that fails its check is the one that a word's fault names. -/
theorem firstBad_lowest {f : State → Nat → Option (Nat × Word)} {s : State} {l : Nat} {e : Nat × Word} (he : f s l = some e) :
    ∀ {ls : List Nat}, ls.Pairwise (· < ·) → l ∈ ls → (∀ k ∈ ls, k < l → f s k = none) → firstBad f ls s = some e := by
  intro ls
  induction ls with
  | nil => intro _ hl; exact absurd hl List.not_mem_nil
  | cons a t ih =>
    intro hp hl hk
    rw [List.pairwise_cons] at hp
    unfold firstBad
    rw [List.findSome?_cons]
    rcases List.mem_cons.1 hl with rfl | hl
    · rw [he]
    · rw [hk a List.mem_cons_self (hp.1 l hl)]
      exact ih hp.2 hl fun k h => hk k (List.mem_cons_of_mem _ h)

/-- A word whose own check fails faults the threads it acts for. -/
theorem issueWord_fault {i : Instr} {g : BitVec 3} {ls : List Nat} {s : State} {own : Check} {eff : List Nat → State → State}
    {c : Nat} {a : Word} (h : Issues i g ls s) (ho : own ls s = some (c, a)) :
    issueWord i g noCheck own eff s = stopIssue c a (maskOf ls) s := by
  obtain ⟨rfl, h2, h3⟩ := h
  have : (actLanes s g).isEmpty = false := by simpa using h2
  unfold issueWord
  simp only [noCheck, this, ho, h3, Bool.false_eq_true, if_false]

theorem issues_nodup {i : Instr} {g : BitVec 3} {ls : List Nat} {s : State} (h : Issues i g ls s) : ls.Nodup :=
  h.acting ▸ actLanes_nodup _ _

theorem issues_sorted {i : Instr} {g : BitVec 3} {ls : List Nat} {s : State} (h : Issues i g ls s) : ls.Pairwise (· < ·) :=
  h.acting ▸ actLanes_sorted _ _

/-! ### Acting lane by lane -/

theorem onlyThreads_trans {s t u : State} (hi : t.issue = s.issue) (h : OnlyThreads s t) (h' : OnlyThreads t u) : OnlyThreads s u :=
  ⟨onlyWarp_trans hi h.toOnlyWarp h'.toOnlyWarp, h'.mine.trans h.mine⟩

/-- What a word reads of a thread is as it was where the thread is, for it reads the warp before the group or the warp now. -/
theorem iLane_congr {s t : State} {l : Nat} (hi : t.issue = s.issue) (hl : laneOf (iWarp t) l = laneOf (iWarp s) l) :
    iLane t l = iLane s l := by
  unfold iLane iPre
  rw [hi]
  cases s.issue.pre with
  | none => exact hl
  | some w => rfl

/-- `step s l` changes thread `l` of the issuing warp by `val s l`, and its pending results; what it does to a thread does not
depend on what has been done to another. -/
structure LaneStep (step : State → Nat → State) (val : State → Nat → Lane → Lane) : Prop where
  only : ∀ s l, OnlyThreads s (step s l)
  issue : ∀ s l, (step s l).issue = s.issue
  lane : ∀ s l j, laneOf (iWarp (step s l)) j = if j = l then val s l (laneOf (iWarp s) l) else laneOf (iWarp s) j
  stable : ∀ s l k, k ≠ l → val (step s l) k = val s k

/-- Distinct threads each take their own change, whatever the order. -/
theorem LaneStep.foldl {step : State → Nat → State} {val : State → Nat → Lane → Lane} (h : LaneStep step val) :
    ∀ {ls : List Nat}, ls.Nodup → ∀ s, OnlyThreads s (ls.foldl step s) ∧ (ls.foldl step s).issue = s.issue ∧
      ∀ l, laneOf (iWarp (ls.foldl step s)) l = if l ∈ ls then val s l (laneOf (iWarp s) l) else laneOf (iWarp s) l := by
  intro ls
  induction ls with
  | nil => exact fun _ s => ⟨onlyThreads_refl s, rfl, fun l => by simp⟩
  | cons a t ih =>
    intro hn s
    obtain ⟨ha, ht⟩ := List.nodup_cons.1 hn
    obtain ⟨ho, hi, hl⟩ := ih ht (step s a)
    rw [List.foldl_cons]
    refine ⟨onlyThreads_trans (h.issue s a) (h.only s a) ho, hi.trans (h.issue s a), fun l => ?_⟩
    rw [hl, h.lane]
    by_cases hla : l = a
    · subst hla; simp [ha]
    · simp [hla, h.stable s a l hla]

theorem foldl_board {step : State → Nat → State} (h : ∀ s l, (iWarp (step s l)).board = (iWarp s).board) (ls : List Nat) :
    ∀ s, (iWarp (ls.foldl step s)).board = (iWarp s).board := by
  induction ls with
  | nil => exact fun _ => rfl
  | cons a t ih => exact fun s => (ih _).trans (h s a)

theorem iModLane_only (s : State) (l : Nat) (f : Lane → Lane) : OnlyThreads s (iModLane s l f) :=
  ⟨iMod_only _ _, by rw [iModLane, iWarp_iMod]; rfl⟩

theorem laneOf_iModLane (s : State) (l j : Nat) (f : Lane → Lane) :
    laneOf (iWarp (iModLane s l f)) j = if j = l then f (laneOf (iWarp s) l) else laneOf (iWarp s) j := by
  rw [iModLane, iWarp_iMod, laneOf_modLane]

/-! ### PUTS SEED, IXGET, IXPUT -/

theorem putSeed_laneStep (b : BitVec 6) :
    LaneStep (fun s l => iModLane s l fun x => { x with seed := getX (iLane s l) (rB s b) })
      (fun s l x => { x with seed := srcB s b l }) where
  only s l := iModLane_only _ _ _
  issue _ _ := rfl
  lane s l j := laneOf_iModLane _ _ _ _
  stable s l k hk := by
    have := iLane_congr (s := s) (t := iModLane s l fun x => { x with seed := getX (iLane s l) (rB s b) }) (l := k) rfl
      (by rw [laneOf_iModLane, if_neg hk])
    simp only [srcB, this]
    rfl

/-- What `dropLate` leaves of a lane is `withoutLate`. -/
theorem laneOf_dropLate (s : State) (l n j : Nat) :
    laneOf (iWarp (dropLate s l n)) j = if j = l then withoutLate s n (laneOf (iWarp s) l) else laneOf (iWarp s) j := by
  rw [dropLate, iWarp_iMod]
  simp only [laneOf, modLane, setLane, mget_mput]
  simp [withoutLate, and_assoc]

theorem dropLate_only (s : State) (l n : Nat) : OnlyThreads s (dropLate s l n) :=
  ⟨iMod_only _ _, by rw [dropLate, iWarp_iMod]; rfl⟩

theorem putX_one_only (s : State) (n lat l : Nat) (v : Word) : OnlyThreads s (putX s n lat [(l, v)]) :=
  ⟨iMod_only _ _, by rw [putX, iWarp_iMod, addPending]; split <;> rfl⟩

theorem laneOf_putX_one (s : State) (n lat l j : Nat) (v : Word) :
    laneOf (iWarp (putX s n lat [(l, v)])) j = if j = l then setX (laneOf (iWarp s) l) n v else laneOf (iWarp s) j := by
  rw [putX, iWarp_iMod, laneOf_addPending, List.foldl_cons, List.foldl_nil, laneOf_modLane]

theorem withoutLate_congr {s t : State} (n : Nat) (hr : (iWarp t).retired = (iWarp s).retired) (hg : t.issue.gpc = s.issue.gpc) :
    withoutLate t n = withoutLate s n := by
  unfold withoutLate; rw [hr, hg]

theorem indexOf_congr {s t : State} {l : Nat} (a : BitVec 6) (hi : t.issue = s.issue) (hl : iLane t l = iLane s l) :
    indexOf t a l = indexOf s a l := by
  unfold indexOf rA; rw [hi, hl]

/-- IXPUT for one thread: what would still arrive is dropped, then the register is written. -/
def ixputLane (a b : BitVec 6) (s : State) (l : Nat) : State :=
  putX (dropLate s l (indexOf s a l)) (indexOf s a l) 4 [(l, getX (iLane s l) (rB s b))]

theorem ixputLane_only (a b : BitVec 6) (s : State) (l : Nat) : OnlyThreads s (ixputLane a b s l) :=
  onlyThreads_trans (t := dropLate s l (indexOf s a l)) rfl (dropLate_only _ _ _) (putX_one_only _ _ _ _ _)

theorem laneOf_ixputLane (a b : BitVec 6) (s : State) (l j : Nat) : laneOf (iWarp (ixputLane a b s l)) j =
    if j = l then setX (withoutLate s (indexOf s a l) (laneOf (iWarp s) l)) (indexOf s a l) (srcB s b l) else laneOf (iWarp s) j := by
  rw [ixputLane, laneOf_putX_one, laneOf_dropLate, laneOf_dropLate, if_pos rfl]
  split <;> rfl

theorem ixput_laneStep (a b : BitVec 6) :
    LaneStep (ixputLane a b) (fun s l x => setX (withoutLate s (indexOf s a l) x) (indexOf s a l) (srcB s b l)) where
  only := ixputLane_only a b
  issue _ _ := rfl
  lane := laneOf_ixputLane a b
  stable s l k hk := by
    have hi : (ixputLane a b s l).issue = s.issue := rfl
    have hl : iLane (ixputLane a b s l) k = iLane s k := iLane_congr hi (by rw [laneOf_ixputLane, if_neg hk])
    have hr : (iWarp (ixputLane a b s l)).retired = (iWarp s).retired := by
      have := congrArg Warp.retired (ixputLane_only a b s l).mine
      exact this
    simp only [indexOf_congr a hi hl, srcB, hl, withoutLate_congr _ hr rfl]
    rfl

theorem indexCheck_none {a : BitVec 6} {ls : List Nat} {s : State} (h : ∀ l ∈ ls, (srcA s a l).toNat % 1024 < (iWarp s).regsN) :
    indexCheck a ls s = none :=
  firstBad_none fun l hl => if_neg (Nat.not_le.2 (h l hl))

/-- The lowest thread whose index is REGS or more gives the fault its register number. -/
theorem indexCheck_some {a : BitVec 6} {ls : List Nat} {s : State} {l : Nat} (hs : ls.Pairwise (· < ·)) (hl : l ∈ ls)
    (h : (iWarp s).regsN ≤ (srcA s a l).toNat % 1024) (hk : ∀ k ∈ ls, k < l → (srcA s a k).toNat % 1024 < (iWarp s).regsN) :
    indexCheck a ls s = some (0x09, .ofNat 64 ((srcA s a l).toNat % 1024)) :=
  firstBad_lowest (if_pos h) hs hl fun k hks hkl => if_neg (Nat.not_le.2 (hk k hks hkl))

theorem exec_puts {c : BitVec 1} {g : BitVec 3} {b : BitVec 6} {ls : List Nat} {s : State} (h : Issues (.puts c g b) g ls s) :
    ∃ t, exec (.puts c g b) s = .next t ∧ OnlyThreads s t ∧ (iWarp t).board = (iWarp s).board
      ∧ ∀ l, laneOf (iWarp t) l = if l ∈ ls then { laneOf (iWarp s) l with seed := srcB s b l } else laneOf (iWarp s) l := by
  obtain ⟨ho, -, hl⟩ := (putSeed_laneStep b).foldl (issues_nodup h) s
  exact ⟨_, congrArg Host.Outcome.next (issueWord_next h rfl rfl), ho, foldl_board (fun s l => by rw [iModLane, iWarp_iMod]; rfl) ls s, hl⟩

theorem exec_ixget {c : BitVec 1} {g : BitVec 3} {d a : BitVec 6} {ls : List Nat} {s : State} (h : Issues (.ixget c g d a) g ls s)
    (hr : ∀ l ∈ ls, (srcA s a l).toNat % 1024 < (iWarp s).regsN) :
    ∃ t, exec (.ixget c g d a) s = .next t ∧
      WritesX s t (rD s d) 4 ls (fun l v => v = getX (iLane s l) ((srcA s a l).toNat % 1024)) :=
  ⟨_, congrArg Host.Outcome.next (issueWord_next h rfl (indexCheck_none hr)),
    putX_writes s (rD s d) 4 (issues_nodup h) h.some (lt_of_actLanes h.acting) _⟩

theorem exec_ixput {c : BitVec 1} {g : BitVec 3} {a b : BitVec 6} {ls : List Nat} {s : State} (h : Issues (.ixput c g a b) g ls s)
    (hr : ∀ l ∈ ls, (srcA s a l).toNat % 1024 < (iWarp s).regsN) :
    ∃ t, exec (.ixput c g a b) s = .next t ∧ OnlyThreads s t ∧
      ∀ l, laneOf (iWarp t) l = if l ∈ ls
        then setX (withoutLate s ((srcA s a l).toNat % 1024) (laneOf (iWarp s) l)) ((srcA s a l).toNat % 1024) (srcB s b l)
        else laneOf (iWarp s) l := by
  obtain ⟨ho, -, hl⟩ := (ixput_laneStep a b).foldl (issues_nodup h) s
  exact ⟨_, congrArg Host.Outcome.next (issueWord_next h rfl (indexCheck_none hr)), ho, hl⟩

theorem setX_regs_nil (x : Lane) (n : Nat) (v : Word) : { setX x n v with regs := [] } = { x with regs := [] } := by
  unfold setX; split <;> rfl

/-- Settles O11: PUTS and IXPUT act lane by lane, IXGET writes one register, and an index out of range is found first. -/
theorem seedAndIndexedRegisterMoves : Obligations.SeedAndIndexedRegisterMoves := by
  refine ⟨fun c g b ls s h => exec_puts h, fun c g d a ls s h hr => exec_ixget h hr, fun c g a b ls s h hr => ?_,
    fun i c g d a b ls s hi h l hl hb hk => ?_⟩
  · obtain ⟨t, he, ho, hx⟩ := exec_ixput h hr
    refine ⟨t, he, ho, fun l => ?_, fun l n => ?_⟩
    · rw [hx]; split
      · exact setX_regs_nil _ _ _
      · rfl
    · rw [hx]
      by_cases hls : l ∈ ls
      · simp only [hls, if_true, true_and, getX_setX]
        by_cases hn : n = (srcA s a l).toNat % 1024
        · simp [hn]
          rfl
        · simp [hn]
          rfl
      · simp [hls]
  · have hc := indexCheck_some (issues_sorted h) hl hb hk
    rcases hi with rfl | rfl
    · exact congrArg Host.Outcome.next (issueWord_fault h hc)
    · exact congrArg Host.Outcome.next (issueWord_fault h hc)

end Sys2Proof.Machine
end

section
/-! SUPPORT. The addresses of loads, stores and atomics, and their checks (04 R71, 12 R253, R256): O22. -/

namespace Sys2Proof.Machine

theorem memOff_eq (s : State) (k : BitVec 5) (n : Nat) : memOff s k n = offsetOf s k n := by
  unfold memOff offsetOf immS immBits
  cases s.issue.ext with
  | none => rfl
  | some e =>
    change BitVec.ofInt 64 (signed 30 (e.toNat * 32 + k.toNat)) * BitVec.ofNat 64 n = BitVec.ofInt 64 (signed 30 (e.toNat * 32 + k.toNat) * n)
    rw [BitVec.ofInt_mul, BitVec.ofInt_natCast]

theorem memAddr_eq (a : BitVec 6) (k : BitVec 5) (n : Nat) : memAddr a k n = fun s l => srcA s a l + offsetOf s k n := by
  funext s l
  rw [memAddr, memOff_eq]

/-- Of the threads of a word the lowest whose global address is bad: one with a bit of [63:57] set, or a misaligned one. -/
theorem globalCheck_lowest {n : Nat} {addr : State → Nat → Word} {ls : List Nat} {s : State} {l : Nat} (hs : ls.Pairwise (· < ·))
    (hl : l ∈ ls) (hk : ∀ k ∈ ls, k < l → (addr s k).toNat < 2 ^ 57 ∧ (addr s k).toNat % n = 0) :
    (2 ^ 57 ≤ (addr s l).toNat → globalCheck n addr ls s = some (0x06, addr s l)) ∧
    ((addr s l).toNat < 2 ^ 57 → (addr s l).toNat % n ≠ 0 → globalCheck n addr ls s = some (0x05, addr s l)) := by
  have low : ∀ k ∈ ls, k < l → (if 2 ^ 57 ≤ (addr s k).toNat then some ((0x06 : Nat), addr s k)
      else if (addr s k).toNat % n ≠ 0 then some (0x05, addr s k) else none) = none := by
    intro k hks hkl
    obtain ⟨h1, h2⟩ := hk k hks hkl
    rw [if_neg (Nat.not_le.2 h1), if_neg (not_not.2 h2)]
  refine ⟨fun h => firstBad_lowest (if_pos h) hs hl low, fun h1 h2 => firstBad_lowest ?_ hs hl low⟩
  simp only [if_neg (Nat.not_le.2 h1), if_pos h2]

/-- Of the threads of a word the lowest whose scratchpad access is misaligned or leaves the window. -/
theorem padCheck_lowest {n : Nat} {off : State → Nat → Word} {ls : List Nat} {s : State} {l : Nat} (hs : ls.Pairwise (· < ·))
    (hl : l ∈ ls) (hk : ∀ k ∈ ls, k < l → (off s k).toNat % n = 0 ∧ (off s k).toNat + n ≤ (iWarp s).padSize) :
    ((off s l).toNat % n ≠ 0 → padCheck n off ls s = some (0x05, off s l)) ∧
    ((off s l).toNat % n = 0 → (iWarp s).padSize < (off s l).toNat + n → padCheck n off ls s = some (0x11, off s l)) := by
  have low : ∀ k ∈ ls, k < l → (if (off s k).toNat % n ≠ 0 then some ((0x05 : Nat), off s k)
      else if (iWarp s).padSize < (off s k).toNat + n then some (0x11, off s k) else none) = none := by
    intro k hks hkl
    obtain ⟨h1, h2⟩ := hk k hks hkl
    rw [if_neg (not_not.2 h1), if_neg (Nat.not_lt.2 h2)]
  refine ⟨fun h => firstBad_lowest (if_pos h) hs hl low, fun h1 h2 => firstBad_lowest ?_ hs hl low⟩
  simp only [if_neg (not_not.2 h1), if_pos h2]

/-- A word whose own check is that of its form. -/
def ChecksBy (i : Instr) (g : BitVec 3) (own : Check) : Prop :=
  ∀ s, ∃ eff : List Nat → State → State, exec i s = .next (issueWord i g noCheck own eff s)

theorem issueAtomic_checks (i : Instr) (g : BitVec 3) (a : BitVec 6) (p : BitVec 1) (t : Atom) (s : State) :
    ∃ eff, issueAtomic i g a p t s
      = issueWord i g noCheck (if p = 1 then padCheck t.size (atomAddr a) else globalCheck t.size (atomAddr a)) eff s := by
  unfold issueAtomic
  split
  · exact ⟨_, rfl⟩
  · exact ⟨_, rfl⟩

/-- An atomic's form, global or of the scratchpad, is made only for its space; its check is the space's. -/
theorem globalAtomic_checks {i : Instr} {g o : BitVec 3} {d a : BitVec 6} {p : BitVec 1} {n : Nat} {op : AtomOp} {det red : Bool}
    {F : GForm} {t : State → Atom} (hF : atomForm op n g o d a det p red = some F) (ht : ∀ s, (t s).size = n)
    (he : ∀ s, exec i s = .next (issueAtomic i g a p (t s) s)) : ChecksBy i F.g (globalCheck F.size F.addr) := by
  intro s
  unfold atomForm at hF
  split at hF
  · cases hF
  · next hp =>
    cases hF
    obtain ⟨eff, h⟩ := issueAtomic_checks i g a p (t s) s
    rw [if_neg hp, ht] at h
    exact ⟨eff, by rw [he, h]; rfl⟩

theorem padAtomic_checks {i : Instr} {g o : BitVec 3} {d a : BitVec 6} {p : BitVec 1} {n : Nat} {op : AtomOp} {red : Bool}
    {F : SAtom} {t : State → Atom} (hF : padAtomForm op n g o d a p red = some F) (ht : ∀ s, (t s).size = n)
    (he : ∀ s, exec i s = .next (issueAtomic i g a p (t s) s)) : ChecksBy i F.g (padCheck F.size F.off) := by
  intro s
  unfold padAtomForm at hF
  split at hF
  · next hp =>
    cases hF
    obtain ⟨eff, h⟩ := issueAtomic_checks i g a p (t s) s
    rw [if_pos hp, ht] at h
    exact ⟨eff, by rw [he, h]; rfl⟩
  · cases hF

/-- Every global load, store and atomic checks its addresses first. -/
theorem global_checks {i : Instr} {F : GForm} (hF : globalForm i = some F) : ChecksBy i F.g (globalCheck F.size F.addr) := by
  cases i
  case ldg c g z o d a k => cases hF; exact fun s => ⟨_, by rw [← memAddr_eq]; rfl⟩
  case stg c g z o d a k => cases hF; exact fun s => ⟨_, by rw [← memAddr_eq]; rfl⟩
  case atomAdd | atomMinS | atomMaxS | atomAnd | atomOr | atomXor | atomExch | atomInc | atomfAdd | cas | nibins | redAdd | redMinS
      | redMaxS | redAnd | redOr | redXor | redInc | redFadd =>
    exact globalAtomic_checks hF (fun _ => rfl) (fun _ => rfl)
  all_goals cases hF

theorem padAtom_checks {i : Instr} {F : SAtom} (hF : padAtom i = some F) : ChecksBy i F.g (padCheck F.size F.off) := by
  cases i
  case atomAdd | atomMinS | atomMaxS | atomAnd | atomOr | atomXor | atomExch | atomInc | atomfAdd | cas | nibins | redAdd | redMinS
      | redMaxS | redAnd | redOr | redXor | redInc | redFadd =>
    exact padAtomic_checks hF (fun _ => rfl) (fun _ => rfl)
  all_goals cases hF

theorem padAtom_checks_form {i : Instr} {F : SForm} (hF : (padAtom i).map (·.toSForm) = some F) :
    ChecksBy i F.g (padCheck F.size F.off) := by
  obtain ⟨A, hA, rfl⟩ := Option.map_eq_some_iff.1 hF
  exact padAtom_checks hA

/-- Every word of the scratchpad checks its window first. -/
theorem pad_checks {i : Instr} {F : SForm} (hF : padForm i = some F) : ChecksBy i F.g (padCheck F.size F.off) := by
  cases i
  case lds c g z o d a k => cases hF; exact fun s => ⟨_, by rw [← memAddr_eq]; rfl⟩
  case sts c g z o d a k => cases hF; exact fun s => ⟨_, by rw [← memAddr_eq]; rfl⟩
  case cbinit | cbwait | cbtest | cbadd => cases hF; exact fun s => ⟨_, rfl⟩
  all_goals exact padAtom_checks_form hF

/-- Settles O22: a word's address check names its lowest bad thread, and its effect is not reached. -/
theorem badAddressesFault : Obligations.BadAddressesFault := by
  refine ⟨fun i F ls s hF h l hl hk => ?_, fun i F ls s hF h l hl hk => ?_⟩
  · obtain ⟨eff, he⟩ := global_checks hF s
    obtain ⟨high, odd⟩ := globalCheck_lowest (issues_sorted h) hl hk
    rw [he]
    exact ⟨fun h1 => congrArg _ (issueWord_fault h (high h1)), fun h1 h2 => congrArg _ (issueWord_fault h (odd h1 h2))⟩
  · obtain ⟨eff, he⟩ := pad_checks hF s
    obtain ⟨odd, out⟩ := padCheck_lowest (issues_sorted h) hl hk
    rw [he]
    exact ⟨fun h1 => congrArg _ (issueWord_fault h (odd h1)), fun h1 h2 => congrArg _ (issueWord_fault h (out h1 h2))⟩

end Sys2Proof.Machine
end

section
/-! SUPPORT. The values that atomics write (12 R258, R260, R261, 04 R89): O25. -/

namespace Sys2Proof.Machine

theorem signed_mod (w v : Nat) : signed w (v % 2 ^ w) = signed w v := by unfold signed; rw [Nat.mod_mod]

/-- The lesser of two sub-elements in signed order is one of them, and reads as the lesser reading. -/
theorem opMinS_spec (w : Nat) {a b : Nat} (ha : a < 2 ^ w) (hb : b < 2 ^ w) :
    opMinS w a b < 2 ^ w ∧ signed w (opMinS w a b) = min (signed w a) (signed w b) := by
  unfold opMinS
  split
  · next h => exact ⟨ha, (min_eq_left h).symm⟩
  · next h => exact ⟨hb, (min_eq_right (not_le.1 h).le).symm⟩

theorem opMaxS_spec (w : Nat) {a b : Nat} (ha : a < 2 ^ w) (hb : b < 2 ^ w) :
    opMaxS w a b < 2 ^ w ∧ signed w (opMaxS w a b) = max (signed w a) (signed w b) := by
  unfold opMaxS
  split
  · next h => exact ⟨hb, (max_eq_right h).symm⟩
  · next h => exact ⟨ha, (max_eq_left (not_le.1 h).le).symm⟩

theorem testBit_and_mod {w old : Nat} (x j : Nat) (h : old < 2 ^ w) :
    (old &&& x % 2 ^ w).testBit j = (old.testBit j && x.testBit j) := by
  rw [Nat.testBit_and, Nat.testBit_mod_two_pow]
  by_cases hj : j < w
  · simp [hj]
  · simp [Nat.testBit_lt_two_pow (lt_of_lt_of_le h (Nat.pow_le_pow_right (by decide) (not_lt.1 hj)))]

/-- Settles O25: each operation's value, by the arithmetic of its rule on the low bits of the operand. -/
theorem atomicOperationsCompute : Obligations.AtomicOperationsCompute := by
  intro n _ old x y hold
  have hx : x % 2 ^ (8 * n) < 2 ^ (8 * n) := Nat.mod_lt _ (Nat.two_pow_pos _)
  refine ⟨⟨_, rfl, Nat.add_mod_mod _ _ _⟩, ⟨_, rfl, ?_⟩, ⟨_, rfl, ?_⟩, ⟨_, rfl, fun j => testBit_and_mod x j hold⟩,
    ⟨_, rfl, fun j => ?_⟩, ⟨_, rfl, fun j => ?_⟩, rfl, ⟨_, rfl, fun h => if_pos h, fun h => if_neg (not_le.2 h)⟩, rfl,
    ⟨_, rfl, ?_, ?_⟩, fun _ => ⟨_, rfl, ?_, ?_⟩⟩
  · exact signed_mod (8 * n) x ▸ opMinS_spec (8 * n) hold hx
  · exact signed_mod (8 * n) x ▸ opMaxS_spec (8 * n) hold hx
  · rw [Nat.testBit_or, Nat.testBit_mod_two_pow]
  · rw [Nat.testBit_xor, Nat.testBit_mod_two_pow]
  all_goals omega

end Sys2Proof.Machine
end

section
/-! SUPPORT. Loads and stores of the scratchpad (04 R71, R72, 05 R102, 12 R253, R254): O23. -/

namespace Sys2Proof.Machine

/-! ### Little-endian bytes -/

@[simp] theorem length_leBytes (n v : Nat) : (leBytes n v).length = n := by
  induction n generalizing v with
  | zero => rfl
  | succ n ih => rw [leBytes, List.length_cons, ih]

theorem getD_leBytes {n i : Nat} (v : Nat) (h : i < n) : (leBytes n v).getD i 0 = .ofNat 8 (v / 256 ^ i) := by
  induction n generalizing i v with
  | zero => exact absurd h (Nat.not_lt_zero _)
  | succ n ih =>
    cases i with
    | zero => simp [leBytes]
    | succ i => rw [leBytes, List.getD_cons_succ, ih _ (by omega), Nat.div_div_eq_div_mul, ← Nat.pow_succ']

theorem ofBytes_lt (bs : List Byte) : ofBytes bs < 256 ^ bs.length := by
  induction bs with
  | nil => exact Nat.one_pos
  | cons b t ih => rw [ofBytes, List.length_cons, Nat.pow_succ]; have := b.isLt; omega

/-! ### Reading and writing an undamaged scratchpad -/

theorem filter_nil_contains (l : List Nat) : l.filter ([] : List Nat).contains = [] :=
  List.filter_eq_nil_iff.2 fun _ _ => by simp

theorem padRead_whole {s : State} {c : Nat} (ctx agent a n kind : Nat) (h : (coreOf s c).padBad = []) :
    padRead s c ctx agent a n kind = ((List.range n).map fun i => mget (0 : Byte) (coreOf s c).pad (a + i), s) := by
  simp [padRead, h, filter_nil_contains]

theorem padLoad_whole {s : State} (o : Word) (n kind : Nat) (h : (coreOf s s.issue.core).padBad = []) :
    padLoad s o n kind = (padVal s o n, s) := by
  simp only [padLoad, padRead_whole _ _ _ _ _ h]
  rfl

theorem padVal_lt (s : State) (o : Word) (n : Nat) : padVal s o n < 256 ^ n := by
  have := ofBytes_lt ((List.range n).map fun j => padByte s ((iWarp s).padBase + o.toNat + j))
  rwa [List.length_map, List.length_range] at this

theorem padRepair_whole {k : Core} (a : Nat) (bs : List Byte) (h : k.padBad = []) : padRepair k a bs = k := by
  unfold padRepair
  rw [h, filter_nil_contains]
  conv_rhs => rw [show k = { k with padBad := [], pad := k.pad } by rw [← h]]
  rfl

/-- A thread's write of an undamaged scratchpad: the bytes, and its place in their histories. -/
theorem coreOf_padWrite_whole {s : State} {c : Nat} (writer a : Nat) (bs : List Byte) (h : (coreOf s c).padBad = []) (j : Nat) :
    ∃ seq hist, coreOf (padWrite s c writer a bs) j =
      if j = c then { coreOf s c with padSeq := seq, hist := hist, pad := memPuts (coreOf s c).pad a bs } else coreOf s j := by
  simp only [padWrite, coreOf_modCore, padRepair_whole a bs h]
  exact ⟨_, _, rfl⟩

theorem onlyPad_refl (s : State) : OnlyPad s s := ⟨rfl, fun _ _ => rfl, rfl, fun _ _ => rfl, rfl⟩

theorem onlyPad_trans {s t u : State} (hi : t.issue = s.issue) (h : OnlyPad s t) (h' : OnlyPad t u) : OnlyPad s u := by
  obtain ⟨m', c', k', w', i'⟩ := h'
  rw [hi] at c' k' w'
  exact ⟨m'.trans h.machine, fun c hc => (c' c hc).trans (h.cores c hc), k'.trans h.core,
    fun w hw => (w' w hw).trans (h.warps w hw), i'.trans h.mine⟩

/-- One thread's store, where nothing is damaged. -/
theorem padStore_whole {s : State} (l : Nat) (o : Word) (bs : List Byte) (h : (coreOf s s.issue.core).padBad = []) :
    OnlyPad s (padStore s l o bs) ∧ iWarp (padStore s l o bs) = iWarp s ∧ (coreOf (padStore s l o bs) s.issue.core).padBad = [] ∧
    (coreOf (padStore s l o bs) s.issue.core).pad = memPuts (coreOf s s.issue.core).pad (padAddr s o) bs := by
  have hc := coreOf_padWrite_whole (writerOf (iWarp s) l) (padAddr s o) bs h
  have hw : ∀ w, warpOf (padStore s l o bs) s.issue.core w = warpOf s s.issue.core w := by
    intro w
    obtain ⟨seq, hist, e⟩ := hc s.issue.core
    simp only [warpOf, padStore, e, if_true]
  have hi : iWarp (padStore s l o bs) = iWarp s := hw s.issue.slot
  obtain ⟨seq, hist, e⟩ := hc s.issue.core
  rw [if_pos rfl] at e
  refine ⟨⟨rfl, fun c hne => ?_, ?_, fun w _ => hw w, by rw [hi]⟩, hi, ?_, ?_⟩
  · obtain ⟨_, _, e'⟩ := hc c
    exact e'.trans (if_neg hne)
  · rw [padStore, e]
  · rw [padStore, e]; exact h
  · rw [padStore, e]

/-- What a word reads of its threads to store: nothing but the issuing warp and the issue. -/
def ReadsThreads {α : Type} (f : State → Nat → α) : Prop := ∀ s t, t.issue = s.issue → iWarp t = iWarp s → f t = f s

/-- Threads store one after another: nothing but the scratchpad changes, which takes their bytes in that order. -/
theorem padStores {off : State → Nat → Word} {val : State → Nat → List Byte} (ho : ReadsThreads off) (hv : ReadsThreads val) (ls : List Nat) :
    ∀ s : State, (coreOf s s.issue.core).padBad = [] →
      let t := ls.foldl (fun s l => padStore s l (off s l) (val s l)) s
      OnlyPad s t ∧ iWarp t = iWarp s ∧ t.issue = s.issue ∧ (coreOf t s.issue.core).pad
        = ls.foldl (fun m l => memPuts m ((iWarp s).padBase + (off s l).toNat) (val s l)) (coreOf s s.issue.core).pad := by
  induction ls with
  | nil => exact fun s _ => ⟨onlyPad_refl s, rfl, rfl, rfl⟩
  | cons a t ih =>
    intro s h
    obtain ⟨h1, h2, h3, h4⟩ := padStore_whole a (off s a) (val s a) h
    obtain ⟨i1, i2, i3, i4⟩ := ih (padStore s a (off s a) (val s a)) h3
    have hi : (padStore s a (off s a) (val s a)).issue = s.issue := rfl
    refine ⟨onlyPad_trans hi h1 i1, i2.trans h2, i3, i4.trans ?_⟩
    rw [ho _ _ hi h2, hv _ _ hi h2, h2]
    exact congrArg (fun m => t.foldl _ m) h4

/-- A byte after some stores, one after another: that of the last store which touches it. -/
theorem mget_foldl_memPuts (at_ : Nat → Nat) (bytes : Nat → List Byte) (m : List Host.Cell) (p : Nat) (ls : List Nat) :
    mget (0 : Byte) (ls.foldl (fun m l => memPuts m (at_ l) (bytes l)) m) p =
      ((ls.filter fun l => decide (at_ l ≤ p ∧ p < at_ l + (bytes l).length)).getLast?).elim (mget 0 m p)
        fun l => (bytes l).getD (p - at_ l) 0 := by
  induction ls using List.reverseRecOn with
  | nil => rfl
  | append_singleton t a ih =>
    rw [List.foldl_append, List.foldl_cons, List.foldl_nil, mget_memPuts, ih, List.filter_append, List.filter_singleton]
    by_cases h : at_ a ≤ p ∧ p < at_ a + (bytes a).length
    · simp [h]
    · simp [h]

/-! ### When a scratchpad word acts -/

theorem padHeld_false {F : SForm} {ord : Nat} {ls : List Nat} {s : State} (h : PadReady F ord ls s) : padHeld F.size F.off ls s = false := by
  unfold padHeld
  rw [Bool.or_eq_false_iff, List.any_eq_false, List.any_eq_false]
  refine ⟨fun l hl => ?_, fun l hl => ?_⟩
  · rw [Bool.not_eq_true]; exact h.free l hl
  · rw [Bool.not_eq_true, List.any_eq_false]
    intro e he
    rw [Bool.not_eq_true]; exact h.ordered l hl e he

theorem relHeld_false {F : SForm} {ord : Nat} {ls : List Nat} {s : State} (h : PadReady F ord ls s) : relHeld ord ls s = false := by
  unfold relHeld
  rcases h.released with h0 | ⟨hf, hs⟩
  · simp [h0]
  · by_cases h5 : ord = 5
    · have : remoteOut s s.issue.core = false := by
        simpa [remoteOut, List.any_eq_false] using hs h5
      simp [hf, this]
    · simp [hf, h5]

theorem padCheck_none {F : SForm} {ord : Nat} {ls : List Nat} {s : State} (h : PadReady F ord ls s) : padCheck F.size F.off ls s = none :=
  firstBad_none fun l hl => by
    obtain ⟨h1, h2⟩ := h.legal l hl
    simp only [if_neg (not_not.2 h1), if_neg (Nat.not_lt.2 h2)]

/-- A scratchpad word that is ready has its effect. -/
theorem issuePad_ready {i : Instr} {F : SForm} {g : BitVec 3} {ord : Nat} {ls : List Nat} {s : State} {eff : List Nat → State → State}
    (hi : Issues i g ls s) (h : PadReady F ord ls s) : issuePad i g F.size F.off ord eff s = eff ls s := by
  unfold issuePad
  rw [issueWord_next hi rfl (padCheck_none h)]
  simp [padHeld_false h, relHeld_false h]

/-! ### LDS and STS -/

theorem foldl_padLoad {s : State} (h : (coreOf s s.issue.core).padBad = []) (off : Nat → Word) (n : Nat) (ls : List Nat) :
    ∀ vs : List (Nat × Word), ls.foldl (fun (r : List (Nat × Word) × State) l =>
      let (v, s) := padLoad r.2 (off l) n
      (r.1 ++ [(l, .ofNat 64 v)], s)) (vs, s) = (vs ++ ls.map fun l => (l, .ofNat 64 (padVal s (off l) n)), s) := by
  induction ls with
  | nil => exact fun vs => by simp
  | cons a t ih =>
    intro vs
    rw [List.foldl_cons]
    simp only [padLoad_whole _ _ _ h]
    rw [ih]
    simp

theorem exec_lds {c : BitVec 1} {g : BitVec 3} {z : BitVec 2} {o : BitVec 3} {d a : BitVec 6} {k : BitVec 5} {ls : List Nat} {s : State}
    (hi : Issues (.lds c g z o d a k) g ls s) (h : PadReady ⟨g, memAddr a k (sizeOf_ z), sizeOf_ z⟩ 0 ls s) :
    exec (.lds c g z o d a k) s = .next (putX s (rD s d)
      (23 + passes (ls.map fun l => padAddr s (memAddr a k (sizeOf_ z) s l)) (sizeOf_ z))
      (ls.map fun l => (l, .ofNat 64 (padVal s (memAddr a k (sizeOf_ z) s l) (sizeOf_ z))))) := by
  refine congrArg Host.Outcome.next ((issuePad_ready hi h).trans ?_)
  simp only [foldl_padLoad h.whole, List.nil_append]

theorem sizeOf_le (z : BitVec 2) : sizeOf_ z ≤ 8 := 
  Nat.pow_le_pow_right (show 2 > 0 by decide) (show z.toNat ≤ 3 by omega)

theorem toNat_padVal (s : State) (o : Word) (z : BitVec 2) : (BitVec.ofNat 64 (padVal s o (sizeOf_ z))).toNat = padVal s o (sizeOf_ z) := by
  rw [BitVec.toNat_ofNat]
  exact Nat.mod_eq_of_lt (lt_of_lt_of_le (padVal_lt s o _) (Nat.pow_le_pow_right (by decide) (sizeOf_le z)))

theorem readsThreads_memAddr (a : BitVec 6) (k : BitVec 5) (n : Nat) : ReadsThreads (memAddr a k n) := by
  intro s t hi hw
  funext l
  have hl : iLane t l = iLane s l := iLane_congr hi (by rw [hw])
  unfold memAddr memOff immS immBits rA
  rw [hl, hi]

theorem readsThreads_srcD (d : BitVec 6) (n : Nat) : ReadsThreads fun s l => leBytes n (srcD s d l).toNat := by
  intro s t hi hw
  funext l
  have hl : iLane t l = iLane s l := iLane_congr hi (by rw [hw])
  simp only [srcD, rD, hl, hi]

theorem exec_sts {c : BitVec 1} {g : BitVec 3} {z : BitVec 2} {o : BitVec 3} {d a : BitVec 6} {k : BitVec 5} {ls : List Nat} {s : State}
    (hi : Issues (.sts c g z o d a k) g ls s) (h : PadReady ⟨g, memAddr a k (sizeOf_ z), sizeOf_ z⟩ o.toNat ls s) :
    ∃ t, exec (.sts c g z o d a k) s = .next t ∧ OnlyPad s t ∧ iWarp t = iWarp s ∧ t.issue = s.issue ∧
      (coreOf t s.issue.core).pad = ls.foldl (fun m l => memPuts m ((iWarp s).padBase + (memAddr a k (sizeOf_ z) s l).toNat)
        (leBytes (sizeOf_ z) (srcD s d l).toNat)) (coreOf s s.issue.core).pad :=
  ⟨_, congrArg Host.Outcome.next (issuePad_ready hi h),
    padStores (readsThreads_memAddr a k (sizeOf_ z)) (readsThreads_srcD d (sizeOf_ z)) ls s h.whole⟩

/-- Settles O23: an undamaged window is read without a trace, and stores take their place one after another. -/
theorem scratchpadLoadsAndStores : Obligations.ScratchpadLoadsAndStores := by
  refine ⟨fun c g z o d a k F ls s hF hi h => ?_, fun c g z o d a k F ls s hF hi h => ?_⟩
  · obtain rfl : ⟨g, memAddr a k (sizeOf_ z), sizeOf_ z⟩ = F := by rw [memAddr_eq]; exact Option.some.inj hF
    refine ⟨_, exec_lds hi h, writesX_mono (putX_writes s _ _ (issues_nodup hi) hi.some (lt_of_actLanes hi.acting) _) ?_⟩
    rintro l - v rfl
    exact toNat_padVal _ _ _
  · obtain rfl : ⟨g, memAddr a k (sizeOf_ z), sizeOf_ z⟩ = F := by rw [memAddr_eq]; exact Option.some.inj hF
    obtain ⟨t, he, ho, hw, his, hp⟩ := exec_sts hi h
    refine ⟨t, he, ho, hw, fun p => ?_⟩
    rw [padByte, his, hp, mget_foldl_memPuts]
    have hf : (fun l => decide ((iWarp s).padBase + (memAddr a k (sizeOf_ z) s l).toNat ≤ p ∧ p < (iWarp s).padBase +
        (memAddr a k (sizeOf_ z) s l).toNat + (leBytes (sizeOf_ z) (srcD s d l).toNat).length))
        = touches ⟨g, memAddr a k (sizeOf_ z), sizeOf_ z⟩ s p := by
      funext l; rw [length_leBytes]; rfl
    rw [hf]
    cases hl : (ls.filter (touches ⟨g, memAddr a k (sizeOf_ z), sizeOf_ z⟩ s p)).getLast? with
    | none => rfl
    | some l =>
      have ht := of_decide_eq_true (List.mem_filter.1 (List.mem_of_getLast? hl)).2
      exact getD_leBytes _ (by have := ht.2; dsimp only at this ht; omega)

end Sys2Proof.Machine
end

section
/-! SUPPORT. The writes of device registers (04 R77, R86, R91, 06 R133, R135, 21 R359, R375-R380, 23 R412): O53. -/

namespace Sys2Proof.Machine

/-! ### What a change of one context, and a delivery, leave alone -/

theorem whenReady_ready {s : State} (f : State → State) (h : s.mgmt.ready = true) : whenReady s f = f s := if_pos h

theorem onlyCtx_refl (s : State) (ctx : Nat) : OnlyCtx s s ctx := ⟨rfl, fun _ _ => rfl⟩

theorem onlyCtx_trans {s t u : State} {ctx : Nat} (h : OnlyCtx s t ctx) (h' : OnlyCtx t u ctx) : OnlyCtx s u ctx :=
  ⟨h'.1.trans h.1, fun x hx => (h'.2 x hx).trans (h.2 x hx)⟩

theorem onlyCtx_modCtx (s : State) (ctx : Nat) (f : Ctx → Ctx) : OnlyCtx s (modCtx s ctx f) ctx :=
  ⟨rfl, fun x hx => (ctxOf_modCtx s ctx x f).trans (if_neg hx)⟩

theorem onlyCtx_modQueue (s : State) (ctx q : Nat) (f : LQueue → LQueue) : OnlyCtx s (modQueue s ctx q f) ctx := onlyCtx_modCtx s ctx _

theorem queueOf_modQueue_self (s : State) (ctx q : Nat) (f : LQueue → LQueue) :
    queueOf (modQueue s ctx q f) ctx q = f (queueOf s ctx q) :=
  (queueOf_modQueue s ctx q ctx q f).trans (if_pos ⟨rfl, rfl⟩)

theorem ctxOf_modCtx_self (s : State) (ctx : Nat) (f : Ctx → Ctx) : ctxOf (modCtx s ctx f) ctx = f (ctxOf s ctx) :=
  (ctxOf_modCtx s ctx ctx f).trans (if_pos rfl)

theorem onlyCtx_modHead (s : State) (ctx h : Nat) (f : DHead → DHead) : OnlyCtx s (modHead s ctx h f) ctx := onlyCtx_modCtx s ctx _

theorem headOf_modHead_self (s : State) (ctx h : Nat) (f : DHead → DHead) : headOf (modHead s ctx h f) ctx h = f (headOf s ctx h) := by
  simp only [headOf, modHead, ctxOf_modCtx_self, mget_mput_self]

theorem stackAt_modStack (s : State) (n k : Nat) (f : Stack → Stack) :
    stackAt (modStack s n f) k = if k = n then f (stackAt s n) else stackAt s k := mget_mput _ _ _ _ _

/-- A delivery changes sectors and causal queues only. -/
theorem deliver_only (s : State) (o d : Nat) :
    { deliver s o d with sectors := [], causal := [] } = { s with sectors := [], causal := [] } := by
  unfold deliver
  split <;> rfl

theorem deliverAll_only (s : State) : { deliverAll s with sectors := [], causal := [] } = { s with sectors := [], causal := [] } := by
  refine List.foldlRecOn (motive := fun t : State => { t with sectors := [], causal := [] } = { s with sectors := [], causal := [] })
    (List.range (causalCount s)) _ rfl fun t ht _ _ => ?_
  split
  · exact (deliver_only t _ _).trans ht
  · exact ht

@[simp] theorem deliverAll_ctxs (s : State) : (deliverAll s).ctxs = s.ctxs := (congrArg State.ctxs (deliverAll_only s) :)
@[simp] theorem deliverAll_mgmt (s : State) : (deliverAll s).mgmt = s.mgmt := (congrArg State.mgmt (deliverAll_only s) :)

/-! ### Publication -/

/-- The publications beyond a tail. -/
def pubsBeyond (k : LQueue) : Nat := k.pubs.countP fun p => decide (k.tail < p.2.1)

theorem pubsBeyond_passed {k : LQueue} {p : Nat × Nat × Nat × Nat} (hp : p ∈ k.pubs) (h : k.tail < p.2.1) :
    pubsBeyond { k with tail := p.2.1 } < pubsBeyond k := by
  obtain ⟨l, r, hl⟩ := List.append_of_mem hp
  have mono : ∀ ps : List (Nat × Nat × Nat × Nat),
      ps.countP (fun x => decide (p.2.1 < x.2.1)) ≤ ps.countP (fun x => decide (k.tail < x.2.1)) := fun ps =>
    List.countP_mono_left fun x _ hx => decide_eq_true (h.trans (of_decide_eq_true hx))
  have hl' := mono l
  have hr' := mono r
  simp only [pubsBeyond, hl, List.countP_append, List.countP_cons, Nat.lt_irrefl, decide_false, Bool.false_eq_true, if_false, h,
    decide_true, if_true]
  omega

/-- The tail passes what touches it, and comes to rest where nothing does. -/
theorem absorbPubs_spec (n : Nat) : ∀ k : LQueue, pubsBeyond k ≤ n → ∃ m, absorbPubs n k = { k with tail := m } ∧
    (m = k.tail ∨ k.tail < m ∧ ∃ p ∈ k.pubs, p.2.1 = m) ∧ ∀ p ∈ k.pubs, ¬(p.1 ≤ m ∧ m < p.2.1) := by
  induction n with
  | zero =>
    intro k hk
    refine ⟨k.tail, rfl, .inl rfl, fun p hp h => ?_⟩
    have := List.countP_eq_zero.1 (Nat.le_zero.1 hk) p hp
    exact this (decide_eq_true h.2)
  | succ n ih =>
    intro k hk
    rw [absorbPubs]
    split
    · next p hf =>
      have hp := List.mem_of_find?_eq_some hf
      have ht := List.find?_some hf
      simp only [Bool.and_eq_true, decide_eq_true_eq] at ht
      obtain ⟨m, e, hm, hn⟩ := ih { k with tail := p.2.1 } (Nat.le_of_lt_succ ((pubsBeyond_passed hp ht.2).trans_le hk))
      refine ⟨m, e, .inr ?_, hn⟩
      rcases hm with rfl | ⟨hlt, hx⟩
      · exact ⟨ht.2, p, hp, rfl⟩
      · exact ⟨ht.2.trans hlt, hx⟩
    · next hf =>
      refine ⟨k.tail, rfl, .inl rfl, fun p hp h => ?_⟩
      exact List.find?_eq_none.1 hf p hp (by simpa using h)

/-- LQTAIL_WRITE. -/
theorem exec_lqtailWrite (ctx q : Nat) (v : Word) {s : State} (hr : s.mgmt.ready = true) :
    ∃ t, exec (.lqtailWrite ctx q v) s = .next t ∧ OnlyCtx s t ctx
    ∧ (shadowed s ctx = true → queueOf t ctx q = { queueOf s ctx q with shadowTail := some (max v.toNat ((queueOf s ctx q).shadowTail.getD 0)) })
    ∧ (shadowed s ctx = false → ∃ n, queueOf t ctx q = { queueOf s ctx q with tail := n }
        ∧ (n = max (queueOf s ctx q).tail v.toNat ∨ max (queueOf s ctx q).tail v.toNat < n ∧ ∃ p ∈ (queueOf s ctx q).pubs, p.2.1 = n)
        ∧ ∀ p ∈ (queueOf s ctx q).pubs, ¬(p.1 ≤ n ∧ n < p.2.1)) := by
  refine ⟨tailWrite ctx q v s, congrArg Host.Outcome.next (whenReady_ready _ hr), onlyCtx_modQueue _ _ _ _, fun h => ?_, fun h => ?_⟩
  · rw [tailWrite, queueOf_modQueue_self, if_pos h]
  · rw [tailWrite, queueOf_modQueue_self, if_neg (by simp [h])]
    exact absorbPubs_spec _ _ List.countP_le_length

/-! ### LQCTL -/

theorem ctlBit_en (s : State) (ctx q n : Nat) (hn : n ≠ 63) : (ctlBit s ctx q n).getLsbD 63 = (queueOf s ctx q).en := by
  unfold ctlBit
  cases (queueOf s ctx q).en <;> simp; omega

theorem ctlBit_reset (s : State) (ctx q : Nat) :
    (ctlBit s ctx q 61).getLsbD 61 = true ∧ (ctlBit s ctx q 61).getLsbD 62 = false := by
  unfold ctlBit
  cases (queueOf s ctx q).en <;> decide

theorem ctlBit_clear (s : State) (ctx q : Nat) :
    (ctlBit s ctx q 62).getLsbD 61 = false ∧ (ctlBit s ctx q 62).getLsbD 62 = true := by
  unfold ctlBit
  cases (queueOf s ctx q).en <;> decide

/-- A write of LQCTL while its context is out waits in the shadow. -/
theorem ctlWrite_shadowed {s : State} {ctx : Nat} (q : Nat) (v : Word) (h : shadowed s ctx = true) :
    OnlyCtx s (ctlWrite ctx q v s) ctx
      ∧ queueOf (ctlWrite ctx q v s) ctx q = { queueOf s ctx q with shadowCtl := (queueOf s ctx q).shadowCtl ++ [v] } := by
  rw [ctlWrite, if_pos h]
  exact ⟨onlyCtx_modQueue _ _ _ _, queueOf_modQueue_self _ _ _ _⟩

/-- LQCTL, LQCTL_RESET, LQCTL_ERR_CLEAR of a context that is out. -/
theorem exec_lqctl_shadowed {ctx q : Nat} {en : Bool} {v : Word} {i : Instr} {s : State} (hr : s.mgmt.ready = true)
    (h : shadowed s ctx = true) (hi : i = .lqctlErrClear ctx q ∧ v = ctlBit s ctx q 62 ∨ i = .lqctlReset ctx q ∧ v = ctlBit s ctx q 61 ∨
      i = .lqctlEnable ctx q en ∧ v = if en then 1#64 <<< 63 else 0) :
    ∃ t, exec i s = .next t ∧ OnlyCtx s t ctx ∧ queueOf t ctx q = { queueOf s ctx q with shadowCtl := (queueOf s ctx q).shadowCtl ++ [v] } := by
  refine ⟨ctlWrite ctx q v s, ?_, ctlWrite_shadowed q v h⟩
  rcases hi with ⟨rfl, rfl⟩ | ⟨rfl, rfl⟩ | ⟨rfl, rfl⟩ <;> exact congrArg Host.Outcome.next (whenReady_ready _ hr)

theorem ctlWrite_open {s : State} {ctx : Nat} (q : Nat) (v : Word) (h : shadowed s ctx = false) : ctlWrite ctx q v s = ctlApply ctx q v s :=
  if_neg (by simp [h])

/-- LQCTL_ENABLE. -/
theorem exec_lqctlEnable {ctx : Nat} (q : Nat) (en : Bool) {s : State} (hr : s.mgmt.ready = true) (h : shadowed s ctx = false) :
    ∃ t, exec (.lqctlEnable ctx q en) s = .next t ∧ OnlyCtx s t ctx ∧ queueOf t ctx q = { queueOf s ctx q with en := en } := by
  refine ⟨enableQueue ctx q en s, congrArg Host.Outcome.next ?_, onlyCtx_modQueue _ _ _ _, queueOf_modQueue_self _ _ _ _⟩
  rw [whenReady_ready _ hr, ctlWrite_open _ _ h]
  cases en <;> rfl

theorem onlyCtx_resetQueue (s : State) (ctx q : Nat) : OnlyCtx s (resetQueue ctx q s) ctx := by
  unfold resetQueue
  dsimp only
  split
  · exact onlyCtx_refl s ctx
  · exact onlyCtx_trans (onlyCtx_modQueue s ctx q _) (onlyCtx_modCtx _ ctx _)

theorem resetQueue_busy {s : State} {ctx q : Nat} (h : ∃ e ∈ (queueOf s ctx q).entries, e.ended = false) : resetQueue ctx q s = s := by
  unfold resetQueue
  exact if_pos (List.any_eq_true.2 (h.imp fun e he => ⟨he.1, by simp [he.2]⟩))

theorem queueOf_resetQueue {s : State} {ctx q : Nat} {k : LQueue} (hk : k = queueOf s ctx q) (h : ∀ e ∈ k.entries, e.ended = true) :
    queueOf (resetQueue ctx q s) ctx q = { k with
      reserve := 0, tail := 0, prog := 0, next := 0, pubs := [], entries := [], inherited := [], errlen := 0, wait := none, failed := false } := by
  subst hk
  unfold resetQueue
  dsimp only
  rw [if_neg (by simpa using h), queueOf, ctxOf_modCtx_self]
  exact queueOf_modQueue_self _ _ _ _

/-- LQCTL_RESET. -/
theorem exec_lqctlReset {ctx q : Nat} {k : LQueue} {s : State} (hr : s.mgmt.ready = true) (h : shadowed s ctx = false)
    (hk : k = queueOf s ctx q) : ∃ t, exec (.lqctlReset ctx q) s = .next t ∧ OnlyCtx s t ctx
      ∧ ((∃ e ∈ k.entries, e.ended = false) → queueOf t ctx q = k)
      ∧ ((∀ e ∈ k.entries, e.ended = true) → queueOf t ctx q = { k with
          reserve := 0, tail := 0, prog := 0, next := 0, pubs := [], entries := [], inherited := [], errlen := 0, wait := none, failed := false }) := by
  obtain ⟨h61, h62⟩ := ctlBit_reset s ctx q
  refine ⟨enableQueue ctx q (queueOf s ctx q).en (resetQueue ctx q s), congrArg Host.Outcome.next ?_,
    onlyCtx_trans (onlyCtx_resetQueue s ctx q) (onlyCtx_modQueue _ _ _ _), fun hb => ?_, fun hb => ?_⟩
  · rw [whenReady_ready _ hr, ctlWrite_open _ _ h, ctlApply, h61, h62, ctlBit_en _ _ _ _ (by decide)]
    rfl
  · rw [enableQueue, queueOf_modQueue_self, resetQueue_busy (hk ▸ hb), hk]
  · rw [enableQueue, queueOf_modQueue_self, queueOf_resetQueue hk hb, hk]

theorem onlyCtx_clearErr (s : State) (ctx q : Nat) : OnlyCtx s (clearErr ctx q s) ctx := by
  unfold clearErr
  dsimp only
  split
  · exact onlyCtx_refl s ctx
  · split <;> exact onlyCtx_trans (onlyCtx_modQueue s ctx q _) (onlyCtx_modQueue _ ctx q _)

/-- Clearing ERR goes past the entry in error, if one is. -/
theorem queueOf_clearErr (s : State) (ctx q : Nat) {k : LQueue} (hk : k = queueOf s ctx q) :
    (queueOf (clearErr ctx q s) ctx q).err = false
      ∧ (k.err = true → k.errlen ≠ 0 → (queueOf (clearErr ctx q s) ctx q).next = k.erroff + k.errlen
          ∧ ((∀ e ∈ k.entries, e.ended = true) → (queueOf (clearErr ctx q s) ctx q).prog = k.erroff + k.errlen
              ∧ (queueOf (clearErr ctx q s) ctx q).entries = []))
      ∧ (k.err = true → k.errlen = 0 → (queueOf (clearErr ctx q s) ctx q).next = k.next) := by
  subst hk
  unfold clearErr
  dsimp only
  cases he : (queueOf s ctx q).err with
  | false => simp [he]
  | true =>
    by_cases hl : (queueOf s ctx q).errlen = 0
    · simp [hl, queueAdvance]
    · rw [Bool.not_true, if_neg Bool.false_ne_true, if_neg hl]
      simp only [queueAdvance, queueOf_modQueue_self]
      refine ⟨trivial, fun _ _ => ⟨trivial, fun ha => ?_⟩, fun _ h0 => absurd h0 hl⟩
      rw [List.takeWhile_eq_self_iff.2 (List.forall_mem_append.2 ⟨ha, fun e he => by rw [List.mem_singleton.1 he]⟩),
        List.getLast?_concat, List.drop_length]
      exact ⟨rfl, rfl⟩

theorem clearErr_en (s : State) (ctx q : Nat) : (queueOf (clearErr ctx q s) ctx q).en = (queueOf s ctx q).en := by
  unfold clearErr
  dsimp only
  split
  · rfl
  · split <;> simp only [queueAdvance, queueOf_modQueue_self]

/-- LQCTL_ERR_CLEAR. -/
theorem exec_lqctlErrClear {ctx q : Nat} {k : LQueue} {s : State} (hr : s.mgmt.ready = true) (h : shadowed s ctx = false)
    (hk : k = queueOf s ctx q) :
    ∃ t, exec (.lqctlErrClear ctx q) s = .next t ∧ OnlyCtx s t ctx ∧ (queueOf t ctx q).err = false ∧ (queueOf t ctx q).en = k.en
      ∧ (k.err = true → k.errlen ≠ 0 → (queueOf t ctx q).next = k.erroff + k.errlen
          ∧ ((∀ e ∈ k.entries, e.ended = true) → (queueOf t ctx q).prog = k.erroff + k.errlen ∧ (queueOf t ctx q).entries = []))
      ∧ (k.err = true → k.errlen = 0 → (queueOf t ctx q).next = k.next) := by
  obtain ⟨h61, h62⟩ := ctlBit_clear s ctx q
  obtain ⟨he, hn, h0⟩ := queueOf_clearErr s ctx q hk
  refine ⟨enableQueue ctx q (queueOf s ctx q).en (clearErr ctx q s), congrArg Host.Outcome.next ?_,
    onlyCtx_trans (onlyCtx_clearErr s ctx q) (onlyCtx_modQueue _ _ _ _), ?_⟩
  · rw [whenReady_ready _ hr, ctlWrite_open _ _ h, ctlApply, h61, h62, ctlBit_en _ _ _ _ (by decide)]
    rfl
  · rw [enableQueue, queueOf_modQueue_self]
    exact ⟨he, by rw [hk], hn, h0⟩

/-! ### The pages of the register file (21 R359) -/

theorem writeRegister_mgmt {s : State} {o : Nat} (v : Word) (hr : s.mgmt.ready = true) (ho : o < 0x10000) (h8 : o % 8 = 0) (hb : o ≠ 0x200) :
    writeRegister (deviceBase + o) v s = writeMgmt o v s := by
  have hd : (deviceBase + o) % 8 = 0 := by unfold deviceBase; omega
  unfold writeRegister
  dsimp only
  rw [Nat.add_sub_cancel_left]
  simp [hd, hb, hr, ho]

theorem writeRegister_sector {s : State} {x o : Nat} (v : Word) (hr : s.mgmt.ready = true) (hx : x < 4) (ho : o < 0x10000) (h8 : o % 8 = 0) :
    writeRegister (deviceBase + (0x10000 * (x + 1) + o)) v s = writeSector x o v s := by
  have hd : (deviceBase + (0x10000 * (x + 1) + o)) % 8 = 0 := by unfold deviceBase; omega
  unfold writeRegister
  dsimp only
  rw [Nat.add_sub_cancel_left, if_neg (by simp [hd]), if_neg (by omega), if_neg (by simp [hr]), if_neg (by omega), if_pos (by omega),
    show (0x10000 * (x + 1) + o) / 0x10000 - 1 = x by omega, show (0x10000 * (x + 1) + o) % 0x10000 = o by omega]

theorem writeRegister_ctx {s : State} {ctx o : Nat} (v : Word) (hr : s.mgmt.ready = true) (hc : ctx < 256) (ho : o < 0x10000) (h8 : o % 8 = 0) :
    writeRegister (deviceBase + (0x100000 + 0x10000 * ctx + o)) v s = writeCtx ctx o v s := by
  have hd : (deviceBase + (0x100000 + 0x10000 * ctx + o)) % 8 = 0 := by unfold deviceBase; omega
  have hp : (decide (0x100000 ≤ 0x100000 + 0x10000 * ctx + o) && decide (0x100000 + 0x10000 * ctx + o < 0x1100000)) = true := by
    rw [Bool.and_eq_true, decide_eq_true_eq, decide_eq_true_eq]; omega
  unfold writeRegister
  dsimp only
  rw [Nat.add_sub_cancel_left, if_neg (by simp [hd]), if_neg (by omega), if_neg (by simp [hr]), if_neg (by omega), if_neg (by omega),
    if_pos hp, show (0x100000 + 0x10000 * ctx + o - 0x100000) / 0x10000 = ctx by omega,
    show (0x100000 + 0x10000 * ctx + o) % 0x10000 = o by omega]

theorem writeRegister_queue {s : State} {ctx q o : Nat} (v : Word) (hr : s.mgmt.ready = true) (hc : ctx < 256) (hq : q < 64) (ho : o < 0x1000)
    (h8 : o % 8 = 0) : writeRegister (deviceBase + (0x2000000 + 0x1000 * (64 * ctx + q) + o)) v s = writeQueue ctx q o v s := by
  have hd : (deviceBase + (0x2000000 + 0x1000 * (64 * ctx + q) + o)) % 8 = 0 := by unfold deviceBase; omega
  have hp : ¬(decide (0x100000 ≤ 0x2000000 + 0x1000 * (64 * ctx + q) + o)
      && decide (0x2000000 + 0x1000 * (64 * ctx + q) + o < 0x1100000)) = true := by
    rw [Bool.and_eq_true, decide_eq_true_eq, decide_eq_true_eq]; omega
  have hp' : (decide (0x2000000 ≤ 0x2000000 + 0x1000 * (64 * ctx + q) + o)
      && decide (0x2000000 + 0x1000 * (64 * ctx + q) + o < 0x6000000)) = true := by
    rw [Bool.and_eq_true, decide_eq_true_eq, decide_eq_true_eq]; omega
  unfold writeRegister
  dsimp only
  rw [Nat.add_sub_cancel_left, if_neg (by simp [hd]), if_neg (by omega), if_neg (by simp [hr]), if_neg (by omega), if_neg (by omega),
    if_neg hp, if_pos hp', show (0x2000000 + 0x1000 * (64 * ctx + q) + o - 0x2000000) / 4096 = 64 * ctx + q by omega,
    show (0x2000000 + 0x1000 * (64 * ctx + q) + o) % 4096 = o by omega,
    show (64 * ctx + q) / 64 = ctx by omega, show (64 * ctx + q) % 64 = q by omega]

theorem writeRegister_boot (v : Word) (s : State) :
    writeRegister (deviceBase + 0x200) v s = if v.getLsbD 0 then bootOrder s else s := by
  unfold writeRegister
  dsimp only
  rw [Nat.add_sub_cancel_left, if_neg (by decide), if_pos rfl]

/-- Before READY only BOOTCTL listens. -/
theorem writeRegister_unready {s : State} {a : Nat} (v : Word) (hr : s.mgmt.ready = false) (ha : a ≠ deviceBase + 0x200) :
    writeRegister a v s = s := by
  unfold writeRegister
  dsimp only
  split
  · rfl
  · next h =>
    simp only [Bool.or_eq_true, decide_eq_true_eq, not_or] at h
    rw [if_neg (by omega), if_pos (by simp [hr])]

/-! ### A write that is a step of its own -/

theorem partWrite_enable {s : State} {p : Nat} {v : Word} (hv : v.getLsbD 63 = true) (he : (partAt s p).en = false) :
    partWrite p v s = enablePart p v s := by
  unfold partWrite enablePart
  cases hb : (partAt s p).busy <;> simp [hv, he, hb]

theorem partWrite_resize {s : State} {p : Nat} {v : Word} (hv : v.getLsbD 63 = true) (he : (partAt s p).en = true)
    (hs : (partAt s p).sectors ≠ partSectors v) : partWrite p v s = resizePart p v s := by
  unfold partWrite resizePart
  cases hb : (partAt s p).busy <;> simp [hv, he, hb, hs]

theorem partWrite_disable {s : State} {p : Nat} {v : Word} (hv : v.getLsbD 63 = false) (he : (partAt s p).en = true) :
    partWrite p v s = disablePart p v s := by
  unfold partWrite disablePart
  cases hb : (partAt s p).busy <;> simp only [hv, he, hb, Bool.false_or, Bool.true_or, Bool.false_eq_true, if_true, if_false]

/-- The registers of a context, by their offsets (21 R359). -/
theorem writeCtx_bump (ctx : Nat) {v : Word} (s : State) (h : v.getLsbD 31 = true) : writeCtx ctx 0 v s = bump ctx s := if_pos h

theorem writeCtx_head (ctx : Nat) {h : Nat} (v : Word) (s : State) (hh : h < 2) : writeCtx ctx (0x80 + 0x40 * h) v s = headCfg ctx h v s := by
  have : h = 0 ∨ h = 1 := by omega
  rcases this with rfl | rfl <;> rfl

theorem writeCtx_surf (ctx : Nat) {h : Nat} (v : Word) (s : State) (hh : h < 2) : writeCtx ctx (0x88 + 0x40 * h) v s = present ctx h v s := by
  have : h = 0 ∨ h = 1 := by omega
  rcases this with rfl | rfl <;> rfl

theorem writeMgmt_limit {x : Nat} (v : Word) (s : State) (hx : x < 4) :
    writeMgmt (8 * x) v s = refuseAll x { s with power := setLimit s.power x (v.toNat % 65536) } := by
  unfold writeMgmt
  rw [if_pos (by omega), Nat.mul_div_cancel_left _ (by decide)]

theorem writeMgmt_part {p : Nat} (v : Word) (s : State) (hp : p < 4) : writeMgmt (0x40 + 8 * p) v s = partWrite p v s := by
  unfold writeMgmt
  rw [if_neg (by omega), if_neg (by omega), if_pos (by omega), show (0x40 + 8 * p) / 8 - 8 = p by omega]

theorem writeMgmt_nonce {n : Nat} (v : Word) (s : State) (hn : n < 4) : writeMgmt (0x300 + 8 * n) v s = nonceWrite n v s := by
  have hp : (decide (0x300 ≤ 0x300 + 8 * n) && decide (0x300 + 8 * n < 0x320)) = true := by
    rw [Bool.and_eq_true, decide_eq_true_eq, decide_eq_true_eq]; omega
  unfold writeMgmt
  rw [if_neg (by omega), if_neg (by omega), if_neg (by omega), if_neg (by omega), if_pos hp, show (0x300 + 8 * n) / 8 - 0x60 = n by omega]

theorem writeSector_rwinctl (x : Nat) {w : Nat} (v : Word) (s : State) (hw : w < 32) : writeSector x (16 * w + 8) v s = rwinStep x w v s := by
  unfold writeSector
  rw [if_pos (by omega), if_neg (by omega), show (16 * w + 8) / 16 = w by omega]

theorem writeSector_rwin (x : Nat) {w : Nat} (v : Word) (s : State) (hw : w < 32) :
    writeSector x (16 * w) v s = modSector s x fun k => { k with rwin := mput 0 k.rwin (2 * w) (v &&& 0x000FFFFFFFE00000) } := by
  unfold writeSector
  rw [if_pos (by omega), if_pos (by omega), show 16 * w / 8 = 2 * w by omega]

theorem writeSector_retrain (x : Nat) {k : Nat} (v : Word) (s : State) (hk : k < 2) : writeSector x (0x400 + 16 * k) v s
    = modStack s (2 * x + k) fun k => { k with en := v.getLsbD 31, interval := min 1000 (max 1 (v.toNat % 65536)) } := by
  have : k = 0 ∨ k = 1 := by omega
  rcases this with rfl | rfl <;> rfl

/-- CTXCTL with one of its bits is that order (log 18). -/
theorem writeCtx_orders (ctx : Nat) (s : State) : writeCtx ctx 0x48 (1#64 <<< 63) s = saveOrder ctx s
    ∧ writeCtx ctx 0x48 (1#64 <<< 62) s = runOrder ctx s ∧ writeCtx ctx 0x48 (1#64 <<< 61) s = resetOrder ctx s
    ∧ writeCtx ctx 0x48 (1#64 <<< 60) s = retrap ctx s := ⟨rfl, rfl, rfl, rfl⟩

/-- The write of a register with a step of its own is that step. -/
theorem exec_routed {s : State} {a : Nat} {v : Word} {i : Instr} (hr : s.mgmt.ready = true) (h : Routed s a v i) :
    exec i s = .next (writeRegister (deviceBase + a) v s) := by
  have act : ∀ f : State → State, (Host.Outcome.next (whenReady s f) : Host.Outcome State Fault Refusal) = .next (f s) := fun f =>
    congrArg Host.Outcome.next (whenReady_ready f hr)
  rcases h with ⟨x, hx, rfl, rfl⟩ | ⟨p, hp, rfl, hc⟩ | ⟨rfl, rfl⟩ | ⟨rfl, hv, rfl⟩ | ⟨n, hn, rfl, rfl⟩ | ⟨rfl, hv, rfl⟩
    | ⟨x, w, hx, hw, rfl, rfl⟩ | ⟨x, k, hx, hk, rfl, rfl⟩ | ⟨ctx, hc, o, rfl, h⟩ | ⟨ctx, q, hc, hq, o, rfl, h⟩
  · rw [writeRegister_mgmt v hr (by omega) (by omega) (by omega), writeMgmt_limit v s hx]
    exact (act _).trans (congrArg _ (if_pos hx))
  · rw [writeRegister_mgmt v hr (by omega) (by omega) (by omega), writeMgmt_part v s hp]
    rcases hc with ⟨hv, he, rfl⟩ | ⟨hv, he, hs, rfl⟩ | ⟨hv, he, rfl⟩
    · rw [partWrite_enable hv he]; exact act _
    · rw [partWrite_resize hv he hs]; exact act _
    · rw [partWrite_disable hv he]; exact act _
  · rw [writeRegister_mgmt v hr (by decide) (by decide) (by decide)]; exact act _
  · rw [writeRegister_boot, if_pos hv]; rfl
  · rw [writeRegister_mgmt v hr (by omega) (by omega) (by omega), writeMgmt_nonce v s hn]
    exact (act _).trans (congrArg _ (if_pos hn))
  · rw [writeRegister_mgmt v hr (by decide) (by decide) (by decide)]
    exact (act _).trans (congrArg _ (if_pos hv).symm)
  · rw [Nat.add_assoc, writeRegister_sector v hr hx (by omega) (by omega), writeSector_rwinctl x v s hw]
    exact (act _).trans (congrArg _ (if_pos (by simp [hx, hw])))
  · rw [Nat.add_assoc, writeRegister_sector v hr hx (by omega) (by omega), writeSector_retrain x v s hk]; exact act _
  · have page : ∀ {o}, o < 0x10000 → o % 8 = 0 → writeRegister (deviceBase + (0x100000 + 0x10000 * ctx + o)) v s = writeCtx ctx o v s :=
      fun ho h8 => writeRegister_ctx v hr hc ho h8
    obtain ⟨hsave, hrun, hreset, hretrap⟩ := writeCtx_orders ctx s
    rcases h with ⟨rfl, hv, rfl⟩ | ⟨rfl, rfl⟩ | ⟨rfl, rfl⟩ | ⟨rfl, rfl, rfl⟩ | ⟨rfl, rfl, rfl⟩ | ⟨rfl, rfl, rfl⟩ | ⟨rfl, rfl, rfl⟩
      | ⟨h, hh, ⟨rfl, rfl⟩ | ⟨rfl, rfl⟩⟩
    · rw [page (by decide) rfl, writeCtx_bump ctx s hv]; exact act _
    · rw [page (by decide) rfl]; exact act _
    · rw [page (by decide) rfl]; exact act _
    · rw [page (by decide) rfl, hsave]; exact act _
    · rw [page (by decide) rfl, hrun]; exact act _
    · rw [page (by decide) rfl, hreset]; exact act _
    · rw [page (by decide) rfl, hretrap]; exact act _
    · rw [page (by omega) (by omega), writeCtx_head ctx v s hh]
      exact (act _).trans (congrArg _ (if_pos hh))
    · rw [page (by omega) (by omega), writeCtx_surf ctx v s hh]
      exact (act _).trans (congrArg _ (if_pos hh))
  · rcases h with ⟨rfl, rfl⟩ | ⟨rfl, hv, rfl⟩ | ⟨rfl, hv, rfl⟩ | ⟨rfl, hv, rfl⟩
    · rw [writeRegister_queue v hr hc hq (by decide) rfl]; exact act _
    · rw [writeRegister_queue v hr hc hq (by decide) rfl, hv]; exact act _
    · rw [writeRegister_queue v hr hc hq (by decide) rfl, hv]; exact act _
    · rw [writeRegister_queue v hr hc hq (by decide) rfl]
      exact (act _).trans (congrArg (fun u => Host.Outcome.next (ctlWrite ctx q u s)) hv.symm)

/-! ### The registers that are only stored -/

/-- The other registers of a context. -/
theorem exec_registerWrite_ctx {ctx o : Nat} {v : Word} {x : Ctx} {s : State} (hr : s.mgmt.ready = true) (hc : ctx < 256)
    (h : storedCtx (ctxOf s ctx) o v = some x) :
    ∃ t, exec (.registerWrite (deviceBase + 0x100000 + 0x10000 * ctx + o) v) s = .next t ∧ OnlyCtx s t ctx ∧ ctxOf t ctx = x := by
  refine ⟨modCtx s ctx fun _ => x, congrArg Host.Outcome.next ?_, onlyCtx_modCtx _ _ _, ctxOf_modCtx_self _ _ _⟩
  have page : ∀ o < 0x10000, o % 8 = 0 → writeRegister (deviceBase + 0x100000 + 0x10000 * ctx + o) v s = writeCtx ctx o v s := by
    intro o ho h8
    rw [Nat.add_assoc deviceBase, Nat.add_assoc deviceBase]
    exact writeRegister_ctx v hr hc ho h8
  unfold storedCtx at h
  split at h
  · cases h; exact page _ (by decide) rfl
  · cases h; exact page _ (by decide) rfl
  · cases h; exact page _ (by decide) rfl
  · cases h

/-- LQBASE and LQRESERVE. -/
theorem exec_registerWrite_queue {ctx q : Nat} (v : Word) {s : State} (hr : s.mgmt.ready = true) (hc : ctx < 256) (hq : q < 64) :
    (∃ t, exec (.registerWrite (deviceBase + 0x2000000 + 0x1000 * (64 * ctx + q)) v) s = .next t ∧ OnlyCtx s t ctx
      ∧ queueOf t ctx q = { queueOf s ctx q with base := v &&& 0x01FFFFFFFFFFF01F }) ∧
    ∃ t, exec (.registerWrite (deviceBase + 0x2000000 + 0x1000 * (64 * ctx + q) + 8) v) s = .next t ∧ OnlyCtx s t ctx
      ∧ queueOf t ctx q = { queueOf s ctx q with reserve := v } := by
  refine ⟨⟨modQueue s ctx q fun k => { k with base := v &&& 0x01FFFFFFFFFFF01F }, congrArg Host.Outcome.next ?_,
      onlyCtx_modQueue s ctx q _, queueOf_modQueue_self s ctx q _⟩,
    modQueue s ctx q fun k => { k with reserve := v }, congrArg Host.Outcome.next ?_, onlyCtx_modQueue s ctx q _, queueOf_modQueue_self s ctx q _⟩
  · rw [Nat.add_assoc deviceBase]
    exact writeRegister_queue (o := 0) v hr hc hq (by decide) rfl
  · rw [Nat.add_assoc deviceBase, Nat.add_assoc deviceBase]
    exact writeRegister_queue (o := 8) v hr hc hq (by decide) rfl

theorem sectorOf_modSector_self (s : State) (x : Nat) (f : Sector → Sector) : sectorOf (modSector s x f) x = f (sectorOf s x) :=
  (sectorOf_modSector s x x f).trans (if_pos rfl)

/-- RWINBASE (log 35). -/
theorem exec_registerWrite_rwinbase {x w : Nat} (v : Word) {s : State} (hr : s.mgmt.ready = true) (hx : x < 4) (hw : w < 32) :
    ∃ t, exec (.registerWrite (deviceBase + 0x10000 * (x + 1) + 16 * w) v) s = .next t
      ∧ sectorOf t x = { sectorOf s x with rwin := mput 0 (sectorOf s x).rwin (2 * w) (v &&& 0x000FFFFFFFE00000) } := by
  refine ⟨modSector s x fun k => { k with rwin := mput 0 k.rwin (2 * w) (v &&& 0x000FFFFFFFE00000) },
    congrArg Host.Outcome.next ?_, sectorOf_modSector_self s x _⟩
  rw [Nat.add_assoc deviceBase]
  exact (writeRegister_sector v hr hx (by omega) (by omega)).trans (writeSector_rwin x v s hw)

/-! ### ASGEN_BUMP -/

/-- What a table reads once each of its entries has been changed by a function that keeps the default. -/
theorem mget_map {α β : Type} (d : α) (e : β) (f : α → β) (hf : f d = e) (m : Map α) (i : Nat) :
    mget e (m.map fun p => (p.1, f p.2)) i = f (mget d m i) := by
  induction m with
  | nil => exact hf.symm
  | cons p m ih =>
    obtain ⟨k, v⟩ := p
    simp only [List.map_cons, mget, ih]
    split <;> rfl

/-- What is left of a core, and of a sector, without the entries and lines of a context's older generations than `g`. -/
def freshCore (ctx g : Nat) (k : Core) : Core := { k with
  tlb := k.tlb.filter fun e => e.ctx != ctx || e.gen == g,
  cache := k.cache.filter fun l => l.ctx != ctx || l.gen == g,
  icache := k.icache.filter fun l => l.ctx != ctx || l.gen == g }
@[inherit_doc freshCore]
def freshSector (ctx g : Nat) (k : Sector) : Sector := { k with tlb := k.tlb.filter fun e => e.ctx != ctx || e.gen == g }

theorem cores_dropStale (ctx : Nat) (s : State) :
    (dropStale ctx s).cores = s.cores.map fun p => (p.1, freshCore ctx (ctxOf s ctx).gen p.2) := rfl

theorem sectors_dropStale (ctx : Nat) (s : State) :
    (dropStale ctx s).sectors = s.sectors.map fun p => (p.1, freshSector ctx (ctxOf s ctx).gen p.2) := rfl

theorem coreOf_dropStale (ctx : Nat) (s : State) (c : Nat) : coreOf (dropStale ctx s) c = freshCore ctx (ctxOf s ctx).gen (coreOf s c) := by
  rw [coreOf, cores_dropStale]
  exact mget_map ({} : Core) ({} : Core) (freshCore ctx (ctxOf s ctx).gen) rfl s.cores c

theorem sectorOf_dropStale (ctx : Nat) (s : State) (x : Nat) :
    sectorOf (dropStale ctx s) x = freshSector ctx (ctxOf s ctx).gen (sectorOf s x) := by
  rw [sectorOf, sectors_dropStale]
  exact mget_map ({} : Sector) ({} : Sector) (freshSector ctx (ctxOf s ctx).gen) rfl s.sectors x

theorem ctxOf_dropStale (ctx : Nat) (s : State) (x : Nat) : ctxOf (dropStale ctx s) x = ctxOf s x := rfl

/-- An entry of a context that a bump keeps is of the new generation. -/
theorem gen_of_kept {ctx g : Nat} {t : List TlbEntry} {e : TlbEntry} (h : e ∈ t.filter fun e => e.ctx != ctx || e.gen == g)
    (hc : e.ctx = ctx) : e.gen = g := by
  simpa [hc] using (List.mem_filter.1 h).2

theorem exec_asgenBump (ctx : Nat) {s : State} (hr : s.mgmt.ready = true) :
    ((ctxOf s ctx).busy = true → exec (.asgenBump ctx) s = .next s) ∧
    ((ctxOf s ctx).busy = false → ∃ t, exec (.asgenBump ctx) s = .next t
      ∧ ctxOf t ctx = { ctxOf s ctx with gen := (ctxOf s ctx).gen % 65535 + 1, busy := true }
      ∧ (∀ c, ∀ e ∈ (coreOf t c).tlb, e.ctx = ctx → e.gen = (ctxOf t ctx).gen)
      ∧ ∀ x, ∀ e ∈ (sectorOf t x).tlb, e.ctx = ctx → e.gen = (ctxOf t ctx).gen) := by
  have step : exec (.asgenBump ctx) s = .next (bump ctx s) := congrArg Host.Outcome.next (whenReady_ready _ hr)
  refine ⟨fun hb => step.trans (congrArg _ (if_pos hb)), fun hb => ⟨_, step.trans (congrArg _ (if_neg (by simp [hb]))), ?_, ?_, ?_⟩⟩
  · rw [ctxOf_dropStale, ctxOf_modCtx_self, ctxOf, deliverAll_ctxs]
    rfl
  · intro c e he hc
    rw [coreOf_dropStale] at he
    exact gen_of_kept he hc
  · intro x e he hc
    rw [sectorOf_dropStale] at he
    exact gen_of_kept he hc

/-! ### RWINCTL_WRITE -/

/-- Is a write of RWINCTL refused: would it pin more than 96 MiB (04 R77)? -/
def rwinRefused (s : State) (x w : Nat) (v : Word) : Bool :=
  v.getLsbD 63 && decide (100663296 < pinned (sectorOf s x) x w
    + windowCharge x (mget 0 (sectorOf s x).rwin (2 * w)) (v &&& (0x3FFF000000000000 : Word) ||| 1#64 <<< 63))

/-- What RWINCTL stores: the fields of a write, EN and OVER. -/
def rwinCtl (v : Word) (en ovf : Bool) : Word :=
  v &&& (0x3FFF000000000000 : Word) ||| (if en then 1#64 <<< 63 else 0 : Word) ||| (if ovf then 1#64 <<< 62 else 0 : Word)

theorem rwinStep_eq (x w : Nat) (v : Word) (s : State) : rwinStep x w v s = modSector s x fun k => { k with
    rwin := mput 0 k.rwin (2 * w + 1) (rwinCtl v (v.getLsbD 63 && !rwinRefused s x w v)
      (((mget 0 (sectorOf s x).rwin (2 * w + 1)).getLsbD 62 && !v.getLsbD 62) || rwinRefused s x w v)) } := rfl

theorem getLsbD_ite_lt (c : Bool) {n j : Nat} (hj : j < n) : (if c then 1#64 <<< n else 0 : Word).getLsbD j = false := by
  cases c <;> simp [hj]

theorem rwinCtl_low (v : Word) (a b : Bool) {j : Nat} (hj : j < 62) : (rwinCtl v a b).getLsbD j = (decide (48 ≤ j) && v.getLsbD j) := by
  have mask : ∀ j < 62, (0x3FFF000000000000 : Word).getLsbD j = decide (48 ≤ j) := by decide
  rw [rwinCtl, BitVec.getLsbD_or, BitVec.getLsbD_or, BitVec.getLsbD_and, mask j hj, getLsbD_ite_lt a (by omega), getLsbD_ite_lt b hj,
    Bool.or_false, Bool.or_false, Bool.and_comm]

theorem rwinCtl_en (v : Word) (a b : Bool) : (rwinCtl v a b).getLsbD 63 = a := by
  have mask : (0x3FFF000000000000 : Word).getLsbD 63 = false := by decide
  rw [rwinCtl, BitVec.getLsbD_or, BitVec.getLsbD_or, BitVec.getLsbD_and, mask]
  cases a <;> cases b <;> simp

theorem rwinCtl_over (v : Word) (a b : Bool) : (rwinCtl v a b).getLsbD 62 = b := by
  have mask : (0x3FFF000000000000 : Word).getLsbD 62 = false := by decide
  rw [rwinCtl, BitVec.getLsbD_or, BitVec.getLsbD_or, BitVec.getLsbD_and, mask, getLsbD_ite_lt a (by omega)]
  cases b <;> simp

theorem exec_rwinctlWrite {x w : Nat} {v old : Word} {s : State} (hr : s.mgmt.ready = true) (hx : x < 4) (hw : w < 32)
    (hold : old = mget 0 (sectorOf s x).rwin (2 * w + 1)) (ctl : Word) :
    ∃ t refused, exec (.rwinctlWrite x w v) s = .next t
      ∧ (refused ↔ v.getLsbD 63 = true ∧ 100663296 < pinned (sectorOf s x) x w
          + windowCharge x (mget 0 (sectorOf s x).rwin (2 * w)) (v &&& 0x3FFF000000000000 ||| 1#64 <<< 63))
      ∧ (ctl = mget 0 (sectorOf t x).rwin (2 * w + 1) → (∀ j < 62, ctl.getLsbD j = (decide (48 ≤ j) && v.getLsbD j))
          ∧ (ctl.getLsbD 63 = true ↔ v.getLsbD 63 = true ∧ ¬refused)
          ∧ (ctl.getLsbD 62 = true ↔ old.getLsbD 62 = true ∧ v.getLsbD 62 = false ∨ refused))
      ∧ ∀ n, n ≠ 2 * w + 1 → mget 0 (sectorOf t x).rwin n = mget 0 (sectorOf s x).rwin n := by
  have hs := sectorOf_modSector_self s x fun k => { k with
    rwin := mput 0 k.rwin (2 * w + 1) (rwinCtl v (v.getLsbD 63 && !rwinRefused s x w v)
      (((mget 0 (sectorOf s x).rwin (2 * w + 1)).getLsbD 62 && !v.getLsbD 62) || rwinRefused s x w v)) }
  rw [← rwinStep_eq] at hs
  refine ⟨rwinStep x w v s, rwinRefused s x w v = true, congrArg Host.Outcome.next ?_, ?_, ?_, fun n hn => ?_⟩
  · exact (whenReady_ready _ hr).trans (if_pos (by simp [hx, hw]))
  · exact (Bool.and_eq_true_iff).trans (and_congr_right fun _ => decide_eq_true_iff)
  · rintro rfl
    rw [hs, mget_mput_self, ← hold, rwinCtl_en, rwinCtl_over]
    exact ⟨fun j hj => rwinCtl_low v _ _ hj, by simp, by simp⟩
  · rw [hs, mget_mput_ne _ _ _ _ _ hn]

/-! ### HBMRTCTL, NUMCTL, NUMDROP -/

theorem exec_hbmrtctlWrite (n : Nat) (v : Word) {s : State} (hr : s.mgmt.ready = true) : ∃ t, exec (.hbmrtctlWrite n v) s = .next t
    ∧ stackAt t n = { stackAt s n with en := v.getLsbD 31, interval := min 1000 (max 1 (v.toNat % 65536)) }
    ∧ (∀ k, k ≠ n → stackAt t k = stackAt s k) ∧ { t with hbm := [] } = { s with hbm := [] } :=
  ⟨_, congrArg Host.Outcome.next (whenReady_ready _ hr), (stackAt_modStack s n n _).trans (if_pos rfl),
    fun k hk => (stackAt_modStack s n k _).trans (if_neg hk), rfl⟩

theorem exec_numctlWrite (ctx : Nat) (v : Word) {s : State} (hr : s.mgmt.ready = true) :
    ∃ t, exec (.numctlWrite ctx v) s = .next t ∧ OnlyCtx s t ctx
    ∧ ctxOf t ctx = { ctxOf s ctx with mode := v.toNat % 4, sampleLog := min 16 (max 4 (v.toNat / 65536 % 16)) } :=
  ⟨_, congrArg Host.Outcome.next (whenReady_ready _ hr), onlyCtx_modCtx s ctx _, ctxOf_modCtx_self s ctx _⟩

theorem exec_numdropClear (ctx : Nat) (v : Word) {s : State} (hr : s.mgmt.ready = true) :
    ∃ t, exec (.numdropClear ctx v) s = .next t ∧ OnlyCtx s t ctx
    ∧ ctxOf t ctx = if v.toNat % 2 ^ 32 = 2 ^ 32 - 1 then { ctxOf s ctx with numDrop := 0 } else ctxOf s ctx := by
  refine ⟨_, congrArg Host.Outcome.next (whenReady_ready _ hr), ?_⟩
  by_cases h : v.toNat % 2 ^ 32 = 0xFFFFFFFF
  · rw [if_pos h, if_pos (show _ = 2 ^ 32 - 1 from h)]
    exact ⟨onlyCtx_modCtx s ctx _, ctxOf_modCtx_self s ctx _⟩
  · rw [if_neg h, if_neg (show _ ≠ 2 ^ 32 - 1 from h)]
    exact ⟨onlyCtx_refl s ctx, rfl⟩

/-! ### Display heads, time, nonce -/

/-- What HEADCFG stores: the fields of a write, and EN. -/
def headWord (v : Word) (en : Bool) : Word := v &&& (0x0FFFFFFFFFFFFFFF : Word) ||| (if en then 1#64 <<< 63 else 0 : Word)

theorem headWord_low (v : Word) (a : Bool) {j : Nat} (hj : j < 60) : (headWord v a).getLsbD j = v.getLsbD j := by
  have mask : ∀ j < 60, (0x0FFFFFFFFFFFFFFF : Word).getLsbD j = true := by decide
  rw [headWord, BitVec.getLsbD_or, BitVec.getLsbD_and, mask j hj, getLsbD_ite_lt a (by omega), Bool.and_true, Bool.or_false]

theorem headWord_en (v : Word) (a : Bool) : (headWord v a).getLsbD 63 = a := by
  have mask : (0x0FFFFFFFFFFFFFFF : Word).getLsbD 63 = false := by decide
  rw [headWord, BitVec.getLsbD_or, BitVec.getLsbD_and, mask]
  cases a <;> simp

/-- Does an enable fit (21 R376)? -/
def headFits (s : State) (ctx h : Nat) (v : Word) : Bool :=
  headFieldsOk s ctx v && decide (((otherHeads s ctx h).filter fun c => headEnc c == headEnc v).foldl (fun n c => n + headLoad c) (headLoad v)
    ≤ 497664000) && decide ((otherHeads s ctx h).length < 64)

theorem headFits_iff (s : State) (ctx h : Nat) (v : Word) : headFits s ctx h v = true ↔
    headFieldsOk s ctx v = true ∧ (otherHeads s ctx h).length < 64 ∧
      ((otherHeads s ctx h).filter fun c => headEnc c == headEnc v).foldl (fun n c => n + headLoad c) (headLoad v) ≤ 497664000 := by
  rw [headFits, Bool.and_eq_true, Bool.and_eq_true, decide_eq_true_eq, decide_eq_true_eq, and_assoc]
  exact and_congr_right fun _ => and_comm

theorem headOf_headCfg (ctx h : Nat) (v : Word) (s : State) : headOf (headCfg ctx h v s) ctx h = { headOf s ctx h with
    cfg := headWord v (v.getLsbD 63 && headFits s ctx h v),
    err := ((headOf s ctx h).err && !v.getLsbD 62) || (v.getLsbD 63 && !headFits s ctx h v),
    waiting := if v.getLsbD 63 && headFits s ctx h v then (headOf s ctx h).waiting else none } := headOf_modHead_self s ctx h _

theorem exec_headcfgWrite {ctx h : Nat} {v : Word} {good : Prop} {s : State} (hr : s.mgmt.ready = true) (hh : h < 2)
    (hg : good ↔ headFieldsOk s ctx v = true ∧ (otherHeads s ctx h).length < 64 ∧
      ((otherHeads s ctx h).filter fun c => headEnc c == headEnc v).foldl (fun n c => n + headLoad c) (headLoad v) ≤ 497664000) :
    ∃ t, exec (.headcfgWrite ctx h v) s = .next t ∧ OnlyCtx s t ctx
      ∧ (∀ j < 60, (headOf t ctx h).cfg.getLsbD j = v.getLsbD j)
      ∧ ((headOf t ctx h).cfg.getLsbD 63 = true ↔ v.getLsbD 63 = true ∧ good)
      ∧ ((headOf t ctx h).err = true ↔ (headOf s ctx h).err = true ∧ v.getLsbD 62 = false ∨ v.getLsbD 63 = true ∧ ¬good) := by
  refine ⟨headCfg ctx h v s, congrArg Host.Outcome.next ((whenReady_ready _ hr).trans (if_pos hh)), onlyCtx_modHead s ctx h _, ?_⟩
  rw [headOf_headCfg, headWord_en, hg, ← headFits_iff]
  exact ⟨fun j hj => headWord_low v _ hj, Bool.and_eq_true_iff, by simp⟩

theorem exec_headsurfWrite {ctx h : Nat} (v : Word) {k : DHead} {s : State} (hr : s.mgmt.ready = true) (hh : h < 2) (hk : k = headOf s ctx h) :
    ∃ t, exec (.headsurfWrite ctx h v) s = .next t ∧ OnlyCtx s t ctx ∧ headOf t ctx h = { k with
      surf := v,
      encoding := if k.cfg.getLsbD 63 && k.encoding.isNone then some (v.toNat, fabtime s) else k.encoding,
      waiting := if k.cfg.getLsbD 63 && k.encoding.isSome then some (v.toNat, fabtime s) else k.waiting } := by
  refine ⟨present ctx h v s, congrArg Host.Outcome.next ((whenReady_ready _ hr).trans (if_pos hh)), onlyCtx_modHead s ctx h _, ?_⟩
  rw [present, headOf_modHead_self, ← hk]
  dsimp only
  cases k.cfg.getLsbD 63
  · simp only [Bool.not_false, if_true, Bool.false_and, Bool.false_eq_true, if_false]
  · cases k.encoding <;> simp

theorem exec_ptpctlWrite (v : Word) {s : State} (hr : s.mgmt.ready = true) : ∃ t, exec (.ptpctlWrite v) s = .next t ∧ OnlyMgmt s t
    ∧ t.mgmt.ptpEn = v.getLsbD 63 ∧ t.mgmt.ptpDomain.toNat = v.toNat / 2 ^ 48 % 256
    ∧ (fabricLaunch s = true → v.toNat % 64 ≠ s.mgmt.winLen.toNat → t.mgmt.winErr = true ∧ t.mgmt.winLen = s.mgmt.winLen)
    ∧ (fabricLaunch s = false → t.mgmt.winErr = (s.mgmt.winErr && !v.getLsbD 62))
    ∧ (fabricLaunch s = false → 1 ≤ v.toNat % 64 → v.toNat % 64 ≤ 32 → t.mgmt.winLen.toNat = v.toNat % 64) := by
  refine ⟨ptpCtl v s, congrArg Host.Outcome.next (whenReady_ready _ hr), rfl, rfl, ?_, fun hf hne => ?_, fun hf => ?_, fun hf h1 h32 => ?_⟩
  · exact (BitVec.toNat_ofNat _ _).trans (Nat.mod_mod _ _)
  · simp [ptpCtl, hf, hne]
  · simp [ptpCtl, hf]
  · simp [ptpCtl, hf, h1, h32]

theorem exec_attnonceWrite {n : Nat} (v : Word) {s : State} (hr : s.mgmt.ready = true) (hn : n < 4) :
    ∃ t, exec (.attnonceWrite n v) s = .next t ∧ OnlyMgmt s t
    ∧ t.mgmt.attDone = false ∧ mget 0 t.mgmt.nonce n = v ∧ ∀ k, k ≠ n → mget 0 t.mgmt.nonce k = mget 0 s.mgmt.nonce k :=
  ⟨nonceWrite n v s, congrArg Host.Outcome.next ((whenReady_ready _ hr).trans (if_pos hn)), rfl, rfl, mget_mput_self _ _ _ _,
    fun _ hk => mget_mput_ne _ _ _ _ _ hk⟩


/-- Settles O53: each register's write, one lemma for each clause; the steps with a name of their own by `exec_routed`. -/
theorem registerWrites : Obligations.RegisterWrites :=
  ⟨fun ctx q v _ hr => exec_lqtailWrite ctx q v hr,
    fun _ _ _ _ _ _ hr h hi => exec_lqctl_shadowed hr h hi,
    fun _ q en _ hr h => exec_lqctlEnable q en hr h,
    fun _ _ _ _ hr h hk => exec_lqctlReset hr h hk,
    fun _ _ _ _ hr h hk => exec_lqctlErrClear hr h hk,
    fun a v _ s hr h => ⟨writeRegister (deviceBase + a) v s, rfl, exec_routed hr h⟩,
    fun _ v _ hr ha => congrArg Host.Outcome.next (writeRegister_unready v hr ha),
    fun _ _ _ _ _ hr hc h => exec_registerWrite_ctx hr hc h,
    fun _ _ v _ hr hc hq => exec_registerWrite_queue v hr hc hq,
    fun _ _ v _ hr hx hw => exec_registerWrite_rwinbase v hr hx hw,
    fun ctx _ hr => exec_asgenBump ctx hr,
    fun _ _ _ _ ctl _ hr hx hw hold => exec_rwinctlWrite hr hx hw hold ctl,
    fun n v _ hr => exec_hbmrtctlWrite n v hr,
    fun ctx v _ hr => exec_numctlWrite ctx v hr,
    fun ctx v _ hr => exec_numdropClear ctx v hr,
    fun _ _ _ _ _ hr hh hg => exec_headcfgWrite hr hh hg,
    fun _ _ v _ _ hr hh hk => exec_headsurfWrite v hr hh hk,
    fun v _ hr => exec_ptpctlWrite v hr,
    fun _ v _ hr hn => exec_attnonceWrite v hr hn,
    fun _ hr => congrArg Host.Outcome.next (whenReady_ready attestOrder hr),
    fun _ => rfl⟩

end Sys2Proof.Machine
end

section
/-! SUPPORT. The steps of accesses, causal queues, page requests, generations and the scrubber (04 R84-R86, R88, 05 R93-R97, R101,
12 R263, 23 R403-R406, R408, R413): O56. -/

namespace Sys2Proof.Machine

/-! ### What an access leaves alone: of the cores it changes TLBs only -/

/-- Of each core only the TLB may have changed. -/
def OnlyTlb (s t : State) : Prop := ∀ c, { coreOf t c with tlb := [] } = { coreOf s c with tlb := [] }

theorem onlyTlb_refl (s : State) : OnlyTlb s s := fun _ => rfl
theorem onlyTlb_trans {s t u : State} (h : OnlyTlb s t) (h' : OnlyTlb t u) : OnlyTlb s u := fun c => (h' c).trans (h c)
theorem onlyTlb_of_cores {s t : State} (h : t.cores = s.cores) : OnlyTlb s t := fun c => by rw [coreOf, coreOf, h]

theorem OnlyTlb.warpOf {s t : State} (h : OnlyTlb s t) (c w : Nat) : warpOf t c w = warpOf s c w := by
  have hw : (coreOf t c).warps = (coreOf s c).warps := (congrArg Core.warps (h c) :)
  rw [Machine.warpOf, Machine.warpOf, hw]
theorem OnlyTlb.groupOf {s t : State} (h : OnlyTlb s t) (c g : Nat) : groupOf t c g = groupOf s c g := by
  have hg : (coreOf t c).groups = (coreOf s c).groups := (congrArg Core.groups (h c) :)
  rw [Machine.groupOf, Machine.groupOf, hg]

/-- Steps one after another, none of which touches the cores. -/
theorem foldl_cores {α : Type} {f : State → α → State} (hf : ∀ s a, (f s a).cores = s.cores) (l : List α) (s : State) :
    (l.foldl f s).cores = s.cores :=
  List.foldlRecOn (motive := fun t : State => t.cores = s.cores) l f rfl fun t ht a _ => (hf t a).trans ht

/-- A sector takes a write of its own (05 R95). -/
def takeWrite (o pa : Nat) (bs : List Byte) (k : Sector) : Sector :=
  let a := k.a.put o (k.a.at o + 1)
  { k with a := a, mem := memPuts k.mem pa bs, keys := (List.range bs.length).foldl (fun m i => mput 0 m (pa + i) (a.sum * 4 + o)) k.keys }

/-- A write enters the causal queues from sector `o` to some sectors (05 R95). -/
def sendWrite (o : Nat) (w : CausalWrite) (s : State) (ds : List Nat) : State :=
  ds.foldl (fun s d => { s with causal := mput [] s.causal (4 * o + d) (mget [] s.causal (4 * o + d) ++ [w]) }) s

theorem applyWrite_eq (s : State) (o pa : Nat) (bs : List Byte) : applyWrite s o pa bs =
    sendWrite o ⟨pa, bs, (takeWrite o pa bs (sectorOf s o)).a⟩ (modSector s o (takeWrite o pa bs))
      ([0, 1, 2, 3].filter fun d => d != o && samePart s o d) := rfl

theorem sendWrite_only (o : Nat) (w : CausalWrite) (ds : List Nat) : ∀ s : State,
    { sendWrite o w s ds with causal := [] } = { s with causal := [] } := by
  induction ds with
  | nil => exact fun _ => rfl
  | cons d ds ih => exact fun s => ih _

theorem applyWrite_only (s : State) (o pa : Nat) (bs : List Byte) :
    { applyWrite s o pa bs with causal := [] } = { modSector s o (takeWrite o pa bs) with causal := [] } :=
  sendWrite_only o _ _ _

@[simp] theorem applyWrite_cores (s : State) (o pa : Nat) (bs : List Byte) : (applyWrite s o pa bs).cores = s.cores :=
  (congrArg State.cores (applyWrite_only s o pa bs) :)
@[simp] theorem deliver_cores (s : State) (o d : Nat) : (deliver s o d).cores = s.cores := (congrArg State.cores (deliver_only s o d) :)
@[simp] theorem deliverAll_cores (s : State) : (deliverAll s).cores = s.cores := (congrArg State.cores (deliverAll_only s) :)
@[simp] theorem deliverUpTo_cores (d : Nat) (v : Vec4) (n : Nat) : ∀ s : State, (deliverUpTo d v n s).cores = s.cores := by
  induction n with
  | zero => exact fun _ => rfl
  | succ n ih =>
    intro s
    rw [deliverUpTo]
    split
    · rw [ih, deliver_cores]
    · rfl
@[simp] theorem scrubPage_cores (s : State) (p : Nat) : (scrubPage s p).cores = s.cores := by
  simp only [scrubPage, List.foldl_cons, List.foldl_nil, modSector_cores]
@[simp] theorem scrubFirst_cores (s : State) (pa : Nat) : (scrubFirst s pa).cores = s.cores := by
  unfold scrubFirst
  split
  · exact scrubPage_cores s _
  · rfl
@[simp] theorem repair_cores (s : State) (o pa n : Nat) : (repair s o pa n).cores = s.cores := by
  unfold repair
  refine foldl_cores (fun t g => ?_) _ _
  rw [modSector_cores]
  split
  · rfl
  · exact applyWrite_cores t _ _ _
@[simp] theorem storeAt_cores (s : State) (o pa : Nat) (bs : List Byte) : (storeAt s o pa bs).cores = s.cores := by
  rw [storeAt, applyWrite_cores, repair_cores, scrubFirst_cores]
@[simp] theorem logError_cores (s : State) (x cause addr gen part ctx core det : Nat) :
    (logError s x cause addr gen part ctx core det).cores = s.cores := by
  unfold logError
  lift_lets
  intros
  split
  · rw [applyWrite_cores]
  · split
    · rw [applyWrite_cores]
    · rw [applyWrite_cores, applyWrite_cores]
theorem logCore_eq (s : State) (core ctx cause addr det : Nat) : logCore s core ctx cause addr det
    = logError s (secOf core) cause addr (ctxOf s ctx).gen (ctx / 64) (ctx % 64) core det := by
  unfold logCore
  rfl
@[simp] theorem logCore_cores (s : State) (core ctx cause addr det : Nat) : (logCore s core ctx cause addr det).cores = s.cores :=
  (congrArg State.cores (logCore_eq s core ctx cause addr det)).trans
    (logError_cores s (secOf core) cause addr (ctxOf s ctx).gen (ctx / 64) (ctx % 64) core det)
@[simp] theorem afterRead_cores (a : Nat) (s : State) : (afterRead a s).cores = s.cores := by
  unfold afterRead
  exact (apply_ite State.cores _ _ _).trans (ite_self _)
@[simp] theorem writeDevice_cores (pa v : Nat) (s : State) : (writeDevice pa v s).cores = s.cores := by
  unfold writeDevice
  split <;> rfl
theorem logFound_cores (w : Who) (s : State) (e : Nat × Nat × Nat) : (logFound w s e).cores = s.cores := by
  rw [logFound, logCore_cores]
theorem logsFound_cores (w : Who) (l : List (Nat × Nat × Nat)) (s : State) : (l.foldl (logFound w) s).cores = s.cores :=
  foldl_cores (logFound_cores w) l s
@[simp] theorem fillSlot_cores (s : State) (x n : Nat) (r : Waiter) : (fillSlot s x n r).cores = s.cores := by
  simp only [fillSlot, applyWrite_cores, modSector_cores]
@[simp] theorem setWaiting_cores (s : State) (x : Nat) (ws : List Waiter) : (setWaiting s x ws).cores = s.cores := by
  simp only [setWaiting, applyWrite_cores, modSector_cores]
@[simp] theorem postPage_cores (s : State) (x : Nat) (r : Waiter) : (postPage s x r).2.cores = s.cores := by
  unfold postPage
  dsimp only
  have hl : (match r.log with
    | some (core, c, a, d) => logCore s core r.ctx c a d
    | none => s).cores = s.cores := by
    split
    · rw [logCore_cores]
    · rfl
  split
  · exact hl
  · split
    · exact (fillSlot_cores _ _ _ _).trans hl
    · split
      · exact hl
      · exact (setWaiting_cores _ _ _).trans hl

/-! ### Computations that may stop -/

/-- The state in which a computation ends, whether it answers or stops. -/
def endOf {α : Type} (m : M α) (s : State) : State :=
  match m s with
  | .ok _ t => t
  | .error _ t => t

/-- However it ends, a computation has changed nothing of the cores but TLBs. -/
def KeepsCores {α : Type} (m : M α) : Prop := ∀ s, OnlyTlb s (endOf m s)

theorem KeepsCores.ok {α : Type} {m : M α} (h : KeepsCores m) {s t : State} {a : α} (e : m s = .ok a t) : OnlyTlb s t := by
  have := h s
  rwa [endOf, e] at this
theorem KeepsCores.error {α : Type} {m : M α} (h : KeepsCores m) {s t : State} {a : Stop} (e : m s = .error a t) : OnlyTlb s t := by
  have := h s
  rwa [endOf, e] at this

theorem keepsCores_pure {α : Type} (a : α) : KeepsCores (pure a : M α) := onlyTlb_refl
theorem keepsCores_throw {α : Type} (e : Stop) : KeepsCores (throw e : M α) := onlyTlb_refl
theorem keepsCores_get : KeepsCores (get : M State) := onlyTlb_refl
theorem keepsCores_modify {f : State → State} (h : ∀ s, OnlyTlb s (f s)) : KeepsCores (modify f : M Unit) := h
theorem keepsCores_bind {α β : Type} {m : M α} {f : α → M β} (hm : KeepsCores m) (hf : ∀ a, KeepsCores (f a)) : KeepsCores (m >>= f) := by
  intro s
  show OnlyTlb s (endOf (EStateM.bind m f) s)
  unfold endOf EStateM.bind
  cases hs : m s with
  | ok a t => exact onlyTlb_trans (hm.ok hs) (hf a t)
  | error e t => exact hm.error hs
theorem keepsCores_forIn {α β : Type} {f : α → β → M (ForInStep β)} (hf : ∀ a b, KeepsCores (f a b)) (l : List α) :
    ∀ b, KeepsCores (forIn l b f) := by
  induction l with
  | nil => exact fun b => keepsCores_pure b
  | cons a l ih =>
    intro b
    rw [List.forIn_cons]
    refine keepsCores_bind (hf a b) fun r => ?_
    cases r with
    | done b => exact keepsCores_pure b
    | yield b => exact ih b

theorem keepsCores_readPhys (w : Who) (pa n kind : Nat) : KeepsCores (readPhys w pa n kind) := fun s =>
  onlyTlb_of_cores (logsFound_cores w _ s)

theorem keepsCores_walkRead (w : Who) (pa : Nat) : KeepsCores (walkRead w pa) := onlyTlb_refl

/-- An atomic on memory, at its home sector (05 R96). -/
theorem atomicPhys_memory (w : Who) {pa : Nat} (n : Nat) (f : Nat → Option Nat) (s : State) (hd : isDevice pa = false) (hb : backed pa = true) :
    ∃ r t, atomicPhys w pa n f s = .ok r t ∧ t.cores = s.cores := by
  unfold atomicPhys
  rw [if_neg (by simp [hd]), if_neg (by simp [hb])]
  refine ⟨_, _, rfl, ?_⟩
  rw [logsFound_cores]
  dsimp only
  split
  · rw [storeAt_cores, scrubFirst_cores, deliverUpTo_cores]
  · rw [scrubFirst_cores, deliverUpTo_cores]

theorem atomicPhys_device (w : Who) {pa : Nat} (n : Nat) (f : Nat → Option Nat) (s : State) (hd : isDevice pa = true) :
    ∃ r t, atomicPhys w pa n f s = .ok r t ∧ t.cores = s.cores := by
  unfold atomicPhys
  rw [if_pos hd]
  refine ⟨_, _, rfl, ?_⟩
  split
  · rw [writeDevice_cores, afterRead_cores]
  · rw [afterRead_cores]

theorem atomicPhys_unbacked (w : Who) {pa : Nat} (n : Nat) (f : Nat → Option Nat) (s : State) (hd : isDevice pa = false)
    (hb : backed pa = false) : ∃ r t, atomicPhys w pa n f s = .ok r t ∧ t.cores = s.cores := by
  unfold atomicPhys
  rw [if_neg (by simp [hd]), if_pos (by simp [hb])]
  exact ⟨_, _, rfl, logFound_cores w s _⟩

/-- An atomic always answers. -/
theorem atomicPhys_ok (w : Who) (pa n : Nat) (f : Nat → Option Nat) (s : State) :
    ∃ r t, atomicPhys w pa n f s = .ok r t ∧ t.cores = s.cores := by
  cases hd : isDevice pa with
  | true => exact atomicPhys_device w n f s hd
  | false =>
    cases hb : backed pa with
    | true => exact atomicPhys_memory w n f s hd hb
    | false => exact atomicPhys_unbacked w n f s hd hb

theorem keepsCores_atomicPhys (w : Who) (pa n : Nat) (f : Nat → Option Nat) : KeepsCores (atomicPhys w pa n f) := by
  intro s
  obtain ⟨r, t, e, h⟩ := atomicPhys_ok w pa n f s
  rw [endOf, e]
  exact onlyTlb_of_cores h

theorem keepsCores_walk2 (w : Who) (ipa : Nat) (l : List (Nat × Nat × Nat)) : ∀ base, KeepsCores (walk2 w ipa l base) := by
  induction l with
  | nil => exact fun _ => keepsCores_pure _
  | cons e l ih =>
    intro base
    unfold walk2
    refine keepsCores_bind (keepsCores_walkRead _ _) fun r => ?_
    dsimp only
    split
    · exact keepsCores_pure _
    · split
      · exact keepsCores_pure _
      · split
        · exact keepsCores_pure _
        · exact ih _

theorem keepsCores_ipaRead (w : Who) (ipa kind : Nat) (va : Word) : KeepsCores (ipaRead w ipa kind va) := by
  unfold ipaRead
  refine keepsCores_bind keepsCores_get fun s => keepsCores_bind (keepsCores_walk2 _ _ _ _) fun r => ?_
  cases r with
  | ok => exact keepsCores_pure _
  | miss => exact keepsCores_throw _
  | bad => exact keepsCores_throw _

theorem keepsCores_walk1 (w : Who) (va : Word) (kind : Nat) (l : List (Nat × Nat × Nat)) : ∀ base, KeepsCores (walk1 w va kind l base) := by
  induction l with
  | nil => exact fun _ => keepsCores_throw _
  | cons e l ih =>
    intro base
    unfold walk1
    refine keepsCores_bind (keepsCores_ipaRead _ _ _ _) fun pa => keepsCores_bind (keepsCores_walkRead _ _) fun r => ?_
    dsimp only
    split
    · exact keepsCores_bind keepsCores_get fun s => keepsCores_throw _
    · split
      · exact keepsCores_throw _
      · split
        · exact keepsCores_pure _
        · exact ih _

theorem onlyTlb_fillTlb (s : State) (c x : Nat) (f : List TlbEntry → List TlbEntry) (g : Sector → Sector) :
    OnlyTlb s (modSector (if 192 ≤ c then s else modCore s c fun k => { k with tlb := f k.tlb }) x g) := by
  intro j
  show { coreOf (if 192 ≤ c then s else modCore s c fun k => { k with tlb := f k.tlb }) j with tlb := [] } = _
  split
  · rfl
  · rw [coreOf_modCore]
    split
    · next h => rw [h]
    · rfl

theorem keepsCores_ite {α : Type} {c : Prop} [Decidable c] {m n : M α} (hm : KeepsCores m) (hn : KeepsCores n) :
    KeepsCores (if c then m else n) := by
  split
  · exact hm
  · exact hn

/-- What would follow a stop is not run. -/
theorem keepsCores_throw_bind {α β : Type} (e : Stop) (f : α → M β) : KeepsCores (throw e >>= f) := onlyTlb_refl

theorem keepsCores_translate (w : Who) (va : Word) (kind : Nat) : KeepsCores (translate w va kind) := by
  unfold translate
  refine keepsCores_bind keepsCores_get fun s => ?_
  extract_lets c x a writes hit check found look retired
  have hcheck : ∀ e, KeepsCores (check e) := by
    intro e
    unfold check
    extract_lets pa j4 j3 j2 j1
    have h3 : ∀ u, KeepsCores (j3 u) := fun _ =>
      keepsCores_bind keepsCores_get fun _ => keepsCores_ite (keepsCores_throw_bind _ _) (keepsCores_pure _)
    have h2 : ∀ u, KeepsCores (j2 u) := fun _ =>
      keepsCores_ite (keepsCores_bind keepsCores_get fun _ => keepsCores_throw_bind _ _) (h3 ())
    have h1 : ∀ u, KeepsCores (j1 u) := fun u => keepsCores_ite (keepsCores_throw_bind _ _) (h2 ())
    exact keepsCores_ite (keepsCores_throw_bind _ _) (h1 ())
  have hfound : ∀ e, KeepsCores (found e) := by
    intro e
    unfold found
    cases e with
    | some e => exact keepsCores_bind (keepsCores_pure _) hcheck
    | none =>
      refine keepsCores_bind (keepsCores_walk1 _ _ _ _ _) fun r => ?_
      obtain ⟨ipa, sh1, e1⟩ := r
      refine keepsCores_bind (keepsCores_walk2 _ _ _ _) fun r => ?_
      extract_lets fill
      have hfill : ∀ e, KeepsCores (fill e) := by
        intro ⟨pa, sh2, e2, leaf⟩
        unfold fill
        dsimp -zeta only
        extract_lets sh wr hold dirty e put
        have hput : ∀ u, KeepsCores (put u) := fun u =>
          keepsCores_bind (keepsCores_modify fun s => onlyTlb_fillTlb s w.core x (fun t => (tlbFill t e).take 64)
            fun k => { k with tlb := tlbWays e (tlbFill k.tlb e) }) fun _ => keepsCores_bind (keepsCores_pure _) hcheck
        exact keepsCores_ite (keepsCores_bind (keepsCores_atomicPhys _ _ _ _) fun _ => hput ()) (hput ())
      cases r with
      | ok => exact keepsCores_bind (keepsCores_pure _) hfill
      | miss => exact keepsCores_bind keepsCores_get fun _ => keepsCores_throw_bind _ _
      | bad => exact keepsCores_throw_bind _ _
  have hlook : ∀ u, KeepsCores (look u) := by
    intro u
    unfold look
    cases hit with
    | none => exact keepsCores_bind (keepsCores_pure _) hfound
    | some e => exact keepsCores_ite (keepsCores_bind (keepsCores_pure _) hfound) (keepsCores_bind (keepsCores_pure _) hfound)
  have hretired : ∀ u, KeepsCores (retired u) := fun u => keepsCores_ite (keepsCores_throw_bind _ _) (hlook ())
  exact keepsCores_ite (keepsCores_throw_bind _ _) (hretired ())

theorem keepsCores_vread (w : Who) (va n : Nat) : KeepsCores (vread w va n) := by
  unfold vread
  refine keepsCores_bind keepsCores_get fun s => ?_
  split
  · exact keepsCores_pure _
  · refine keepsCores_bind (keepsCores_forIn (fun p out => ?_) _ _) fun _ => keepsCores_pure _
    refine keepsCores_bind (keepsCores_translate _ _ _) fun pa => keepsCores_ite ?_ ?_
    · exact keepsCores_bind keepsCores_get fun _ =>
        keepsCores_bind (keepsCores_modify fun s => onlyTlb_of_cores (afterRead_cores _ s)) fun _ => keepsCores_pure _
    · exact keepsCores_bind (keepsCores_readPhys _ _ _ _) fun _ => keepsCores_pure _

theorem keepsCores_sinkCount (w : Who) (n : Nat) : KeepsCores (sinkCount w n) := by
  unfold sinkCount
  exact keepsCores_bind keepsCores_get fun s => keepsCores_bind (keepsCores_translate _ _ _) fun _ =>
    keepsCores_bind (keepsCores_atomicPhys _ _ _ _) fun _ => keepsCores_pure _

theorem keepsCores_vwrite (w : Who) (va : Nat) (bs : List Byte) : KeepsCores (vwrite w va bs) := by
  unfold vwrite
  refine keepsCores_bind keepsCores_get fun s => ?_
  split
  · exact keepsCores_bind (keepsCores_sinkCount _ _) fun _ => keepsCores_pure _
  · refine keepsCores_bind (keepsCores_forIn (fun p _ => ?_) _ _) fun _ => keepsCores_pure _
    refine keepsCores_bind (keepsCores_translate _ _ _) fun pa => keepsCores_ite ?_ (keepsCores_ite ?_ ?_)
    · exact keepsCores_bind (keepsCores_modify fun s => onlyTlb_of_cores (writeDevice_cores _ _ s)) fun _ => keepsCores_pure _
    · exact keepsCores_bind (keepsCores_modify fun s => onlyTlb_of_cores (storeAt_cores s _ _ _)) fun _ => keepsCores_pure _
    · exact keepsCores_bind (keepsCores_modify fun s => onlyTlb_of_cores (logCore_cores s _ _ _ _ _)) fun _ => keepsCores_pure _

theorem keepsCores_atomicVirt (w : Who) (va : Word) (n : Nat) (f : Nat → Option Nat) : KeepsCores (atomicVirt w va n f) := by
  unfold atomicVirt
  refine keepsCores_bind keepsCores_get fun s => ?_
  split
  · exact keepsCores_pure _
  · exact keepsCores_bind (keepsCores_translate _ _ _) fun _ => keepsCores_atomicPhys _ _ _ _

/-! ### One write of a page -/

theorem pieces_zero (fuel a : Nat) : pieces fuel a 0 = [] := by cases fuel <;> rfl

theorem pieces_one (fuel : Nat) {a n : Nat} (hn : 1 ≤ n) (h : a % 65536 + n ≤ 65536) : pieces (fuel + 1) a n = [(a, n)] := by
  have hm : min n (65536 - a % 65536) = n := by omega
  rw [pieces, if_neg (by simp; omega)]
  simp only [hm, Nat.sub_self, pieces_zero]

theorem scrubFirst_clean {s : State} {pa : Nat} (h : (sectorOf s (homeSector pa)).scrub.contains (pa / 65536) = false) :
    scrubFirst s pa = s := if_neg (by rw [h]; exact Bool.false_ne_true)

theorem repair_whole {s : State} {pa n : Nat} (o : Nat) (h : hurtGranules s pa n = []) : repair s o pa n = s := by
  rw [repair, h]
  rfl

/-- A write of one plain page is one write of memory (05 R95). -/
theorem vwrite_plain {s u : State} {c ctx va pa : Nat} {bs : List Byte} (h : Plain s u c ctx va bs.length pa) :
    vwrite ⟨c, ctx, 0⟩ va bs s = .ok () (applyWrite u (secOf c) pa bs) := by
  obtain ⟨hsink, ⟨hn, hp⟩, htr, ⟨hback, hdev⟩, hscrub, hhurt⟩ := h
  have hs : storeAt u (secOf c) pa bs = applyWrite u (secOf c) pa bs := by
    rw [storeAt, scrubFirst_clean hscrub, repair_whole _ hhurt]
  have ht : (bs.drop (va - va)).take bs.length = bs := by rw [Nat.sub_self, List.drop_zero, List.take_length]
  unfold vwrite
  simp only [bind, EStateM.bind, get, getThe, MonadStateOf.get, EStateM.get, hsink, pieces_one _ hn hp, List.forIn_cons, List.forIn_nil, htr,
    hdev, hback, ht, Bool.false_eq_true, if_false, if_true, modify, modifyGet, MonadStateOf.modifyGet, EStateM.modifyGet, hs, pure, EStateM.pure]

/-! ### A thread's front, and a write in its sector -/

theorem frontOf_eq (s : State) (c slot l : Nat) : frontOf s c slot l = (laneOf (warpOf s c slot) l).front := rfl

theorem OnlyTlb.frontOf {s t : State} (h : OnlyTlb s t) (c slot l : Nat) : frontOf t c slot l = frontOf s c slot l := by
  rw [frontOf_eq, frontOf_eq, h.warpOf]

theorem lane_modWarp_modLane (s : State) (c slot l : Nat) (f : Lane → Lane) :
    laneOf (warpOf (modWarp s c slot fun w => modLane w l f) c slot) l = f (laneOf (warpOf s c slot) l) := by
  rw [warpOf_modWarp, if_pos ⟨rfl, rfl⟩, laneOf_modLane, if_pos rfl]

theorem lane_dropEntry (s : State) (c slot l i : Nat) : laneOf (warpOf (dropEntry s c slot l i) c slot) l =
    { laneOf (warpOf s c slot) l with front := (frontOf s c slot l).eraseIdx i } := lane_modWarp_modLane ..

theorem lane_modEntry (s : State) (c slot l i : Nat) (f : Access → Access) : laneOf (warpOf (modEntry s c slot l i f) c slot) l =
    { laneOf (warpOf s c slot) l with front := (frontOf s c slot l).modify i f } := lane_modWarp_modLane ..

theorem coreOf_modWarp_ne {s : State} {c j : Nat} (slot : Nat) (f : Warp → Warp) (h : j ≠ c) : coreOf (modWarp s c slot f) j = coreOf s j :=
  (coreOf_modWarp s c slot j f).trans (if_neg h)

theorem lane_deliverX (s : State) (c slot l n : Nat) (v : Word) :
    laneOf (warpOf (deliverX s c slot l n v) c slot) l = setX (laneOf (warpOf s c slot) l) n v := by
  rw [deliverX, warpOf_modWarp, if_pos ⟨rfl, rfl⟩]
  show laneOf (modLane (warpOf s c slot) l fun x => setX x n v) l = _
  rw [laneOf_modLane, if_pos rfl]

theorem getX_setX_ne (x : Lane) {n m : Nat} (v : Word) (h : m ≠ n) : getX (setX x n v) m = getX x m := by
  rw [getX_setX, if_neg fun e => h e.1]

theorem getLsbD_maskSet_false (m : W32) (l : Nat) : (maskSet m l false).getLsbD l = false := by
  simp [maskSet]

/-- Nothing of a register that has arrived in a lane is pending there. -/
theorem board_deliverX (s : State) (c slot l n : Nat) (v : Word) :
    ∀ p ∈ (warpOf (deliverX s c slot l n v) c slot).board, p.kind = 0 → p.num = n → p.lanes.getLsbD l = false := by
  rw [deliverX, warpOf_modWarp, if_pos ⟨rfl, rfl⟩]
  intro p hp hk hn
  obtain ⟨q, hq, rfl⟩ := List.mem_map.1 (List.mem_of_mem_filter hp)
  revert hk hn
  split
  · exact fun _ _ => getLsbD_maskSet_false _ _
  · next h => exact fun hk hn => absurd (by simp [hk, hn]) h

theorem sectorOf_applyWrite (s : State) (o pa : Nat) (bs : List Byte) (y : Nat) :
    sectorOf (applyWrite s o pa bs) y = if y = o then takeWrite o pa bs (sectorOf s o) else sectorOf s y := by
  have h : (applyWrite s o pa bs).sectors = (modSector s o (takeWrite o pa bs)).sectors := (congrArg State.sectors (applyWrite_only s o pa bs) :)
  rw [sectorOf, h]
  exact sectorOf_modSector s o y _

theorem mget_sendWrite (o : Nat) (w : CausalWrite) (d : Nat) (ds : List Nat) : ∀ s : State, ds.Nodup →
    mget [] (sendWrite o w s ds).causal (4 * o + d) = mget [] s.causal (4 * o + d) ++ if d ∈ ds then [w] else [] := by
  induction ds with
  | nil => simp [sendWrite]
  | cons e ds ih =>
    intro s hn
    obtain ⟨he, hn⟩ := List.nodup_cons.1 hn
    refine (ih _ hn).trans ?_
    rw [mget_mput]
    by_cases h : d = e
    · subst h
      simp [he]
    · rw [if_neg (by omega)]
      simp [h]

/-- A write of a sector goes into the queues to the others of its partition. -/
theorem causal_applyWrite (s : State) {o d : Nat} (pa : Nat) (bs : List Byte) (hd : d < 4) (h : d ≠ o) :
    mget [] (applyWrite s o pa bs).causal (4 * o + d) = mget [] s.causal (4 * o + d) ++
      if samePart s o d then [⟨pa, bs, (takeWrite o pa bs (sectorOf s o)).a⟩] else [] := by
  have hm : d ∈ [0, 1, 2, 3].filter (fun d => d != o && samePart s o d) ↔ samePart s o d = true := by
    rw [List.mem_filter]
    simp only [List.mem_cons, List.not_mem_nil, or_false, Bool.and_eq_true, bne_iff_ne]
    exact ⟨fun e => e.2.2, fun e => ⟨by omega, h, e⟩⟩
  rw [applyWrite_eq, mget_sendWrite o _ d _ _ (List.Nodup.filter _ (by decide))]
  simp only [hm]
  rfl

theorem carryOut_ok {α : Type} {s t : State} {m : M α} {a : α} (c slot l i : Nat) (k : α → State → State) (h : m s = .ok a t) :
    carryOut s c slot l i m k = k a t := by
  rw [carryOut, h]

theorem entryAt_of_actsAt {s : State} {c slot l i : Nat} {e : Access} (h : ActsAt s c slot l i e) : entryAt s c slot l i = some e := h.at_

theorem mayAct_of_actsAt {s : State} {c slot l i : Nat} {e : Access} (h : ActsAt s c slot l i e) : mayAct s c slot l i e = true := by
  obtain ⟨_, ⟨hw, hg⟩, hb⟩ := h
  simp only [mayAct, hw, hg, Option.isNone_none, beq_self_eq_true, Bool.and_self, Bool.true_and, List.all_eq_true, Bool.and_eq_true,
    Bool.not_eq_true', Option.isNone_iff_eq_none]
  exact fun b hb' => ⟨(hb b hb').2, (hb b hb').1⟩

theorem remoteOut_false {s : State} {c : Nat} : remoteOut s c = false ↔ ∀ r ∈ s.sent, r.core ≠ c := by
  simp [remoteOut]

/-- What a store and an atomic that may leave has found (05 R94). -/
theorem leaves_clear {s : State} {c slot l i : Nat} {e : Access} (h : Leaves s c slot l i e) :
    ((entriesBefore s c slot l i).all fun b => !isMemAcc b || !overlaps b e) = true
      ∧ (e.ord == 0 || releaseClear s c slot l i e.ord) = true := by
  refine ⟨List.all_eq_true.2 fun b hb => ?_, ?_⟩
  · cases hm : isMemAcc b with
    | false => rfl
    | true => rw [h.clear b hb hm]; rfl
  · by_cases ho : e.ord = 0
    · simp [ho]
    · obtain ⟨hr, h5⟩ := h.release ho
      have hall : (entriesBefore s c slot l i).all (!isMemAcc ·) = true := List.all_eq_true.2 fun b hb => by rw [hr b hb]; rfl
      by_cases h5' : e.ord = 5
      · rw [releaseClear, hall, remoteOut_false.2 (h5 h5')]; simp
      · rw [releaseClear, hall]; simp [h5']

/-! ### STORE_DRAIN -/

theorem storeStep_eq {s u : State} {c slot l i : Nat} {e : Access} (h : Leaves s c slot l i e) (hk : e.kind = .store)
    (hw : vwrite (whoOf s c slot) e.va.toNat (leBytes e.size e.x1.toNat) s = .ok () u) :
    storeStep c slot l i s = some (dropEntry u c slot l i) := by
  obtain ⟨hc, hr⟩ := leaves_clear h
  simp only [storeStep, entryAt_of_actsAt h.toActsAt, hk, beq_self_eq_true, mayAct_of_actsAt h.toActsAt, hc, hr, h.order, Bool.and_self, if_true]
  rw [carryOut_ok c slot l i _ hw]

theorem exec_storeDrain {c slot l i pa x : Nat} {e : Access} {s u : State} (h : Leaves s c slot l i e) (hk : e.kind = .store)
    (hx : x = secOf c) (hp : Plain s u c (warpOf s c slot).ctx e.va.toNat e.size pa) :
    ∃ t, exec (.storeDrain c slot l i) s = .next t
      ∧ laneOf (warpOf t c slot) l = { laneOf (warpOf u c slot) l with front := (frontOf s c slot l).eraseIdx i }
      ∧ (∀ a, mget (0 : Byte) (sectorOf t x).mem a
          = if pa ≤ a ∧ a < pa + e.size then .ofNat 8 (e.x1.toNat / 256 ^ (a - pa)) else mget 0 (sectorOf u x).mem a)
      ∧ (sectorOf t x).a = (sectorOf u x).a.put x ((sectorOf u x).a.at x + 1)
      ∧ (∀ d < 4, d ≠ x → mget [] t.causal (4 * x + d) = mget [] u.causal (4 * x + d) ++
          if samePart u x d then [⟨pa, leBytes e.size e.x1.toNat, (sectorOf t x).a⟩] else [])
      ∧ (∀ y, y ≠ x → sectorOf t y = sectorOf u y)
      ∧ ∀ j, j ≠ c → coreOf t j = coreOf u j := by
  have hl := length_leBytes e.size e.x1.toNat
  have hw := vwrite_plain (bs := leBytes e.size e.x1.toNat) (hl.symm ▸ hp)
  have htlb : OnlyTlb s u := (keepsCores_translate _ _ _).ok hp.translated
  obtain ⟨v, hv⟩ : ∃ v, v = applyWrite u (secOf c) pa (leBytes e.size e.x1.toNat) := ⟨_, rfl⟩
  have hcores : v.cores = u.cores := by rw [hv, applyWrite_cores]
  have hwarp : warpOf v c slot = warpOf u c slot := by rw [warpOf, warpOf, coreOf, coreOf, hcores]
  have hsec : ∀ y, sectorOf v y = if y = x then takeWrite x pa (leBytes e.size e.x1.toNat) (sectorOf u x) else sectorOf u y := by
    intro y; rw [hv, hx, sectorOf_applyWrite]
  have hsx : sectorOf v x = takeWrite x pa (leBytes e.size e.x1.toNat) (sectorOf u x) := (hsec x).trans (if_pos rfl)
  refine ⟨dropEntry v c slot l i, ?_, ?_, fun a => ?_, ?_, fun d hd hne => ?_, fun y hy => ?_, fun j hj => ?_⟩
  · rw [← hv] at hw
    exact congrArg (fun o : Option State => Host.Outcome.next (o.getD s)) (storeStep_eq h hk hw)
  · rw [lane_dropEntry, hwarp, ← htlb.frontOf, frontOf_eq v, hwarp, frontOf_eq u]
  · show mget (0 : Byte) (sectorOf v x).mem a = _
    rw [hsx]
    refine (mget_memPuts _ _ _ _).trans ?_
    rw [hl]
    split
    · next hr => exact getD_leBytes _ (by omega)
    · rfl
  · show (sectorOf v x).a = _
    rw [hsx]
    rfl
  · show mget [] v.causal (4 * x + d) = mget [] u.causal (4 * x + d) ++ if samePart u x d then [⟨pa, _, (sectorOf v x).a⟩] else []
    rw [hsx, hv, ← hx]
    exact causal_applyWrite u pa _ hd hne
  · exact (hsec y).trans (if_neg hy)
  · exact (coreOf_modWarp_ne slot _ hj).trans (by rw [coreOf, coreOf, hcores])

/-! ### LOAD_PERFORM -/

/-- Byte `k` of a number in little-endian order. -/
theorem digit_ofBytes : ∀ (l : List Byte) {k : Nat}, k < l.length → ofBytes l / 256 ^ k % 256 = (l.getD k 0).toNat
  | [], _, h => absurd h (Nat.not_lt_zero _)
  | b :: t, 0, _ => by
    have := b.isLt
    simp only [ofBytes, Nat.pow_zero, Nat.div_one, List.getD_cons_zero]
    omega
  | b :: t, k + 1, h => by
    have := b.isLt
    rw [List.getD_cons_succ, ← digit_ofBytes t (Nat.lt_of_succ_lt_succ h), ofBytes, Nat.pow_succ', ← Nat.div_div_eq_div_mul]
    congr 2
    omega

/-- A byte that a load sees: of the youngest earlier store to it, else of its sector (05 R94). -/
def loadByte (before : List Access) (e : Access) (bs : List Byte) (k : Nat) : Byte :=
  match before.reverse.find? fun b => b.kind == .store && overlaps b (byteAccess e k) with
  | some b =>
    .ofNat 8 (b.x1.toNat / 2 ^ (8 * (if b.va.toNat ≤ e.va.toNat + k && decide (e.va.toNat + k < b.va.toNat + b.size)
      then e.va.toNat + k - b.va.toNat else e.pa + k - b.pa)))
  | none => bs.getD k 0

theorem loadBytes_ok {w : Who} (before : List Access) {e : Access} {bs : List Byte} {s u : State}
    (h : vread w e.va.toNat e.size s = .ok bs u) :
    loadBytes w before e s = .ok ((List.range e.size).map (loadByte before e bs)) u := by
  unfold loadBytes
  simp only [bind, EStateM.bind, h]
  rfl

theorem loadByte_memory {before : List Access} {e : Access} (bs : List Byte) {k : Nat}
    (h : ∀ b ∈ before, b.kind = .store → overlaps b (byteAccess e k) = false) : loadByte before e bs k = bs.getD k 0 := by
  have hf : (before.reverse.find? fun b => b.kind == .store && overlaps b (byteAccess e k)) = none :=
    List.find?_eq_none.2 fun b hb => by
      rw [Bool.and_eq_true, beq_iff_eq]
      exact fun hs => by rw [h b (List.mem_reverse.1 hb) hs.1] at hs; exact Bool.false_ne_true hs.2
  rw [loadByte, hf]

theorem loadByte_store {before : List Access} {e b : Access} (bs : List Byte) {k : Nat}
    (hf : (before.reverse.find? fun b => b.kind == .store && overlaps b (byteAccess e k)) = some b)
    (h1 : b.va.toNat ≤ e.va.toNat + k) (h2 : e.va.toNat + k < b.va.toNat + b.size) :
    (loadByte before e bs k).toNat = b.x1.toNat / 256 ^ (e.va.toNat + k - b.va.toNat) % 256 := by
  have hc : (decide (b.va.toNat ≤ e.va.toNat + k) && decide (e.va.toNat + k < b.va.toNat + b.size)) = true := by simp [h1, h2]
  rw [loadByte, hf]
  simp only [hc, if_true]
  rw [BitVec.toNat_ofNat, Nat.pow_mul]

theorem loadStep_eq {s u : State} {c slot l i : Nat} {e : Access} {bs : List Byte} (h : ActsAt s c slot l i e) (hk : e.kind = .load)
    (hc : ∀ b ∈ (frontOf s c slot l).take i, b.kind = .store ∨ isMemAcc b = false ∨ overlaps b e = false)
    (hr : vread (whoOf s c slot) e.va.toNat e.size s = .ok bs u) :
    loadStep c slot l i s = some (deliverX (dropEntry u c slot l i) c slot l e.dst
      (.ofNat 64 (ofBytes ((List.range e.size).map (loadByte ((frontOf s c slot l).take i) e bs))))) := by
  have hclear : loadClear s c slot l i e = true := List.all_eq_true.2 fun b hb => by
    rcases hc b hb with hs | hm | ho
    · rw [hs]; rfl
    · rw [hm]; simp
    · rw [ho]; simp
  simp only [loadStep, entryAt_of_actsAt h, hk, beq_self_eq_true, mayAct_of_actsAt h, hclear, Bool.and_self, if_true]
  rw [carryOut_ok c slot l i _ (loadBytes_ok _ hr)]
  rfl

theorem exec_loadPerform {c slot l i : Nat} {e : Access} {bs : List Byte} {s u : State} (h : ActsAt s c slot l i e) (hk : e.kind = .load)
    (hc : ∀ b ∈ (frontOf s c slot l).take i, b.kind = .store ∨ isMemAcc b = false ∨ overlaps b e = false)
    (hr : vread ⟨c, (warpOf s c slot).ctx, 0⟩ e.va.toNat e.size s = .ok bs u) :
    ∃ t v, exec (.loadPerform c slot l i) s = .next t ∧ v < 2 ^ (8 * e.size) ∧ frontOf t c slot l = (frontOf s c slot l).eraseIdx i
      ∧ (e.dst ≠ 0 → getX (laneOf (warpOf t c slot) l) e.dst = .ofNat 64 v)
      ∧ (∀ n, n ≠ e.dst → getX (laneOf (warpOf t c slot) l) n = getX (laneOf (warpOf s c slot) l) n)
      ∧ (∀ k < e.size, (∀ b ∈ (frontOf s c slot l).take i, b.kind = .store → overlaps b (byteAccess e k) = false) →
          v / 256 ^ k % 256 = (bs.getD k 0).toNat)
      ∧ (∀ k < e.size, ∀ b, (((frontOf s c slot l).take i).reverse.find? fun b => b.kind == .store && overlaps b (byteAccess e k)) = some b →
          b.va.toNat ≤ e.va.toNat + k → e.va.toNat + k < b.va.toNat + b.size →
          v / 256 ^ k % 256 = b.x1.toNat / 256 ^ (e.va.toNat + k - b.va.toNat) % 256)
      ∧ (∀ p ∈ (warpOf t c slot).board, p.kind = 0 → p.num = e.dst → p.lanes.getLsbD l = false) := by
  obtain ⟨vs, hvs⟩ : ∃ vs, vs = (List.range e.size).map (loadByte ((frontOf s c slot l).take i) e bs) := ⟨_, rfl⟩
  have hlen : vs.length = e.size := by rw [hvs, List.length_map, List.length_range]
  have hbyte : ∀ k < e.size, ofBytes vs / 256 ^ k % 256 = (loadByte ((frontOf s c slot l).take i) e bs k).toNat := by
    intro k hks
    rw [digit_ofBytes vs (by omega), hvs]
    congr 1
    simp [hks]
  have hw : warpOf u c slot = warpOf s c slot := ((keepsCores_vread _ _ _).ok hr).warpOf c slot
  have hlane := lane_deliverX (dropEntry u c slot l i) c slot l e.dst (.ofNat 64 (ofBytes vs))
  rw [lane_dropEntry, frontOf_eq, hw] at hlane
  refine ⟨deliverX (dropEntry u c slot l i) c slot l e.dst (.ofNat 64 (ofBytes vs)), ofBytes vs, ?_, ?_, ?_, fun hd => ?_, fun n hn => ?_,
    fun k hks hb => ?_, fun k hks b hf h1 h2 => ?_, board_deliverX _ c slot l e.dst _⟩
  · rw [hvs]
    exact congrArg (fun o : Option State => Host.Outcome.next ((o.orElse fun _ =>
      (vopenStep c slot l i s).orElse fun _ => queryStep c slot l i s).getD s)) (loadStep_eq h hk hc hr)
  · rw [Nat.pow_mul, ← hlen]
    exact ofBytes_lt vs
  · rw [frontOf_eq, hlane, setX_front, frontOf_eq]
  · rw [hlane, getX_setX, if_pos ⟨rfl, hd⟩]
  · rw [hlane, getX_setX_ne _ _ hn]
    rfl
  · rw [hbyte k hks, loadByte_memory bs hb]
  · rw [hbyte k hks, loadByte_store bs hf h1 h2]

/-! ### ATOMIC_PERFORM -/

/-- What an atomic that has performed leaves of its thread's entry: an acquire's hold, or nothing (05 R96). -/
def afterAtomic (s : State) (c slot l i : Nat) (e : Access) (m : Vec4) : State :=
  if e.ord != 0 && !e.red then modEntry s c slot l i fun _ => { kind := .hold, stamp := m } else dropEntry s c slot l i

/-- An atomic that has performed alone (05 R96). -/
def performed (u : State) (c slot l i : Nat) (e : Access) (old : Nat) (m : Vec4) : State :=
  let t := afterAtomic (modWarp u c slot fun w => modLane w l fun x => { x with stamp := x.stamp.join m }) c slot l i e m
  if e.red then t else deliverX t c slot l e.dst (.ofNat 64 old)

theorem atomicStep_alone {s u : State} {c slot l i old : Nat} {e : Access} {m : Vec4} (h : Leaves s c slot l i e) (hk : e.kind = .atomic)
    (hp : mergePeers s c slot l i e = [])
    (ha : atomicVirt (whoOf s c slot) e.va e.size (fun v => atomNew e.op e.size v e.x1.toNat e.x2.toNat) s = .ok (old, m) u) :
    atomicStep c slot l i s = some (performed u c slot l i e old m) := by
  obtain ⟨hc, hr⟩ := leaves_clear h
  have hclear : atomicClear s c slot l i e = true := by
    simp only [atomicClear, hk, beq_self_eq_true, mayAct_of_actsAt h.toActsAt, hc, hr, h.order, Bool.and_self]
  simp only [atomicStep, entryAt_of_actsAt h.toActsAt, hclear, hp, List.isEmpty_nil, if_true]
  rw [carryOut_ok c slot l i _ ha]
  rfl

theorem lane_afterAtomic (s : State) (c slot l i : Nat) (e : Access) (m : Vec4) :
    laneOf (warpOf (afterAtomic s c slot l i e m) c slot) l = { laneOf (warpOf s c slot) l with
      front := if e.ord ≠ 0 ∧ e.red = false then (frontOf s c slot l).set i { kind := .hold, stamp := m } else (frontOf s c slot l).eraseIdx i } := by
  unfold afterAtomic
  by_cases h : e.ord ≠ 0 ∧ e.red = false
  · rw [if_pos (by simp [h.1, h.2]), if_pos h, lane_modEntry, List.set_eq_modify]
  · rw [if_neg (by simpa using h), if_neg h, lane_dropEntry]

theorem rest_modCore (s : State) (c : Nat) (f : Core → Core) : { modCore s c f with cores := [] } = { s with cores := [] } := rfl
theorem rest_modWarp (s : State) (c slot : Nat) (f : Warp → Warp) : { modWarp s c slot f with cores := [] } = { s with cores := [] } := rfl

theorem rest_afterAtomic (s : State) (c slot l i : Nat) (e : Access) (m : Vec4) :
    { afterAtomic s c slot l i e m with cores := [] } = { s with cores := [] } := by
  unfold afterAtomic
  split
  · exact rest_modWarp s c slot _
  · exact rest_modWarp s c slot _

theorem exec_atomicPerform {c slot l i old : Nat} {e : Access} {m : Vec4} {s u : State} (h : Leaves s c slot l i e) (hk : e.kind = .atomic)
    (hp : mergePeers s c slot l i e = [])
    (ha : atomicVirt ⟨c, (warpOf s c slot).ctx, 0⟩ e.va e.size (fun v => atomNew e.op e.size v e.x1.toNat e.x2.toNat) s = .ok (old, m) u) :
    ∃ t, exec (.atomicPerform c slot l i) s = .next t
      ∧ (laneOf (warpOf t c slot) l).stamp = (laneOf (warpOf s c slot) l).stamp.join m
      ∧ frontOf t c slot l = (if e.ord ≠ 0 ∧ e.red = false then (frontOf s c slot l).set i { kind := .hold, stamp := m }
          else (frontOf s c slot l).eraseIdx i)
      ∧ (e.red = false → e.dst ≠ 0 → getX (laneOf (warpOf t c slot) l) e.dst = .ofNat 64 old)
      ∧ (∀ n, ¬(n = e.dst ∧ e.red = false) → getX (laneOf (warpOf t c slot) l) n = getX (laneOf (warpOf s c slot) l) n)
      ∧ { t with cores := [] } = { u with cores := [] } := by
  have hw : warpOf u c slot = warpOf s c slot := ((keepsCores_atomicVirt _ _ _ _).ok ha).warpOf c slot
  obtain ⟨v, hv⟩ : ∃ v, v = afterAtomic (modWarp u c slot fun w => modLane w l fun x => { x with stamp := x.stamp.join m }) c slot l i e m := ⟨_, rfl⟩
  have hlane : laneOf (warpOf v c slot) l = { laneOf (warpOf s c slot) l with
      stamp := (laneOf (warpOf s c slot) l).stamp.join m,
      front := if e.ord ≠ 0 ∧ e.red = false then (frontOf s c slot l).set i { kind := .hold, stamp := m } else (frontOf s c slot l).eraseIdx i } := by
    rw [hv, lane_afterAtomic, frontOf_eq, lane_modWarp_modLane, hw]
    rfl
  have hcores : { v with cores := [] } = { u with cores := [] } := by
    rw [hv]
    exact (rest_afterAtomic _ c slot l i e m).trans (rest_modWarp u c slot _)
  have hx : exec (.atomicPerform c slot l i) s = .next (performed u c slot l i e old m) :=
    congrArg (fun o : Option State => Host.Outcome.next (o.getD s)) (atomicStep_alone h hk hp ha)
  cases hred : e.red with
  | true =>
    have ht : performed u c slot l i e old m = v := by rw [performed, hred, hv]; rfl
    rw [hred] at hlane
    refine ⟨v, ht ▸ hx, ?_, ?_, fun hf => absurd hf (by decide), fun n _ => ?_, hcores⟩
    · rw [hlane]
    · rw [frontOf_eq, hlane]
    · rw [hlane]; rfl
  | false =>
    have ht : performed u c slot l i e old m = deliverX v c slot l e.dst (.ofNat 64 old) := by rw [performed, hred, hv]; rfl
    rw [hred] at hlane
    have hlane' := lane_deliverX v c slot l e.dst (.ofNat 64 old)
    refine ⟨_, hx, ?_, ?_, fun _ hd => ?_, fun n hn => ?_, ?_⟩
    · rw [ht, hlane', setX_stamp, hlane]
    · rw [ht, frontOf_eq, hlane', setX_front, hlane]
    · rw [ht, hlane', getX_setX, if_pos ⟨rfl, hd⟩]
    · rw [ht, hlane', getX_setX_ne _ _ (fun e => hn ⟨e, rfl⟩), hlane]; rfl
    · rw [ht]; exact hcores

/-! ### CAUSAL_DELIVERY -/

/-- A sector takes byte `i` of a write, under a greater key only (05 R95). -/
def deliverByte (w : CausalWrite) (key : Nat) (k : Sector) (i : Nat) : Sector :=
  if mget 0 k.keys (w.pa + i) < key then
    { k with mem := mput (0 : Byte) k.mem (w.pa + i) (w.bytes.getD i 0), keys := mput 0 k.keys (w.pa + i) key }
  else k

theorem deliver_eq {s : State} {o d : Nat} {w : CausalWrite} {rest : List CausalWrite} (h : mget [] s.causal (4 * o + d) = w :: rest) :
    deliver s o d = modSector { s with causal := mput [] s.causal (4 * o + d) rest } d fun k =>
      (List.range w.bytes.length).foldl (deliverByte w (w.stamp.sum * 4 + o)) { k with a := k.a.put o (w.stamp.at o) } := by
  rw [deliver, h]
  rfl

/-- The first `n` bytes of a write have been delivered. -/
theorem deliverBytes (w : CausalWrite) (key n : Nat) (k : Sector) :
    let k' := (List.range n).foldl (deliverByte w key) k
    k'.a = k.a ∧
    (∀ p, mget (0 : Byte) k'.mem p =
      if w.pa ≤ p ∧ p < w.pa + n ∧ mget 0 k.keys p < key then w.bytes.getD (p - w.pa) 0 else mget 0 k.mem p) ∧
    ∀ p, mget 0 k'.keys p = if w.pa ≤ p ∧ p < w.pa + n then max (mget 0 k.keys p) key else mget 0 k.keys p := by
  induction n with
  | zero =>
    refine ⟨rfl, fun p => ?_, fun p => ?_⟩
    · rw [if_neg (by omega)]; rfl
    · rw [if_neg (by omega)]; rfl
  | succ n ih =>
    obtain ⟨ha, hm, hk⟩ := ih
    rw [List.range_succ, List.foldl_append, List.foldl_cons, List.foldl_nil]
    generalize (List.range n).foldl (deliverByte w key) k = k' at ha hm hk
    have hkey : mget 0 k'.keys (w.pa + n) = mget 0 k.keys (w.pa + n) := (hk _).trans (if_neg (by omega))
    dsimp only
    unfold deliverByte
    rw [hkey]
    by_cases hlt : mget 0 k.keys (w.pa + n) < key
    · rw [if_pos hlt]
      refine ⟨ha, fun p => ?_, fun p => ?_⟩
      · rw [mget_mput, hm]
        by_cases hp : p = w.pa + n
        · subst hp
          rw [if_pos rfl, if_pos ⟨by omega, by omega, hlt⟩, Nat.add_sub_cancel_left]
        · rw [if_neg hp]
          exact if_congr (by constructor <;> rintro ⟨h1, h2, h3⟩ <;> exact ⟨h1, by omega, h3⟩) rfl rfl
      · rw [mget_mput, hk]
        by_cases hp : p = w.pa + n
        · subst hp
          rw [if_pos rfl, if_pos ⟨by omega, by omega⟩]
          omega
        · rw [if_neg hp]
          exact if_congr (by omega) rfl rfl
    · rw [if_neg hlt]
      refine ⟨ha, fun p => ?_, fun p => ?_⟩
      · rw [hm]
        by_cases hp : p = w.pa + n
        · subst hp
          rw [if_neg (by omega), if_neg (by omega)]
        · exact if_congr (by constructor <;> rintro ⟨h1, h2, h3⟩ <;> exact ⟨h1, by omega, h3⟩) rfl rfl
      · rw [hk]
        by_cases hp : p = w.pa + n
        · subst hp
          rw [if_neg (by omega), if_pos ⟨by omega, by omega⟩]
          omega
        · exact if_congr (by omega) rfl rfl

theorem exec_causalDelivery {o d key : Nat} {w : CausalWrite} {rest : List CausalWrite} {s : State} (ho : o < 4) (hd : d < 4) (hne : o ≠ d)
    (h : mget [] s.causal (4 * o + d) = w :: rest) (hc : canDeliver s o d = true) (hkey : key = w.stamp.sum * 4 + o) :
    ∃ t, exec (.causalDelivery o d) s = .next t ∧ mget [] t.causal (4 * o + d) = rest
      ∧ (sectorOf t d).a = (sectorOf s d).a.put o (w.stamp.at o)
      ∧ (∀ i < w.bytes.length, mget (0 : Byte) (sectorOf t d).mem (w.pa + i)
          = if mget 0 (sectorOf s d).keys (w.pa + i) < key then w.bytes.getD i 0 else mget 0 (sectorOf s d).mem (w.pa + i))
      ∧ (∀ i < w.bytes.length, mget 0 (sectorOf t d).keys (w.pa + i) = max (mget 0 (sectorOf s d).keys (w.pa + i)) key)
      ∧ (∀ a, ¬(w.pa ≤ a ∧ a < w.pa + w.bytes.length) → mget (0 : Byte) (sectorOf t d).mem a = mget 0 (sectorOf s d).mem a)
      ∧ (∀ y, y ≠ d → sectorOf t y = sectorOf s y) ∧ t.cores = s.cores := by
  have hstep : deliverStep o d s = some (deliver s o d) := if_pos (by simp [ho, hd, hne, hc])
  obtain ⟨ha, hm, hk⟩ := deliverBytes w key w.bytes.length { sectorOf s d with a := (sectorOf s d).a.put o (w.stamp.at o) }
  have hs : ∀ y, sectorOf (deliver s o d) y = if y = d then (List.range w.bytes.length).foldl (deliverByte w key)
      { sectorOf s d with a := (sectorOf s d).a.put o (w.stamp.at o) } else sectorOf s y := by
    intro y
    rw [deliver_eq h, sectorOf_modSector, hkey]
    rfl
  have hsd := (hs d).trans (if_pos rfl)
  refine ⟨deliver s o d, congrArg (fun x : Option State => Host.Outcome.next (x.getD s)) hstep, ?_, ?_, fun i hi => ?_, fun i hi => ?_,
    fun a hna => ?_, fun y hy => (hs y).trans (if_neg hy), deliver_cores s o d⟩
  · rw [deliver_eq h]
    exact mget_mput_self _ _ _ _
  · rw [hsd, ha]
  · rw [hsd, hm, Nat.add_sub_cancel_left]
    exact if_congr ⟨fun hx => hx.2.2, fun hx => ⟨by omega, by omega, hx⟩⟩ rfl rfl
  · rw [hsd, hk, if_pos ⟨by omega, by omega⟩]
  · rw [hsd, hm, if_neg fun hx => hna ⟨hx.1, hx.2.1⟩]

/-! ### FENCE_COMPLETE -/

/-- A fence takes its sector's vector with its first evaluation (05 R101, log 27). -/
def armFence (s : State) (c slot l i : Nat) (e : Access) : State :=
  if e.armed then s else modEntry s c slot l i fun e => { e with armed := true, stamp := vecOf s c }

theorem lane_armFence (s : State) (c slot l i : Nat) (e : Access) : ∃ f, laneOf (warpOf (armFence s c slot l i e) c slot) l =
    { laneOf (warpOf s c slot) l with front := f } ∧ f.eraseIdx i = (frontOf s c slot l).eraseIdx i := by
  unfold armFence
  split
  · exact ⟨_, rfl, rfl⟩
  · exact ⟨_, lane_modEntry .., List.eraseIdx_modify_of_eq ..⟩

theorem warpOf_postSts (s : State) (c writer seq j slot : Nat) : warpOf (postSts s c writer seq) j slot = warpOf s j slot := by
  rw [warpOf, postSts, coreOf_modCore]
  split
  · next h => rw [h]; rfl
  · rfl

/-- A fence that has completed leaves the front; FENCE.eng posts what its thread has stored (05 R101). -/
def fenceDone (s : State) (c slot l i : Nat) (e : Access) : State :=
  let t := dropEntry (armFence s c slot l i e) c slot l i
  if e.ord == 6 then postSts t c (writerOf (warpOf t c slot) l) e.x1.toNat else t

theorem warpOf_fenceDone (s : State) (c slot l i : Nat) (e : Access) :
    warpOf (fenceDone s c slot l i e) c slot = warpOf (dropEntry (armFence s c slot l i e) c slot l i) c slot := by
  unfold fenceDone
  dsimp only
  split
  · exact warpOf_postSts ..
  · rfl

theorem lane_fenceDone (s : State) (c slot l i : Nat) (e : Access) : laneOf (warpOf (fenceDone s c slot l i e) c slot) l =
    { laneOf (warpOf s c slot) l with front := (frontOf s c slot l).eraseIdx i } := by
  obtain ⟨f, hf, hi⟩ := lane_armFence s c slot l i e
  rw [warpOf_fenceDone, lane_dropEntry, frontOf_eq, hf]
  dsimp only
  rw [hi]

theorem armFence_only (s : State) (c slot l i : Nat) (e : Access) : { armFence s c slot l i e with cores := [] } = { s with cores := [] } := by
  unfold armFence
  split <;> rfl

theorem fenceDone_only (s : State) (c slot l i : Nat) (e : Access) : { fenceDone s c slot l i e with cores := [] } = { s with cores := [] } := by
  have hd : { dropEntry (armFence s c slot l i e) c slot l i with cores := [] } = { s with cores := [] } :=
    (rest_modWarp _ c slot _).trans (armFence_only s c slot l i e)
  unfold fenceDone
  dsimp only
  split
  · exact (rest_modCore _ c _).trans hd
  · exact hd

section
variable {c slot l i : Nat} {e : Access} {v : Vec4} {s : State}
variable (hi : (frontOf s c slot l).findIdx? (fun b => b.kind == .fence) = some i) (he : (frontOf s c slot l)[i]? = some e)
  (hb : ∀ b ∈ (frontOf s c slot l).take i, isMemAcc b = false) (hst : (laneOf (warpOf s c slot) l).stamp.le (sectorOf s (secOf c)).a = true)
  (hv : v = (if e.armed then e.stamp else (sectorOf s (secOf c)).a))
include hi he hb hst hv

/-- The step of a fence whose earlier accesses are done: it ends, or takes its vector, or waits. -/
theorem fenceStep_eq : fenceStep c slot l s =
    if ((fenceSectors s c e.ord).all fun d => v.le (sectorOf s d).a) && (e.ord != 5 || !remoteOut s c) then
      let t := fenceDone s c slot l i e
      let w := warpOf t c slot
      let p := (laneOf w l).park
      some (if p.kind == 5 && (w.st == .ready || w.st == .current || w.st == .parked) then settleAt c slot (maskRelease c slot p.op.toNat t) else t)
    else if e.armed then none else some (armFence s c slot l i e) := by
  have hready : (((laneOf (warpOf s c slot) l).front.take i).all (!isMemAcc ·) && (laneOf (warpOf s c slot) l).stamp.le (vecOf s c)) = true := by
    rw [vecOf, hst, Bool.and_true]
    exact List.all_eq_true.2 fun b hb' => by rw [hb b hb']; rfl
  have hd : (laneOf (warpOf s c slot) l).front.getD i { kind := .fence } = e := by
    rw [List.getD_eq_getElem?_getD, ← frontOf_eq, he]; rfl
  rw [frontOf_eq] at hi
  unfold fenceStep
  simp only [hi, hd, hready, Bool.not_true, Bool.false_eq_true, if_false]
  rw [hv]
  rfl

theorem exec_fenceComplete :
    ((∀ d ∈ fenceSectors s c e.ord, v.le (sectorOf s d).a = true) → (e.ord = 5 → ∀ r ∈ s.sent, r.core ≠ c) →
      (laneOf (warpOf s c slot) l).park.kind ≠ 5 →
      ∃ t, exec (.fenceComplete c slot l) s = .next t ∧ { t with cores := [] } = { s with cores := [] }
        ∧ laneOf (warpOf t c slot) l = { laneOf (warpOf s c slot) l with front := (frontOf s c slot l).eraseIdx i }) ∧
    (((∃ d ∈ fenceSectors s c e.ord, v.le (sectorOf s d).a = false) ∨ e.ord = 5 ∧ ∃ r ∈ s.sent, r.core = c) → e.armed = false →
      ∃ t, exec (.fenceComplete c slot l) s = .next t
        ∧ frontOf t c slot l = (frontOf s c slot l).set i { e with armed := true, stamp := v }) := by
  have hstep := fenceStep_eq hi he hb hst hv
  refine ⟨fun hall hsent hpark => ?_, fun hnot harm => ?_⟩
  · have hc : (((fenceSectors s c e.ord).all fun d => v.le (sectorOf s d).a) && (e.ord != 5 || !remoteOut s c)) = true := by
      rw [List.all_eq_true.2 hall, Bool.true_and]
      by_cases h5 : e.ord = 5
      · rw [remoteOut_false.2 (hsent h5)]; simp
      · simp [h5]
    have hk : ((laneOf (warpOf (fenceDone s c slot l i e) c slot) l).park.kind == 5) = false := by
      rw [lane_fenceDone]; simpa using hpark
    rw [if_pos hc] at hstep
    simp only [hk, Bool.false_and, Bool.false_eq_true, if_false] at hstep
    exact ⟨_, congrArg (fun x : Option State => Host.Outcome.next (x.getD s)) hstep, fenceDone_only .., lane_fenceDone ..⟩
  · have hc : ¬(((fenceSectors s c e.ord).all fun d => v.le (sectorOf s d).a) && (e.ord != 5 || !remoteOut s c)) = true := by
      rw [Bool.and_eq_true, not_and_or]
      rcases hnot with ⟨d, hd, hf⟩ | ⟨h5, r, hr, hc⟩
      · exact .inl fun h => by rw [List.all_eq_true.1 h d hd] at hf; exact absurd hf (by decide)
      · refine .inr fun h => ?_
        have : remoteOut s c = true := List.any_eq_true.2 ⟨r, hr, by simp [hc]⟩
        simp [h5, this] at h
    rw [if_neg hc, harm, if_neg (by decide), armFence, if_neg (by simp [harm])] at hstep
    refine ⟨_, congrArg (fun x : Option State => Host.Outcome.next (x.getD s)) hstep, ?_⟩
    rw [harm, if_neg (by decide)] at hv
    rw [Option.getD_some, frontOf_eq, lane_modEntry]
    dsimp only
    rw [List.modify_eq_set_getElem?, he, hv]
    rfl

end

/-! ### GENERATION_REJECT_REPLAY -/

theorem exec_generationRejectReplay {c slot l i pa g : Nat} {e : Access} {s u : State} (hg : g = (ctxOf s (warpOf s c slot).ctx).gen)
    (hi : (frontOf s c slot l).findIdx? (fun b => isOwnAcc b && b.gen != g && b.wait.isNone) = some i) (he : (frontOf s c slot l)[i]? = some e)
    (hsink : sinkWorld (modEntry s c slot l i fun b => { b with gen := g }) ⟨c, (warpOf s c slot).ctx, 0⟩ e.va.toNat = none)
    (ht : translate ⟨c, (warpOf s c slot).ctx, 0⟩ e.va (match e.kind with | .store => 1 | .atomic => 3 | _ => 0)
      (modEntry s c slot l i fun b => { b with gen := g }) = .ok pa u) :
    ∃ t, exec (.generationRejectReplay c slot l) s = .next t
      ∧ frontOf t c slot l = (frontOf s c slot l).set i { e with gen := g, pa := pa } := by
  have hwho : whoOf (modEntry s c slot l i fun b => { b with gen := g }) c slot = ⟨c, (warpOf s c slot).ctx, 0⟩ := by
    rw [whoOf, modEntry, warpOf_modWarp, if_pos ⟨rfl, rfl⟩]
    rfl
  have hstep : replayStep c slot l s = some (modEntry u c slot l i fun b => { b with pa := pa }) := by
    have hentry : entryAt s c slot l i = some e := he
    rw [frontOf_eq, hg] at hi
    simp only [replayStep, hi, hentry]
    rw [← hg, hwho, hsink, if_neg (by simp)]
    exact congrArg some (carryOut_ok c slot l i _ ht)
  have hfront : frontOf u c slot l = (frontOf s c slot l).modify i fun b => { b with gen := g } := by
    rw [((keepsCores_translate _ _ _).ok ht).frontOf, frontOf_eq, lane_modEntry]
  refine ⟨_, congrArg (fun x : Option State => Host.Outcome.next (x.getD s)) hstep, ?_⟩
  rw [Option.getD_some, frontOf_eq, lane_modEntry]
  dsimp only
  rw [hfront, List.modify_modify_eq, List.modify_eq_set_getElem?, he]
  rfl

/-! ### ASGEN_BUMP_COMPLETE, PAGE_SCRUB -/

theorem exec_asgenBumpComplete {ctx : Nat} {s : State} (hb : (ctxOf s ctx).busy = true) :
    (staleLeft ctx s = false → exec (.asgenBumpComplete ctx) s = .next (modCtx s ctx fun x => { x with busy := false })) ∧
    (staleLeft ctx s = true → exec (.asgenBumpComplete ctx) s = .next s) := by
  refine ⟨fun h => ?_, fun h => ?_⟩
  · exact congrArg (fun x : Option State => Host.Outcome.next (x.getD s)) (if_pos (by simp [hb, h]))
  · exact congrArg (fun x : Option State => Host.Outcome.next (x.getD s)) (if_neg (by simp [h]))

theorem mget_clearRange (m : List Host.Cell) (lo n a : Nat) :
    mget (0 : Byte) (clearRange m lo n) a = if lo ≤ a ∧ a < lo + n then 0 else mget 0 m a := by
  induction m with
  | nil => exact (ite_self _).symm
  | cons e m ih =>
    obtain ⟨k, v⟩ := e
    rw [clearRange] at ih
    by_cases hk : lo ≤ k ∧ k < lo + n
    · rw [clearRange, List.filter_cons_of_neg (by simp [hk]), ih, mget]
      split
      · rfl
      · next ha => rw [if_neg fun h : k = a => ha (h ▸ hk)]
    · rw [clearRange, List.filter_cons_of_pos (by simp only [Bool.not_eq_true', Bool.and_eq_false_iff, decide_eq_false_iff_not]; omega), mget, mget, ih]
      by_cases ha : k = a
      · rw [if_pos ha, if_pos ha, if_neg fun h => hk (ha ▸ h)]
      · rw [if_neg ha, if_neg ha]

theorem sectorOf_foldl_modSector (f : Sector → Sector) (y : Nat) (ds : List Nat) : ∀ s : State, ds.Nodup →
    sectorOf (ds.foldl (fun s x => modSector s x f) s) y = if y ∈ ds then f (sectorOf s y) else sectorOf s y := by
  induction ds with
  | nil => exact fun _ _ => rfl
  | cons d ds ih =>
    intro s hn
    obtain ⟨hd, hn⟩ := List.nodup_cons.1 hn
    rw [List.foldl_cons, ih _ hn, sectorOf_modSector]
    by_cases h : y = d
    · subst h
      simp [hd]
    · simp [h]

/-- The marks of a page are taken off its home sector (23 R413). -/
def unmark (page : Nat) (k : Sector) : Sector := { k with
  scrub := k.scrub.filter (· != page), damaged := k.damaged.filter fun g => g / 65536 != page,
  sramBad := k.sramBad.filter fun g => g / 65536 != page }

/-- A page is cleared in one sector, and in all of them. -/
def clearSector (page : Nat) (k : Sector) : Sector := { k with mem := clearRange k.mem (page * 65536) 65536 }
@[inherit_doc clearSector]
def clearPage (page : Nat) (s : State) : State := [0, 1, 2, 3].foldl (fun s x => modSector s x (clearSector page)) s

/-- A context no longer waits for a page. -/
def doneScrub (page : Nat) (x : Ctx) : Ctx := { x with scrubbing := x.scrubbing.filter (· != page) }

theorem scrubPage_eq (s : State) (page : Nat) : scrubPage s page =
    { modSector (clearPage page s) (homeSector (page * 65536)) (unmark page) with
      ctxs := (clearPage page s).ctxs.map fun e => (e.1, doneScrub page e.2) } := rfl

theorem clearPage_ctxs (s : State) (page : Nat) : (clearPage page s).ctxs = s.ctxs := by
  simp only [clearPage, List.foldl_cons, List.foldl_nil, modSector_ctxs]

theorem sectorOf_scrubPage (s : State) (page : Nat) {x : Nat} (hx : x < 4) : sectorOf (scrubPage s page) x =
    if x = homeSector (page * 65536) then unmark page (clearSector page (sectorOf s x)) else clearSector page (sectorOf s x) := by
  have hm : x ∈ [0, 1, 2, 3] := by simp only [List.mem_cons, List.not_mem_nil, or_false]; omega
  have hf : sectorOf (clearPage page s) x = clearSector page (sectorOf s x) :=
    (sectorOf_foldl_modSector (clearSector page) x [0, 1, 2, 3] s (by decide)).trans (if_pos hm)
  have hs : (scrubPage s page).sectors = (modSector (clearPage page s) (homeSector (page * 65536)) (unmark page)).sectors := by
    rw [scrubPage_eq]
  rw [sectorOf, hs, ← sectorOf, sectorOf_modSector]
  split
  · next h => rw [← h, hf]
  · exact hf

theorem ctxOf_scrubPage (s : State) (page ctx : Nat) : ctxOf (scrubPage s page) ctx = doneScrub page (ctxOf s ctx) := by
  rw [scrubPage_eq, ctxOf, clearPage_ctxs]
  exact mget_map ({} : Ctx) ({} : Ctx) (doneScrub page) rfl s.ctxs ctx

theorem homeSector_lt (pa : Nat) : homeSector pa < 4 := by
  unfold homeSector
  split <;> omega

theorem exec_pageScrub {page : Nat} {s : State} (h : (sectorOf s (homeSector (page * 65536))).scrub.contains page = true) :
    ∃ t, exec (.pageScrub page) s = .next t
      ∧ (∀ x < 4, ∀ a, mget (0 : Byte) (sectorOf t x).mem a = if a / 65536 = page then 0 else mget 0 (sectorOf s x).mem a)
      ∧ page ∉ (sectorOf t (homeSector (page * 65536))).scrub
      ∧ (∀ g ∈ (sectorOf t (homeSector (page * 65536))).damaged, g / 65536 ≠ page)
      ∧ ∀ ctx, page ∉ (ctxOf t ctx).scrubbing := by
  have hh := (sectorOf_scrubPage s page (homeSector_lt _)).trans (if_pos rfl)
  refine ⟨scrubPage s page, congrArg Host.Outcome.next (if_pos h), fun x hx a => ?_, ?_, fun g hg => ?_, fun ctx => ?_⟩
  · have hm : (sectorOf (scrubPage s page) x).mem = clearRange (sectorOf s x).mem (page * 65536) 65536 := by
      rw [sectorOf_scrubPage s page hx]
      split <;> rfl
    rw [hm, mget_clearRange]
    exact if_congr (by omega) rfl rfl
  · rw [hh]
    exact fun hm => by simpa using (List.mem_filter.1 hm).2
  · rw [hh] at hg
    simpa using (List.mem_filter.1 hg).2
  · rw [ctxOf_scrubPage]
    exact fun hm => by simpa using (List.mem_filter.1 hm).2

/-! ### Waits on page requests -/

theorem mget_below {α : Type} [DecidableEq α] (d : α) : ∀ {m : Map α} {lo i : Nat}, mwfFrom d lo m = true → i < lo → mget d m i = d
  | [], _, _, _, _ => rfl
  | (k, v) :: t, lo, i, h, hi => by
    simp only [mwfFrom, Bool.and_eq_true, decide_eq_true_eq] at h
    rw [mget, if_neg (by omega)]
    exact mget_below d h.2 (by omega)

/-- A table with every entry changed, those that become the default dropped. -/
def mapDrop {α : Type} [DecidableEq α] (d : α) (g : α → α) (m : Map α) : Map α :=
  m.filterMap fun e => if g e.2 = d then none else some (e.1, g e.2)

theorem mget_mapDrop {α : Type} [DecidableEq α] (d : α) (g : α → α) (hg : g d = d) (i : Nat) : ∀ {m : Map α} {lo : Nat}, mwfFrom d lo m = true →
    mget d (mapDrop d g m) i = g (mget d m i)
  | [], _, _ => hg.symm
  | (k, v) :: t, lo, h => by
    simp only [mwfFrom, Bool.and_eq_true, decide_eq_true_eq] at h
    have ih := mget_mapDrop d g hg i h.2
    rw [mapDrop] at ih
    rw [mapDrop, List.filterMap_cons, mget]
    by_cases hv : g v = d
    · simp only [hv, if_true, ih]
      split
      · next hk => rw [mget_below d h.2 (by omega), hg, hv]
      · rfl
    · simp only [hv, if_false, mget, ih]
      split <;> rfl

theorem waitWarp_lanes (f : Nat × Nat → Option (Nat × Nat)) (s : State) (w : Warp) :
    (waitWarp f s w).lanes = mapDrop {} (waitLane f (ctxOf s w.ctx).gen) w.lanes := rfl

theorem laneOf_waitWarp (f : Nat × Nat → Option (Nat × Nat)) (s : State) {w : Warp} (l : Nat) (h : mwf {} w.lanes = true) :
    laneOf (waitWarp f s w) l = waitLane f (ctxOf s w.ctx).gen (laneOf w l) := by
  rw [laneOf, waitWarp_lanes]
  exact mget_mapDrop ({} : Lane) (waitLane f (ctxOf s w.ctx).gen) rfl l (lo := 0) h

theorem coreOf_mapWaits (f : Nat × Nat → Option (Nat × Nat)) (s : State) (c : Nat) : coreOf (mapWaits f s) c = waitCore f s (coreOf s c) :=
  mget_map ({} : Core) ({} : Core) (waitCore f s) rfl s.cores c

theorem warpOf_mapWaits (f : Nat × Nat → Option (Nat × Nat)) (s : State) (c w : Nat) : warpOf (mapWaits f s) c w = waitWarp f s (warpOf s c w) := by
  rw [warpOf, coreOf_mapWaits]
  exact mget_map ({} : Warp) ({} : Warp) (waitWarp f s) rfl (coreOf s c).warps w

theorem groupOf_mapWaits (f : Nat × Nat → Option (Nat × Nat)) (s : State) (c g : Nat) : groupOf (mapWaits f s) c g =
    { groupOf s c g with recs := (groupOf s c g).recs.map fun r => { r with wait := r.wait.bind f } } := by
  rw [groupOf, coreOf_mapWaits]
  exact mget_map ({} : Group) ({} : Group) (fun g => { g with recs := g.recs.map fun r => { r with wait := r.wait.bind f } }) rfl (coreOf s c).groups g

theorem frontOf_mapWaits (f : Nat × Nat → Option (Nat × Nat)) (s : State) {c slot : Nat} (l : Nat) (h : mwf {} (warpOf s c slot).lanes = true) :
    frontOf (mapWaits f s) c slot l = (frontOf s c slot l).map (waitAccess f (ctxOf s (warpOf s c slot).ctx).gen) := by
  rw [frontOf_eq, warpOf_mapWaits, laneOf_waitWarp f s l h]
  rfl

/-! ### A sector's page-request area -/

theorem homeSector_pageArea {x j : Nat} (hx : x < 4) (hj : j < 0x20000) : homeSector (pageArea x + j) = x := by
  unfold homeSector pageArea
  rw [if_pos (by omega)]
  omega

theorem peek_pageArea (s : State) {x j n : Nat} (hx : x < 4) (hj : j + n ≤ 0x20000) : peek s x (pageArea x + j) n =
    ofBytes ((List.range n).map fun i => mget (0 : Byte) (sectorOf s x).mem (pageArea x + j + i)) := by
  rw [peek]
  congr 1
  refine List.map_congr_left fun i hi => ?_
  have hi := List.mem_range.1 hi
  rw [readByte, Nat.add_assoc, homeSector_pageArea hx (by omega), samePart, beq_self_eq_true, Bool.true_or, if_pos rfl]

theorem mem_applyWrite (s : State) (o pa : Nat) (bs : List Byte) (a : Nat) : mget (0 : Byte) (sectorOf (applyWrite s o pa bs) o).mem a =
    if pa ≤ a ∧ a < pa + bs.length then bs.getD (a - pa) 0 else mget 0 (sectorOf s o).mem a := by
  rw [sectorOf_applyWrite, if_pos rfl]
  exact mget_memPuts _ _ _ _

theorem ofBytes_leBytes (n : Nat) : ∀ v, ofBytes (leBytes n v) = v % 256 ^ n := by
  induction n with
  | zero => exact fun v => (Nat.mod_one v).symm
  | succ n ih =>
    intro v
    rw [leBytes, ofBytes, ih, Nat.pow_succ', Nat.mod_mul, BitVec.toNat_ofNat]

theorem map_getD_range {n : Nat} {bs : List Byte} (h : bs.length = n) : ((List.range n).map fun i => bs.getD i 0) = bs := by
  refine List.ext_getElem (by simp [h]) fun i h1 h2 => ?_
  simp [h2]

/-- A number of the page-request area once it has been written. -/
theorem peek_applyWrite_same (s : State) {x j n : Nat} (v : Nat) (hx : x < 4) (hj : j + n ≤ 0x20000) :
    peek (applyWrite s x (pageArea x + j) (leBytes n v)) x (pageArea x + j) n = v % 256 ^ n := by
  rw [peek_pageArea _ hx hj, ← ofBytes_leBytes]
  congr 1
  rw [← map_getD_range (length_leBytes n v)]
  refine List.map_congr_left fun i hi => ?_
  have hi := List.mem_range.1 hi
  rw [mem_applyWrite, map_getD_range (length_leBytes n v), length_leBytes, if_pos ⟨by omega, by omega⟩, Nat.add_sub_cancel_left]

/-- A number of the page-request area that a write of other bytes leaves alone. -/
theorem peek_applyWrite_apart (s : State) {x j n k : Nat} (bs : List Byte) (hx : x < 4) (hj : j + n ≤ 0x20000)
    (h : k + bs.length ≤ j ∨ j + n ≤ k) :
    peek (applyWrite s x (pageArea x + k) bs) x (pageArea x + j) n = peek s x (pageArea x + j) n := by
  rw [peek_pageArea _ hx hj, peek_pageArea _ hx hj]
  congr 1
  refine List.map_congr_left fun i hi => ?_
  have hi := List.mem_range.1 hi
  rw [mem_applyWrite, if_neg (by omega)]

/-- What a write leaves of its sector: the page requests, for one. -/
theorem takeWrite_posted (o pa : Nat) (bs : List Byte) (k : Sector) :
    (takeWrite o pa bs k).posted = k.posted ∧ (takeWrite o pa bs k).waiting = k.waiting := ⟨rfl, rfl⟩

theorem posted_applyWrite (s : State) (o pa : Nat) (bs : List Byte) (x : Nat) :
    (sectorOf (applyWrite s o pa bs) x).posted = (sectorOf s x).posted ∧ (sectorOf (applyWrite s o pa bs) x).waiting = (sectorOf s x).waiting := by
  rw [sectorOf_applyWrite]
  split
  · next h => rw [h]; exact takeWrite_posted _ _ _ _
  · exact ⟨rfl, rfl⟩

/-! ### PAGE_REQUEST_RETRY -/

/-- A slot that has been answered: free, its status word 0, ANSWERED one more (23 R404, R406). -/
def answerPage (x n : Nat) (s : State) : State :=
  let t := applyWrite (modSector s x fun k => { k with posted := k.posted.filter (·.1 != n) }) x (pageArea x + 0x10040 + 8 * n) (leBytes 8 0)
  applyWrite t x (pageArea x + 8) (leBytes 8 ((peek t x (pageArea x + 8) 8 + 1) % 2 ^ 64))

theorem freePage_answered (s : State) (x n : Nat) :
    freePage s x n true = admitWalks x (sectorOf (answerPage x n s) x).waiting.length (answerPage x n s) := rfl

theorem answerPage_cores (x n : Nat) (s : State) : (answerPage x n s).cores = s.cores := by
  simp only [answerPage, applyWrite_cores, modSector_cores]

theorem answerPage_slots (x n : Nat) (s : State) :
    (sectorOf (answerPage x n s) x).posted = (sectorOf s x).posted.filter (·.1 != n)
      ∧ (sectorOf (answerPage x n s) x).waiting = (sectorOf s x).waiting := by
  unfold answerPage
  dsimp only
  obtain ⟨h1, h2⟩ := posted_applyWrite (modSector s x fun k => { k with posted := k.posted.filter (·.1 != n) }) x (pageArea x + 0x10040 + 8 * n) (leBytes 8 0) x
  rw [(posted_applyWrite _ _ _ _ _).1, (posted_applyWrite _ _ _ _ _).2, h1, h2, sectorOf_modSector_self]
  exact ⟨rfl, rfl⟩

theorem answerPage_words {x n : Nat} (s : State) (hx : x < 4) (hn : n < 4096) :
    peek (answerPage x n s) x (pageArea x + 0x10040 + 8 * n) 8 = 0
      ∧ peek (answerPage x n s) x (pageArea x + 8) 8 = (peek s x (pageArea x + 8) 8 + 1) % 2 ^ 64 := by
  unfold answerPage
  rw [Nat.add_assoc (pageArea x)]
  dsimp only
  constructor
  · rw [peek_applyWrite_apart _ _ hx (by omega) (by rw [length_leBytes]; omega), peek_applyWrite_same _ _ hx (by omega), Nat.zero_mod]
  · rw [peek_applyWrite_same _ _ hx (by omega), peek_applyWrite_apart _ _ hx (by omega) (by omega), show (256 : Nat) ^ 8 = 2 ^ 64 by norm_num,
      Nat.mod_mod, peek_pageArea _ hx (by omega), peek_pageArea _ hx (by omega), sectorOf_modSector_self]

/-- A delivery leaves a sector's page requests alone. -/
theorem posted_deliverByte (w : CausalWrite) (key : Nat) (l : List Nat) : ∀ k : Sector,
    (l.foldl (deliverByte w key) k).posted = k.posted ∧ (l.foldl (deliverByte w key) k).waiting = k.waiting := by
  induction l with
  | nil => exact fun _ => ⟨rfl, rfl⟩
  | cons i l ih =>
    intro k
    obtain ⟨h1, h2⟩ := ih (deliverByte w key k i)
    rw [List.foldl_cons, h1, h2, deliverByte]
    split <;> exact ⟨rfl, rfl⟩

theorem posted_deliver (s : State) (o d x : Nat) :
    (sectorOf (deliver s o d) x).posted = (sectorOf s x).posted ∧ (sectorOf (deliver s o d) x).waiting = (sectorOf s x).waiting := by
  cases h : mget [] s.causal (4 * o + d) with
  | nil => rw [deliver, h]; exact ⟨rfl, rfl⟩
  | cons w rest =>
    rw [deliver_eq h, sectorOf_modSector]
    split
    · next hx => rw [hx]; exact posted_deliverByte _ _ _ _
    · exact ⟨rfl, rfl⟩

theorem posted_deliverAll (s : State) (x : Nat) :
    (sectorOf (deliverAll s) x).posted = (sectorOf s x).posted ∧ (sectorOf (deliverAll s) x).waiting = (sectorOf s x).waiting := by
  refine List.foldlRecOn (motive := fun t : State => (sectorOf t x).posted = (sectorOf s x).posted ∧
    (sectorOf t x).waiting = (sectorOf s x).waiting) (List.range (causalCount s)) _ ⟨rfl, rfl⟩ fun t ht _ _ => ?_
  split
  · exact ⟨(posted_deliver t _ _ x).1.trans ht.1, (posted_deliver t _ _ x).2.trans ht.2⟩
  · exact ht

theorem isPosted_iff {s : State} {x n : Nat} : isPosted s x n = true ↔ ∃ r, (n, r) ∈ (sectorOf s x).posted := by
  simp only [isPosted, List.any_eq_true, beq_iff_eq, Prod.exists]
  exact ⟨fun ⟨a, r, h, e⟩ => ⟨r, e ▸ h⟩, fun ⟨r, h⟩ => ⟨n, r, h, rfl⟩⟩

/-- An access whose wait is over walks again, under the generation current now. -/
theorem waitAccess_retry (x n gen : Nat) (e : Access) : waitAccess (fun w => if w == (x, n) then none else some w) gen e =
    if e.wait = some (x, n) then { e with wait := none, gen := gen } else e := by
  obtain ⟨_, _, _, _, _, _, _, _, _, _, _, _, _, _, _, _, wait⟩ := e
  cases wait with
  | none => rfl
  | some w =>
    by_cases h : w = (x, n)
    · simp [waitAccess, h]
    · simp [waitAccess, h]

theorem exec_pageRequestRetry {x n : Nat} {s : State} (hx : x < 4) (hn : n < 4096) (hp : ∃ r, (n, r) ∈ (sectorOf s x).posted)
    (hw : (sectorOf s x).waiting = []) :
    ∃ t, exec (.pageRequestRetry x n) s = .next t ∧ (∀ r, (n, r) ∉ (sectorOf t x).posted)
      ∧ peek t x (pageArea x + 0x10040 + 8 * n) 8 = 0
      ∧ peek t x (pageArea x + 8) 8 = (peek (deliverAll s) x (pageArea x + 8) 8 + 1) % 2 ^ 64
      ∧ ∀ c slot l, mwf {} (warpOf s c slot).lanes = true → frontOf t c slot l = (frontOf s c slot l).map fun e =>
          if e.wait = some (x, n) then { e with wait := none, gen := (ctxOf s (warpOf s c slot).ctx).gen } else e := by
  obtain ⟨u, hu⟩ : ∃ u, u = retryWaits x n (deliverAll s) := ⟨_, rfl⟩
  have hsec : u.sectors = (deliverAll s).sectors := by rw [hu]; rfl
  have hsx : sectorOf u x = sectorOf (deliverAll s) x := by rw [sectorOf, sectorOf, hsec]
  obtain ⟨hpost, hwait⟩ := answerPage_slots x n u
  obtain ⟨h0, h1⟩ := answerPage_words u hx hn
  have hfree : freePage u x n true = answerPage x n u := by
    rw [freePage_answered, hwait, hsx, (posted_deliverAll s x).2, hw]
    rfl
  have hstep : pageRetry x n s = some (answerPage x n u) := by
    rw [pageRetry, if_pos (isPosted_iff.2 hp), ← hu, hfree]
  refine ⟨answerPage x n u, congrArg (fun o : Option State => Host.Outcome.next (o.getD s)) hstep, fun r hr => ?_, h0, ?_, fun c slot l hl => ?_⟩
  · rw [hpost] at hr
    simpa using (List.mem_filter.1 hr).2
  · rw [h1, peek_pageArea _ hx (by omega), peek_pageArea _ hx (by omega), hsx]
  · have ht := onlyTlb_of_cores (answerPage_cores x n u)
    have hd := onlyTlb_of_cores (deliverAll_cores s)
    have hl' : mwf {} (warpOf (deliverAll s) c slot).lanes = true := by rw [hd.warpOf]; exact hl
    rw [ht.frontOf, hu, retryWaits, frontOf_mapWaits _ _ _ hl', hd.frontOf, hd.warpOf, ctxOf, deliverAll_ctxs, ← ctxOf]
    exact List.map_congr_left fun e _ => waitAccess_retry x n _ e

/-! ### What the failure of one request leaves alone -/

/-- What a fault record says of its fault, whatever becomes of the record. -/
def recKey (r : FaultRec) : Nat × W32 × Nat × Bool := (r.cause, r.lanes, r.pc, r.byAccess)

/-- Groups as they were, but for what becomes of their records. -/
def GroupsKept (s t : State) : Prop := ∀ c g, (groupOf t c g).halted = (groupOf s c g).halted ∧
  (groupOf t c g).recs.map recKey = (groupOf s c g).recs.map recKey

/-- Warps as they were. -/
def WarpsKept (s t : State) : Prop := ∀ c w, warpOf t c w = warpOf s c w

/-- What threads wait for is as it was. -/
def FrontsKept (s t : State) : Prop := ∀ c w, (mwf {} (warpOf s c w).lanes = true → mwf {} (warpOf t c w).lanes = true) ∧
  ∀ l, frontOf t c w l = frontOf s c w l ∧ (laneOf (warpOf t c w) l).wait = (laneOf (warpOf s c w) l).wait

theorem groupsKept_trans {s t u : State} (h : GroupsKept s t) (h' : GroupsKept t u) : GroupsKept s u :=
  fun c g => ⟨(h' c g).1.trans (h c g).1, (h' c g).2.trans (h c g).2⟩
theorem frontsKept_trans {s t u : State} (h : FrontsKept s t) (h' : FrontsKept t u) : FrontsKept s u := fun c w =>
  ⟨fun hw => (h' c w).1 ((h c w).1 hw), fun l => ⟨((h' c w).2 l).1.trans ((h c w).2 l).1, ((h' c w).2 l).2.trans ((h c w).2 l).2⟩⟩
theorem WarpsKept.fronts {s t : State} (h : WarpsKept s t) : FrontsKept s t := fun c w => by
  unfold frontOf
  rw [h c w]
  exact ⟨id, fun _ => ⟨rfl, rfl⟩⟩

/-- Both: what the records of a group's faults go through changes nothing else of it, nor a warp. -/
def RecsMoved (s t : State) : Prop := WarpsKept s t ∧ GroupsKept s t

theorem recsMoved_refl (s : State) : RecsMoved s s := ⟨fun _ _ => rfl, fun _ _ => ⟨rfl, rfl⟩⟩
theorem recsMoved_trans {s t u : State} (h : RecsMoved s t) (h' : RecsMoved t u) : RecsMoved s u :=
  ⟨fun c w => (h'.1 c w).trans (h.1 c w), groupsKept_trans h.2 h'.2⟩
theorem OnlyTlb.recs {s t : State} (h : OnlyTlb s t) : RecsMoved s t :=
  ⟨h.warpOf, fun c g => by rw [h.groupOf]; exact ⟨rfl, rfl⟩⟩
theorem recsMoved_of_cores {s t : State} (h : t.cores = s.cores) : RecsMoved s t := (onlyTlb_of_cores h).recs
theorem recsMoved_foldl {α : Type} {f : State → α → State} (hf : ∀ s a, RecsMoved s (f s a)) (l : List α) (s : State) :
    RecsMoved s (l.foldl f s) :=
  List.foldlRecOn (motive := fun t : State => RecsMoved s t) l f (recsMoved_refl s) fun t ht a _ => recsMoved_trans ht (hf t a)

theorem map_modify_key {α β : Type} (key : α → β) {f : α → α} (hf : ∀ a, key (f a) = key a) : ∀ (l : List α) (i : Nat),
    (l.modify i f).map key = l.map key
  | [], i => by cases i <;> rfl
  | a :: l, 0 => by rw [List.modify_zero_cons, List.map_cons, List.map_cons, hf]
  | a :: l, i + 1 => by rw [List.modify_succ_cons, List.map_cons, List.map_cons, map_modify_key key hf l i]

theorem warpOf_modGroup (s : State) (c g j w : Nat) (f : Group → Group) : warpOf (modGroup s c g f) j w = warpOf s j w := by
  rw [warpOf, modGroup, coreOf_modCore]
  split
  · next h => rw [h]; rfl
  · rfl

/-- A change of one record that keeps what it says. -/
theorem recsMoved_put {f : FaultRec → FaultRec} (hf : ∀ r, recKey (f r) = recKey r) (s : State) (c g i : Nat) :
    RecsMoved s (modGroup s c g fun k => { k with recs := k.recs.modify i f }) := by
  refine ⟨fun j w => warpOf_modGroup s c g j w _, fun j h => ?_⟩
  rw [groupOf_modGroup]
  split
  · next e => rw [e.1, e.2]; exact ⟨rfl, map_modify_key recKey hf _ _⟩
  · exact ⟨rfl, rfl⟩

theorem recsMoved_writeRecord (s : State) (c g i : Nat) : RecsMoved s (writeRecord s c g i) := by
  unfold writeRecord
  dsimp only
  split
  · exact recsMoved_refl s
  · split
    · next h =>
      refine recsMoved_trans ((keepsCores_vwrite _ _ _).ok h).recs (recsMoved_put ?_ _ _ _ _)
      exact fun _ => rfl
    · next h =>
      refine recsMoved_trans ((keepsCores_vwrite _ _ _).error h).recs (recsMoved_trans (recsMoved_of_cores (postPage_cores _ _ _)) (recsMoved_put ?_ _ _ _ _))
      exact fun _ => rfl
    · next h =>
      refine recsMoved_trans ((keepsCores_vwrite _ _ _).error h).recs ?_
      split
      · refine recsMoved_trans (recsMoved_of_cores (logCore_cores _ _ _ _ _ _)) (recsMoved_put ?_ _ _ _ _)
        exact fun _ => rfl
      · refine recsMoved_put ?_ _ _ _ _
        exact fun _ => rfl

theorem recsMoved_setRecState (s : State) (c g i st : Nat) : RecsMoved s (setRecState s c g i st) :=
  recsMoved_trans (recsMoved_put (f := fun r => { r with state := st }) (fun _ => rfl) s c g i) (recsMoved_writeRecord _ c g i)

theorem recsMoved_logCore (s : State) (core ctx cause addr det : Nat) : RecsMoved s (logCore s core ctx cause addr det) :=
  recsMoved_of_cores (logCore_cores s core ctx cause addr det)

theorem recsMoved_toHost (s : State) (c g i : Nat) : RecsMoved s (toHost s c g i) :=
  recsMoved_trans (recsMoved_setRecState s c g i 4) (recsMoved_logCore _ _ _ _ _ _)

theorem recsMoved_tableLost (c g : Nat) (s : State) : RecsMoved s (tableLost c g s) := by
  have h0 : RecsMoved s (modGroup s c g fun k => { k with tabDue := false }) := by
    refine ⟨fun j w => warpOf_modGroup s c g j w _, fun j h => ?_⟩
    rw [groupOf_modGroup]
    split
    · next e => rw [e.1, e.2]; exact ⟨rfl, rfl⟩
    · exact ⟨rfl, rfl⟩
  refine recsMoved_trans h0 (recsMoved_foldl (fun t i => ?_) _ _)
  dsimp only
  split
  · exact recsMoved_trans (recsMoved_setRecState t c g i 4) (recsMoved_logCore _ _ _ _ _ _)
  · exact recsMoved_refl t

theorem recsMoved_failRecord (c g i : Nat) (s : State) : RecsMoved s (failRecord c g i s) := by
  unfold failRecord
  dsimp only
  have h0 := recsMoved_put (f := fun r => { r with wait := none, held := 0 }) (fun _ => rfl) s c g i
  refine recsMoved_trans h0 ?_
  split
  · exact recsMoved_tableLost c g _
  · exact recsMoved_foldl (fun t j => recsMoved_toHost t c g j) _ _
  · split
    · refine recsMoved_trans (recsMoved_put ?_ _ c g i) (recsMoved_logCore _ _ _ _ _ _)
      exact fun _ => rfl
    · refine recsMoved_put ?_ _ c g i
      exact fun _ => rfl

theorem recsMoved_failRecords (x n c : Nat) (s : State) : RecsMoved s (failRecords x n c s) := by
  unfold failRecords
  refine recsMoved_foldl (fun t g => recsMoved_foldl (fun t i => ?_) _ _) _ _
  split
  · exact recsMoved_failRecord c g.1 i t
  · exact recsMoved_refl t

/-! ### A fault leaves what threads wait for alone -/

theorem mwf_setLane {w : Warp} (l : Nat) (x : Lane) (h : mwf {} w.lanes = true) : mwf {} (setLane w l x).lanes = true := mput_wf _ _ _ _ h

/-- One warp's threads wait for what they waited for. -/
def LanesKept (w w' : Warp) : Prop := (mwf {} w.lanes = true → mwf {} w'.lanes = true) ∧
  ∀ l, (laneOf w' l).front = (laneOf w l).front ∧ (laneOf w' l).wait = (laneOf w l).wait

theorem lanesKept_trans {w w' w'' : Warp} (h : LanesKept w w') (h' : LanesKept w' w'') : LanesKept w w'' :=
  ⟨h'.1 ∘ h.1, fun l => ⟨(h'.2 l).1.trans (h.2 l).1, (h'.2 l).2.trans (h.2 l).2⟩⟩

theorem lanesKept_of_lanes {w w' : Warp} (h : w'.lanes = w.lanes) : LanesKept w w' := by
  unfold LanesKept laneOf
  rw [h]
  exact ⟨id, fun _ => ⟨rfl, rfl⟩⟩

theorem lanesKept_modLane (w : Warp) (l : Nat) {f : Lane → Lane} (hf : ∀ x, (f x).front = x.front ∧ (f x).wait = x.wait) :
    LanesKept w (modLane w l f) := by
  refine ⟨mwf_setLane l _, fun j => ?_⟩
  rw [laneOf_modLane]
  split
  · next h => rw [h]; exact hf _
  · exact ⟨rfl, rfl⟩

theorem frontsKept_modWarp {s : State} {c slot : Nat} {f : Warp → Warp} (h : LanesKept (warpOf s c slot) (f (warpOf s c slot))) :
    FrontsKept s (modWarp s c slot f) := by
  intro j w
  unfold frontOf
  rw [warpOf_modWarp]
  split
  · next e => rw [e.1, e.2]; exact h
  · exact ⟨id, fun _ => ⟨rfl, rfl⟩⟩

theorem groupOf_modWarp (s : State) (c slot j g : Nat) (f : Warp → Warp) : groupOf (modWarp s c slot f) j g = groupOf s j g := by
  rw [groupOf, coreOf_modWarp]
  split
  · next h => rw [h]; rfl
  · rfl

theorem groupsKept_modWarp (s : State) (c slot : Nat) (f : Warp → Warp) : GroupsKept s (modWarp s c slot f) := fun j g => by
  rw [groupOf_modWarp]
  exact ⟨rfl, rfl⟩

theorem haltWarp_lanes (n : Nat) (w : Warp) : (haltWarp n w).lanes = w.lanes := by
  unfold haltWarp
  split
  case h_5 => rfl
  all_goals split <;> rfl

/-- A group's warps begin their skid. -/
theorem haltSlots_kept (c : Nat) (slots : List Nat) : ∀ s : State, FrontsKept s (haltSlots c slots s) ∧ GroupsKept s (haltSlots c slots s) := by
  induction slots with
  | nil => exact fun s => ⟨(recsMoved_refl s).1.fronts, (recsMoved_refl s).2⟩
  | cons sl slots ih =>
    intro s
    obtain ⟨hf, hg⟩ := ih (modWarp { s with choice := s.choice + 1 } c sl (haltWarp (Config.skid s.choice % 9)))
    have hc : RecsMoved s { s with choice := s.choice + 1 } := recsMoved_of_cores rfl
    exact ⟨frontsKept_trans (frontsKept_trans hc.1.fronts (frontsKept_modWarp (lanesKept_of_lanes (haltWarp_lanes _ _)))) hf,
      groupsKept_trans (groupsKept_trans hc.2 (groupsKept_modWarp _ c sl _)) hg⟩

theorem stopLanes_kept (ls : List Nat) : ∀ w : Warp, LanesKept w (ls.foldl (fun w l => modLane w l fun x => { x with stopped := true }) w) := by
  induction ls with
  | nil => exact fun w => lanesKept_of_lanes rfl
  | cons l ls ih => exact fun w => lanesKept_trans (lanesKept_modLane w l (f := fun x => { x with stopped := true }) fun _ => ⟨rfl, rfl⟩) (ih _)

theorem raiseFault_kept {f : FaultInfo} {s : State} (h : (warpOf s f.core f.slot).kind ≠ .handler) :
    FrontsKept s (raiseFault f s) ∧ (groupOf (raiseFault f s) f.core (warpOf s f.core f.slot).group).halted = true ∧
    ∃ r ∈ (groupOf (raiseFault f s) f.core (warpOf s f.core f.slot).group).recs, recKey r = (f.cause, f.lanes, f.pc, f.byAccess) := by
  unfold raiseFault
  extract_lets w k g x free tabFree tab area l0 tabAddr warpIx gix image addr r s1 s2 s3 s4
  rw [if_neg (show ¬(w.kind == WarpKind.handler) = true by simpa using h)]
  have h1 : s1.cores = s.cores := modCtx_cores _ _ _
  have h2 : WarpsKept s s2 := fun c j => (warpOf_modGroup s1 _ _ c j _).trans ((recsMoved_of_cores h1).1 c j)
  have hg2 : (groupOf s2 f.core w.group).halted = true ∧ r ∈ (groupOf s2 f.core w.group).recs := by
    rw [groupOf_modGroup, if_pos ⟨rfl, rfl⟩]
    exact ⟨rfl, List.mem_append_right _ (List.mem_singleton_self r)⟩
  have h3 : FrontsKept s2 s3 ∧ GroupsKept s2 s3 := ⟨frontsKept_modWarp (stopLanes_kept _ _), groupsKept_modWarp _ _ _ _⟩
  obtain ⟨hf4, hg4⟩ := haltSlots_kept f.core g.slots s3
  have h5 : RecsMoved s4 (if free.isSome = true then writeRecord s4 f.core w.group g.recs.length else logCore s4 f.core w.ctx f.cause 0 0) := by
    split
    · exact recsMoved_writeRecord _ _ _ _
    · exact recsMoved_logCore _ _ _ _ _ _
  obtain ⟨hh, hr⟩ := groupsKept_trans (groupsKept_trans h3.2 hg4) h5.2 f.core w.group
  refine ⟨frontsKept_trans (frontsKept_trans (frontsKept_trans h2.fronts h3.1) hf4) h5.1.fronts, hh.trans hg2.1, ?_⟩
  have hm : recKey r ∈ (groupOf s2 f.core w.group).recs.map recKey := List.mem_map_of_mem hg2.2
  rw [← hr] at hm
  exact List.mem_map.1 hm

/-! ### An access that fails -/

theorem front_dropWord (e : Access) (w : Warp) (l j : Nat) : (laneOf (dropWord e w l) j).front =
    if j = l then (laneOf w l).front.filter fun b => !sameWord e b else (laneOf w j).front := by
  unfold dropWord
  dsimp only
  split
  · show (laneOf (setLane w l _) j).front = _
    rw [laneOf_setLane]
    split <;> rfl
  · next h =>
    split
    · next hj =>
      rw [hj]
      exact (List.filter_eq_self.2 fun b hb => by simpa using fun hs => h (List.any_eq_true.2 ⟨b, hb, hs⟩)).symm
    · rfl

/-- What a dropped word leaves of the warp. -/
theorem dropWord_kept (e : Access) (w : Warp) (l : Nat) : let w' := dropWord e w l
    (mwf {} w.lanes = true → mwf {} w'.lanes = true) ∧ (w'.kind, w'.group, w'.ctx) = (w.kind, w.group, w.ctx) ∧
    ∀ j, (laneOf w' j).wait = (laneOf w j).wait := by
  unfold dropWord
  dsimp only
  split
  · refine ⟨mwf_setLane l _, rfl, fun j => ?_⟩
    show (laneOf (setLane w l _) j).wait = _
    rw [laneOf_setLane]
    split
    · next h => rw [h]
    · rfl
  · exact ⟨id, rfl, fun _ => rfl⟩

/-- Words dropped in some lanes: their other accesses stay, and nothing else changes. -/
theorem dropWords_kept (e : Access) (ls : List Nat) : ∀ w : Warp, let w' := ls.foldl (dropWord e) w
    (mwf {} w.lanes = true → mwf {} w'.lanes = true) ∧ (w'.kind, w'.group, w'.ctx) = (w.kind, w.group, w.ctx) ∧
    ∀ l, (laneOf w' l).wait = (laneOf w l).wait ∧
      (laneOf w' l).front = if l ∈ ls then (laneOf w l).front.filter fun b => !sameWord e b else (laneOf w l).front := by
  induction ls with
  | nil => exact fun w => ⟨id, rfl, fun l => ⟨rfl, (if_neg (List.not_mem_nil)).symm⟩⟩
  | cons k ls ih =>
    intro w
    obtain ⟨h1, h2, h3⟩ := dropWord_kept e w k
    obtain ⟨i1, i2, i3⟩ := ih (dropWord e w k)
    refine ⟨i1 ∘ h1, i2.trans h2, fun l => ⟨(i3 l).1.trans (h3 l), (i3 l).2.trans ?_⟩⟩
    rw [front_dropWord]
    by_cases hl : l = k
    · simp [hl]
    · simp [hl]

/-- Nothing that a warp's threads do waits on a page request. -/
def QuietWarp (x n : Nat) (w : Warp) : Prop := ∀ l, (∀ b ∈ (laneOf w l).front, b.wait ≠ some (x, n)) ∧
  ∀ v, (laneOf w l).wait = some v → ¬(v.sector = x ∧ v.slot = n)

theorem failingAccess_quiet {x n : Nat} {w : Warp} (h : ∀ l, ∀ b ∈ (laneOf w l).front, b.wait ≠ some (x, n)) : failingAccess x n w = none := by
  refine List.findSome?_eq_none_iff.2 fun l _ => ?_
  dsimp only
  rw [List.findIdx?_eq_none_iff.2 fun b hb => by simpa using h l b hb]
  rfl

/-- What `failingAccess` finds stands in a front, and waits. -/
theorem failingAccess_sound {x n l i : Nat} {e : Access} {w : Warp} (h : failingAccess x n w = some (l, i, e)) :
    (laneOf w l).front[i]? = some e ∧ e.wait = some (x, n) := by
  obtain ⟨j, _, hj⟩ := List.exists_of_findSome?_eq_some h
  obtain ⟨k, hk, e2⟩ := Option.map_eq_some_iff.1 hj
  obtain ⟨hlt, hw, _⟩ := List.findIdx?_eq_some_iff_getElem.1 hk
  obtain ⟨rfl, rfl, rfl⟩ : j = l ∧ k = i ∧ (laneOf w j).front.getD k { kind := .fence } = e := by simpa using e2
  rw [List.getD_eq_getElem _ _ hlt]
  exact ⟨List.getElem?_eq_getElem hlt, by simpa using hw⟩

theorem failingAccess_isSome {x n l : Nat} {w : Warp} (hl : l < 32) {b : Access} (hb : b ∈ (laneOf w l).front) (hw : b.wait = some (x, n)) :
    failingAccess x n w ≠ none := by
  intro h
  have := List.findSome?_eq_none_iff.1 h l (List.mem_range.2 hl)
  have := List.findIdx?_eq_none_iff.1 (Option.map_eq_none_iff.1 this) b hb
  simp [hw] at this

theorem failAccesses_quiet {x n c slot : Nat} {s : State} (h : failingAccess x n (warpOf s c slot) = none) :
    ∀ k, failAccesses x n c slot k s = s
  | 0 => rfl
  | k + 1 => by rw [failAccesses, h]

theorem failGroup_quiet {x n c slot : Nat} {s : State}
    (h : ∀ l v, (laneOf (warpOf s c slot) l).wait = some v → ¬(v.sector = x ∧ v.slot = n)) : failGroup x n c slot s = s := by
  unfold failGroup
  extract_lets w waits
  have hnone : waits.find? (fun e => e.2.sector == x && e.2.slot == n) = none := by
    refine List.find?_eq_none.2 fun e he => ?_
    obtain ⟨l, _, hl⟩ := List.mem_filterMap.1 he
    obtain ⟨v, hv, rfl⟩ := Option.map_eq_some_iff.1 hl
    simpa using h l v hv
  rw [hnone]

theorem failGroups_quiet {x n c slot : Nat} {s : State}
    (h : ∀ l v, (laneOf (warpOf s c slot) l).wait = some v → ¬(v.sector = x ∧ v.slot = n)) : ∀ k, failGroups x n c slot k s = s
  | 0 => rfl
  | k + 1 => by rw [failGroups, failGroup_quiet h, failGroups_quiet h k]

/-- A fold that leaves `A` as it is, but for one element, with which `B` begins. -/
theorem foldl_hit {α : Type} {A B : State → Prop} {f : State → α → State} (hA : ∀ s a, A s → A (f s a) ∨ B (f s a))
    (hB : ∀ s a, B s → B (f s a)) : ∀ (l : List α) (s : State),
    (A s ∨ B s → A (l.foldl f s) ∨ B (l.foldl f s)) ∧ (B s → B (l.foldl f s)) ∧
      ((∃ a ∈ l, ∀ t, A t → B (f t a)) → A s ∨ B s → B (l.foldl f s))
  | [], s => ⟨id, id, fun ⟨_, h, _⟩ => absurd h List.not_mem_nil⟩
  | a :: l, s => by
    obtain ⟨i1, i2, i3⟩ := foldl_hit hA hB l (f s a)
    have hs : A s ∨ B s → A (f s a) ∨ B (f s a) := fun h => h.elim (hA s a) fun h => .inr (hB s a h)
    refine ⟨i1 ∘ hs, i2 ∘ hB s a, fun ⟨b, hb, hit⟩ h => ?_⟩
    rcases List.mem_cons.1 hb with rfl | hb
    · exact i2 (h.elim (hit s) (hB s b))
    · exact i3 ⟨b, hb, hit⟩ (hs h)

/-! ### The word of the access that waited -/

/-- The word of access `e` of thread `l` of a warp has faulted: its group is halted with its record, and the thread waits for nothing. -/
structure Faulted (s : State) (c slot g l cause : Nat) (e : Access) : Prop where
  halted : (groupOf s c g).halted = true
  record : (cause, e.lanes ||| 1#32 <<< l, e.pc, true) ∈ (groupOf s c g).recs.map recKey
  lanes : mwf {} (warpOf s c slot).lanes = true
  thread : ∀ b ∈ frontOf s c slot l, b.wait = none

theorem Faulted.kept {s t : State} {c slot g l cause : Nat} {e : Access} (h : Faulted s c slot g l cause e) (ht : RecsMoved s t) :
    Faulted t c slot g l cause e where
  halted := (ht.2 c g).1.trans h.halted
  record := by rw [(ht.2 c g).2]; exact h.record
  lanes := by rw [ht.1]; exact h.lanes
  thread := by rw [frontOf_eq, ht.1]; exact h.thread

/-- What waits moves to another slot: no wait begins. -/
theorem waitAccess_none (f : Nat × Nat → Option (Nat × Nat)) (gen : Nat) {e : Access} (h : e.wait = none) : waitAccess f gen e = e := by
  rw [waitAccess, h]

theorem mwfFrom_mapDrop {α : Type} [DecidableEq α] (d : α) (g : α → α) : ∀ {m : Map α} {lo : Nat}, mwfFrom d lo m = true →
    mwfFrom d lo (mapDrop d g m) = true
  | [], _, _ => rfl
  | (k, v) :: t, lo, h => by
    simp only [mwfFrom, Bool.and_eq_true, decide_eq_true_eq] at h
    have ih := mwfFrom_mapDrop d g h.2
    rw [mapDrop] at ih ⊢
    rw [List.filterMap_cons]
    by_cases hv : g v = d
    · simp only [hv, if_true]
      exact mwfFrom_mono d ih (by omega)
    · simp only [hv, if_false, mwfFrom, Bool.and_eq_true, decide_eq_true_eq]
      exact ⟨⟨h.1.1, hv⟩, ih⟩

theorem Faulted.mapWaits {s : State} {c slot g l cause : Nat} {e : Access} (h : Faulted s c slot g l cause e) (f : Nat × Nat → Option (Nat × Nat)) :
    Faulted (mapWaits f s) c slot g l cause e where
  halted := by rw [groupOf_mapWaits]; exact h.halted
  record := by
    rw [groupOf_mapWaits, List.map_map]
    exact h.record
  lanes := by
    rw [warpOf_mapWaits, waitWarp_lanes]
    exact mwfFrom_mapDrop _ _ h.lanes
  thread := by
    rw [frontOf_mapWaits f s l h.lanes]
    intro b hb
    obtain ⟨a, ha, rfl⟩ := List.mem_map.1 hb
    rw [waitAccess_none f _ (h.thread a ha)]
    exact h.thread a ha

theorem Faulted.admitWalks {c slot g l cause : Nat} {e : Access} (x : Nat) : ∀ (k : Nat) {s : State}, Faulted s c slot g l cause e →
    Faulted (admitWalks x k s) c slot g l cause e
  | 0, _, h => h
  | k + 1, s, h => by
    rw [Machine.admitWalks]
    dsimp only
    split
    · exact h
    · refine Faulted.admitWalks x k (Faulted.mapWaits ?_ _)
      split
      · exact h.kept (recsMoved_of_cores (setWaiting_cores _ _ _))
      · exact h.kept (recsMoved_of_cores ((fillSlot_cores _ _ _ _).trans (setWaiting_cores _ _ _)))

/-- A thread is among its own word's lanes. -/
theorem mem_lanesOf_word (m : W32) {l : Nat} (h : l < 32) : l ∈ lanesOf (m ||| 1#32 <<< l) := by
  refine mem_lanesOf.2 ⟨h, ?_⟩
  rw [BitVec.getLsbD_or, BitVec.getLsbD_shiftLeft]
  simp [h]

theorem sameWord_self (e : Access) : sameWord e e = true := by
  simp [sameWord]

section Failing
variable {x n c slot l i : Nat} {e : Access} {s : State} (hw : WaitsAlone s x n c slot l i e)
include hw

/-- Only the access itself waits. -/
theorem waitsAlone_only {c' w' l' : Nat} {b : Access} (hb : b ∈ frontOf s c' w' l') (hbw : b.wait = some (x, n)) :
    c' = c ∧ w' = slot ∧ l' = l ∧ b = e := by
  obtain ⟨j, hj⟩ := List.mem_iff_getElem?.1 hb
  obtain ⟨rfl, rfl, rfl, rfl⟩ := hw.accesses c' w' l' j b hj hbw
  exact ⟨rfl, rfl, rfl, Option.some.inj (hj.symm.trans hw.access.1)⟩

/-- With its word dropped, nothing waits. -/
theorem waitsAlone_dropped (j w l' : Nat) : ∀ b ∈ frontOf (modWarp s c slot fun w => (lanesOf (e.lanes ||| 1#32 <<< l)).foldl (dropWord e) w) j w l',
    b ∈ frontOf s j w l' ∧ b.wait ≠ some (x, n) := by
  intro b hb
  rw [frontOf_eq, warpOf_modWarp] at hb
  have key : b ∈ frontOf s j w l' ∧ (j = c → w = slot → l' = l → sameWord e b = false) := by
    split at hb
    · next h =>
      obtain ⟨rfl, rfl⟩ := h
      rw [((dropWords_kept e _ _).2.2 l').2] at hb
      split at hb
      · have hb := List.mem_filter.1 hb
        exact ⟨hb.1, fun _ _ _ => by simpa using hb.2⟩
      · next hl => exact ⟨hb, fun _ _ h => absurd (mem_lanesOf_word e.lanes hw.lane.1) (h ▸ hl)⟩
    · next h => exact ⟨hb, fun h1 h2 => absurd ⟨h1, h2⟩ h⟩
  refine ⟨key.1, fun hbw => ?_⟩
  obtain ⟨h1, h2, h3, rfl⟩ := waitsAlone_only hw key.1 hbw
  exact Bool.false_ne_true ((key.2 h1 h2 h3).symm.trans (sameWord_self b))

/-- Nothing waits on the request any more once the access that waited has faulted. -/
theorem accessFault_faulted {cause : Nat} (addr : Word) (hk : (warpOf s c slot).kind ≠ .handler) :
    Faulted (accessFault s c slot l i cause addr) c slot (warpOf s c slot).group l cause e
      ∧ ∀ j w, QuietWarp x n (warpOf (accessFault s c slot l i cause addr) j w) := by
  have he : entryAt s c slot l i = some e := hw.access.1
  obtain ⟨u, hu⟩ : ∃ u, u = modWarp s c slot fun w => (lanesOf (e.lanes ||| 1#32 <<< l)).foldl (dropWord e) w := ⟨_, rfl⟩
  obtain ⟨hm, hkeep, hlanes⟩ := dropWords_kept e (lanesOf (e.lanes ||| 1#32 <<< l)) (warpOf s c slot)
  have huw : warpOf u c slot = (lanesOf (e.lanes ||| 1#32 <<< l)).foldl (dropWord e) (warpOf s c slot) := by
    rw [hu, warpOf_modWarp, if_pos ⟨rfl, rfl⟩]
  obtain ⟨hkind, hgroup⟩ : (warpOf u c slot).kind = (warpOf s c slot).kind ∧ (warpOf u c slot).group = (warpOf s c slot).group := by
    rw [huw]
    exact ⟨congrArg (·.1) hkeep, congrArg (·.2.1) hkeep⟩
  obtain ⟨hf, hh, r, hr, hrk⟩ := raiseFault_kept (s := u) (f := {
      cause := cause, addr := addr, core := c, slot := slot, lanes := e.lanes ||| (1#32 <<< l), pc := e.pc,
      words := e.words, widx := e.widx, word := e.word, rep := some e.rep, reps := e.reps, byAccess := true }) (by rw [hkind]; exact hk)
  have hdrop := fun j w l' => hu ▸ waitsAlone_dropped hw j w l'
  have hwait : ∀ j w l', (laneOf (warpOf u j w) l').wait = (laneOf (warpOf s j w) l').wait := by
    intro j w l'
    rw [hu, warpOf_modWarp]
    split
    · next h => rw [h.1, h.2]; exact (hlanes l').1
    · rfl
  rw [accessFault, he]
  dsimp only
  rw [← hu]
  refine ⟨⟨by rw [← hgroup]; exact hh, by rw [← hgroup, ← hrk]; exact List.mem_map_of_mem hr, (hf c slot).1 (by rw [huw]; exact hm hw.lane.2), ?_⟩, ?_⟩
  · rw [((hf c slot).2 l).1]
    intro b hb
    obtain ⟨hb, hbw⟩ := hdrop c slot l b hb
    exact (hw.thread b hb).resolve_right hbw
  · intro j w l'
    refine ⟨fun b hb => ?_, fun v hv => ?_⟩
    · rw [← frontOf_eq, ((hf j w).2 l').1] at hb
      exact (hdrop j w l' b hb).2
    · rw [((hf j w).2 l').2, hwait] at hv
      exact hw.groups j w l' v hv

/-- The access fails: TRANSLATION, or HANDLE_WORLD for a VOPEN (23 R406, log 54). -/
theorem failAccess_faulted (hq : e.kind ≠ .query) (hk : (warpOf s c slot).kind ≠ .handler) :
    Faulted (failAccess c slot l i e s) c slot (warpOf s c slot).group l (if e.kind = .vopen then 0x10 else 0x06) e
      ∧ ∀ j w, QuietWarp x n (warpOf (failAccess c slot l i e s) j w) := by
  unfold failAccess
  split
  · next h => rw [if_pos h]; exact accessFault_faulted hw 0 hk
  · next h => exact absurd h hq
  · next h _ => rw [if_neg h]; exact accessFault_faulted hw e.va hk

omit hw in
theorem waitsAlone_of_warps {t : State} (hw : WaitsAlone s x n c slot l i e) (h : WarpsKept s t) : WaitsAlone t x n c slot l i e where
  lane := by rw [h]; exact hw.lane
  access := by rw [frontOf_eq, h]; exact hw.access
  accesses c' w' l' i' e' := by rw [frontOf_eq, h]; exact hw.accesses c' w' l' i' e'
  thread := by rw [frontOf_eq, h]; exact hw.thread
  groups c' w' l' v := by rw [h]; exact hw.groups c' w' l' v

/-- Only its warp has an access that fails. -/
theorem failingAccess_alone (j w : Nat) : failingAccess x n (warpOf s j w) = if j = c ∧ w = slot then some (l, i, e) else none := by
  split
  · next h =>
    obtain ⟨rfl, rfl⟩ := h
    cases hfa : failingAccess x n (warpOf s j w) with
    | none => exact absurd hfa (failingAccess_isSome hw.lane.1 (List.mem_of_getElem? hw.access.1) hw.access.2)
    | some r =>
      obtain ⟨l', i', e'⟩ := r
      obtain ⟨hat, hwt⟩ := failingAccess_sound hfa
      obtain ⟨-, -, rfl, rfl⟩ := hw.accesses _ _ _ _ _ hat hwt
      rw [Option.some.inj (hat.symm.trans hw.access.1)]
  · next h =>
    refine failingAccess_quiet fun l' b hb hbw => h ?_
    obtain ⟨h1, h2, -⟩ := waitsAlone_only hw hb hbw
    exact ⟨h1, h2⟩

end Failing

/-- What a table does not hold at its default stands in its list. -/
theorem mem_of_mget_ne {α : Type} (d : α) : ∀ {m : Map α} {i : Nat}, mget d m i ≠ d → (i, mget d m i) ∈ m
  | [], _, h => absurd rfl h
  | (k, v) :: t, i, h => by
    rw [mget] at h ⊢
    split
    · next hk => rw [hk]; exact List.mem_cons_self
    · next hk =>
      rw [if_neg hk] at h
      exact List.mem_cons_of_mem _ (mem_of_mget_ne d h)

/-- One core's warps fail what waits on a request. -/
def failWarps (x n c : Nat) (s : State) (w : Nat × Warp) : State := failGroups x n c w.1 32 (failAccesses x n c w.1 1024 s)

/-- One core fails what waits on a request. -/
def failCore (x n : Nat) (s : State) (e : Nat × Core) : State :=
  modCore (failRecords x n e.1 (e.2.warps.foldl (failWarps x n e.1) s)) e.1 fun k => { k with
    beams := k.beams.map fun q => if (q.wait == some (x, n)) = true then { q with wait := none, failed := q.stuck :: q.failed } else q,
    unitFail := k.unitFail ++ (k.unitWait.filter fun u => u.2 == (x, n)).map (·.1),
    unitWait := k.unitWait.filter fun u => u.2 != (x, n) }

theorem failWaits_cores (x n : Nat) (s : State) : (failWaits x n s).cores = (s.cores.foldl (failCore x n) s).cores := rfl

/-- What a core's part of the failure changes after its warps': records and engines. -/
theorem recsMoved_failCore (x n : Nat) (e : Nat × Core) (s : State) : RecsMoved (e.2.warps.foldl (failWarps x n e.1) s) (failCore x n s e) := by
  refine recsMoved_trans (recsMoved_failRecords x n e.1 _) ⟨fun c w => ?_, fun c g => ?_⟩
  · rw [failCore, warpOf, coreOf_modCore]
    split
    · next h => rw [h]; rfl
    · rfl
  · rw [failCore, groupOf, coreOf_modCore]
    split
    · next h => rw [h]; exact ⟨rfl, rfl⟩
    · exact ⟨rfl, rfl⟩

section Failing
variable {x n c slot l i : Nat} {e : Access} {s₀ : State}

/-- The word of the access has faulted, and nothing else waits. -/
def Failed (x n c slot g l cause : Nat) (e : Access) (s : State) : Prop := Faulted s c slot g l cause e ∧ ∀ j w, QuietWarp x n (warpOf s j w)

theorem failed_kept {g cause : Nat} {s t : State} (h : Failed x n c slot g l cause e s) (ht : RecsMoved s t) : Failed x n c slot g l cause e t :=
  ⟨h.1.kept ht, fun j w => by rw [ht.1]; exact h.2 j w⟩

theorem failWarps_quiet {s : State} (h : ∀ j w, QuietWarp x n (warpOf s j w)) (j : Nat) (w : Nat × Warp) : failWarps x n j s w = s := by
  have ha := failAccesses_quiet (c := j) (slot := w.1) (failingAccess_quiet fun l => (h j w.1 l).1) 1024
  rw [failWarps, ha]
  exact failGroups_quiet (fun l => (h j w.1 l).2) 32

variable (hw : WaitsAlone s₀ x n c slot l i e) (hq : e.kind ≠ .query) (hk : (warpOf s₀ c slot).kind ≠ .handler)
include hw

theorem failWarps_other {s : State} (h : WarpsKept s₀ s) {j : Nat} {w : Nat × Warp} (hne : ¬(j = c ∧ w.1 = slot)) : failWarps x n j s w = s := by
  have hs := waitsAlone_of_warps hw h
  have ha := failAccesses_quiet (c := j) (slot := w.1) (s := s) (by rw [failingAccess_alone hs, if_neg hne]) 1024
  rw [failWarps, ha]
  exact failGroups_quiet (fun l => hs.groups j w.1 l) 32

include hq hk

theorem failWarps_own {s : State} (h : WarpsKept s₀ s) {w : Nat × Warp} (hs : w.1 = slot) :
    Failed x n c slot (warpOf s₀ c slot).group l (if e.kind = .vopen then 0x10 else 0x06) e (failWarps x n c s w) := by
  have hws := waitsAlone_of_warps hw h
  have hf := failAccess_faulted hws hq (by rw [h]; exact hk)
  have ha : failAccesses x n c w.1 1024 s = failAccess c slot l i e s := by
    rw [failAccesses, failingAccess_alone hws, if_pos ⟨rfl, hs⟩]
    dsimp only
    rw [hs]
    exact failAccesses_quiet (failingAccess_quiet fun l => (hf.2 c slot l).1) _
  have hg : failWarps x n c s w = failAccess c slot l i e s := by
    rw [failWarps, ha]
    exact failGroups_quiet (fun l => (hf.2 c w.1 l).2) 32
  rw [hg, ← h]
  exact hf

/-- The failure of a request on which one access waits. -/
theorem failWaits_faulted : Faulted (failWaits x n s₀) c slot (warpOf s₀ c slot).group l (if e.kind = .vopen then 0x10 else 0x06) e := by
  have hwarp : mget {} (coreOf s₀ c).warps slot ≠ {} := fun h0 => by
    have hm := List.mem_of_getElem? hw.access.1
    rw [frontOf_eq, warpOf, h0] at hm
    exact List.not_mem_nil hm
  have hcore : mget {} s₀.cores c ≠ {} := fun h0 => by
    rw [coreOf, h0] at hwarp
    exact hwarp rfl
  have hin (j : Nat) (ws : List (Nat × Warp)) (s : State) := foldl_hit (A := WarpsKept s₀)
    (B := Failed x n c slot (warpOf s₀ c slot).group l (if e.kind = .vopen then 0x10 else 0x06) e) (f := failWarps x n j)
    (fun s w h => by
      by_cases he : j = c ∧ w.1 = slot
      · rw [he.1]; exact .inr (failWarps_own hw hq hk h he.2)
      · rw [failWarps_other hw h he]; exact .inl h)
    (fun s w h => by rw [failWarps_quiet h.2]; exact h) ws s
  have hout := foldl_hit (A := WarpsKept s₀)
    (B := Failed x n c slot (warpOf s₀ c slot).group l (if e.kind = .vopen then 0x10 else 0x06) e) (f := failCore x n)
    (fun s k h => ((hin k.1 k.2.warps s).1 (.inl h)).imp
      (fun h' j w => ((recsMoved_failCore x n k s).1 j w).trans (h' j w)) fun h' => failed_kept h' (recsMoved_failCore x n k s))
    (fun s k h => failed_kept ((hin k.1 k.2.warps s).2.1 h) (recsMoved_failCore x n k s)) s₀.cores s₀
  have hB := hout.2.2 ⟨(c, coreOf s₀ c), mem_of_mget_ne _ hcore, fun t ht => failed_kept
    ((hin c (coreOf s₀ c).warps t).2.2 ⟨(slot, warpOf s₀ c slot), mem_of_mget_ne _ hwarp, fun u hu => failWarps_own hw hq hk hu rfl⟩ (.inl ht))
    (recsMoved_failCore x n (c, coreOf s₀ c) t)⟩ (.inl fun _ _ => rfl)
  exact hB.1.kept (recsMoved_of_cores (failWaits_cores x n s₀))

end Failing

theorem exec_pageRequestFail {x n c slot l i : Nat} {e : Access} {s : State} (hp : ∃ r, (n, r) ∈ (sectorOf s x).posted)
    (hw : WaitsAlone s x n c slot l i e) (hq : e.kind ≠ .query) (hk : (warpOf s c slot).kind ≠ .handler) :
    ∃ t, exec (.pageRequestFail x n) s = .next t ∧ (groupOf t c (warpOf s c slot).group).halted = true
      ∧ (∃ r ∈ (groupOf t c (warpOf s c slot).group).recs, r.cause = (if e.kind = .vopen then 0x10 else 0x06) ∧
          r.lanes = e.lanes ||| 1#32 <<< l ∧ r.pc = e.pc ∧ r.byAccess = true)
      ∧ ∀ b ∈ frontOf t c slot l, b.wait ≠ some (x, n) := by
  have hstep : pageFail x n s = some (freePage (failWaits x n s) x n true) := by rw [pageFail, if_pos (isPosted_iff.2 hp)]
  have hf : Faulted (freePage (failWaits x n s) x n true) c slot (warpOf s c slot).group l (if e.kind = .vopen then 0x10 else 0x06) e := by
    rw [freePage_answered]
    exact ((failWaits_faulted hw hq hk).kept (recsMoved_of_cores (answerPage_cores x n _))).admitWalks x _
  obtain ⟨r, hr, hkey⟩ := List.mem_map.1 hf.record
  obtain ⟨h1, h2, h3, h4⟩ : r.cause = _ ∧ r.lanes = _ ∧ r.pc = _ ∧ r.byAccess = _ := by simpa [recKey] using hkey
  exact ⟨_, congrArg (fun o : Option State => Host.Outcome.next (o.getD s)) hstep, hf.halted, ⟨r, hr, h1, h2, h3, h4⟩,
    fun b hb => by rw [hf.thread b hb]; exact nofun⟩

/-- Settles O56: each step of memory by the lemma of its instruction. -/
theorem memorySteps : Obligations.MemorySteps :=
  ⟨fun _ _ _ _ _ _ _ _ _ h hk hx hp => exec_storeDrain h hk hx hp,
    fun _ _ _ _ _ _ _ _ h hk hc hr _ _ => exec_loadPerform h hk hc hr,
    fun _ _ _ _ _ _ _ _ _ h hk hp _ ha => exec_atomicPerform h hk hp ha,
    fun _ _ _ _ _ _ ho hd hne h hc hkey => exec_causalDelivery ho hd hne h hc hkey,
    fun _ _ _ _ _ _ _ hi he hb hst hv => exec_fenceComplete hi he hb hst hv,
    fun _ _ _ _ _ _ _ _ _ hg hi he hsink ht => exec_generationRejectReplay hg hi he hsink ht,
    fun _ _ hb => exec_asgenBumpComplete hb,
    fun _ _ _ hx hn hp hw => exec_pageRequestRetry hx hn hp hw,
    fun _ _ _ _ _ _ _ _ _ _ hp hw _ hq hk => exec_pageRequestFail hp hw hq hk,
    fun _ _ h => exec_pageScrub h⟩

end Sys2Proof.Machine
end

section
/-! SUPPORT. Handlers, the watchdog, soft errors and health, retraining, time, display frames, attestation and boot (22 R388, R392-R400,
23 R409, R415, R417, 04 R91, 21 R377-R380): O60. -/

namespace Sys2Proof.Machine

/-! ### Handlers start (22 R394) -/

/-- What a list's elements leave in a table, each at its place. -/
theorem mget_foldl_zipIdx {α : Type} [DecidableEq α] (d : α) (j : Nat) : ∀ (ls : List α) (k : Nat) (m : Map α),
    mget d ((ls.zipIdx k).foldl (fun m e => mput d m e.2 e.1) m) j = if k ≤ j ∧ j < k + ls.length then ls.getD (j - k) d else mget d m j
  | [], k, m => (if_neg (by simp)).symm
  | a :: ls, k, m => by
    rw [List.zipIdx_cons, List.foldl_cons, mget_foldl_zipIdx d j ls (k + 1), mget_mput]
    by_cases hj : j = k
    · rw [if_neg (by omega), if_pos hj, if_pos (by simp; omega), hj, Nat.sub_self]
      rfl
    · rw [if_neg hj, List.length_cons]
      by_cases hr : k + 1 ≤ j ∧ j < k + 1 + ls.length
      · rw [if_pos hr, if_pos (by omega), show j - k = j - (k + 1) + 1 by omega, List.getD_cons_succ]
      · rw [if_neg hr, if_neg (by omega)]

theorem runs32_short {α : Type} {l : List α} (hne : l ≠ []) (h : l.length ≤ 32) : runs32 l.length l = [l] := by
  obtain ⟨n, hn⟩ := Nat.exists_eq_succ_of_ne_zero (fun h0 => hne (List.length_eq_zero_iff.1 h0))
  rw [hn, runs32, List.isEmpty_eq_false_iff.2 hne, List.take_of_length_le h, List.drop_of_length_le h]
  cases n <;> rfl

/-- A fold that keeps the greater ends with the greatest. -/
theorem le_foldl_best (count : Nat → Nat) : ∀ (l : List Nat) (b : Nat),
    (∀ q ∈ b :: l, count q ≤ count (l.foldl (fun b q => if count b < count q then q else b) b))
  | [], b => fun q hq => by rw [List.mem_singleton.1 hq]; exact le_refl _
  | a :: l, b => fun q hq => by
    have ih := le_foldl_best count l (if count b < count a then a else b)
    have h0 := ih _ List.mem_cons_self
    rw [List.foldl_cons]
    rcases List.mem_cons.1 hq with rfl | hq
    · exact le_trans (by split <;> omega) h0
    · rcases List.mem_cons.1 hq with rfl | hq
      · exact le_trans (by split <;> omega) h0
      · exact ih q (List.mem_cons_of_mem _ hq)

/-- A core with a free slot has one for its next warp, which is free (03 R54). -/
theorem pickSlot_free {k : Core} (h : freeSlots k ≠ []) : ∃ i, pickSlot k = some i ∧ i ∈ freeSlots k := by
  obtain ⟨i, hi⟩ := List.exists_mem_of_ne_nil _ h
  have hi64 : i < 64 := List.mem_range.1 (List.mem_filter.1 hi).1
  have hcount (q : Nat) : 0 < ((freeSlots k).filter fun j => j / 16 == q).length ↔ ∃ j ∈ freeSlots k, j / 16 = q := by
    simp [List.length_pos_iff_exists_mem]
  unfold pickSlot
  extract_lets free count best
  have hmax : count (i / 16) ≤ count best := le_foldl_best count _ 0 _ (List.mem_cons_of_mem _ (List.mem_range.2 (by omega)))
  obtain ⟨j, hj, hq⟩ := (hcount best).1 (lt_of_lt_of_le ((hcount (i / 16)).2 ⟨i, hi, rfl⟩) hmax)
  have hs : (free.find? fun i => i / 16 == best).isSome = true := List.find?_isSome.2 ⟨j, hj, by simpa using hq⟩
  obtain ⟨a, ha⟩ := Option.isSome_iff_exists.1 hs
  exact ⟨a, ha, List.mem_of_find?_eq_some ha⟩

/-- A handler thread starts at its entry, with the record, the cause and the group in x1 to x3. -/
theorem handlerLane_thread (entry group : Nat) (r : FaultRec) : HandlerThread (handlerLane entry group r) entry group r := by
  have hg (n : Nat) : getX (handlerLane entry group r) n = if n = 3 then .ofNat 64 group else if n = 2 then .ofNat 64 r.cause
      else if n = 1 then .ofNat 64 r.addr else 0 := by
    have h0 : getX ({ pc := entry, st := .ready, trapRec := .ofNat 64 r.addr } : Lane) n = 0 := ite_self _
    simp only [handlerLane, getX_setX, h0, ne_eq, OfNat.ofNat_ne_zero, one_ne_zero, not_false_eq_true, and_true]
  refine ⟨rfl, rfl, rfl, ?_, ?_, ?_, fun n hn => ?_⟩
  · rw [hg]; rfl
  · rw [hg]; rfl
  · rw [hg]; rfl
  · simp only [List.mem_cons, List.not_mem_nil, or_false, not_or] at hn
    rw [hg, if_neg hn.2.2, if_neg hn.2.1, if_neg hn.1]

/-- The slot in which a handler starts. -/
def handlerSlot (s : State) (c : Nat) : Nat := (pickSlot (coreOf s c)).getD 0

/-- A handler warp's state as it starts. -/
theorem warpOf_startHandler (c g n : Nat) (ls : List Lane) (s : State) :
    let w := warpOf (startHandler c g n ls s) c (handlerSlot s c)
    w.st = .loading ∧ w.kind = .handler ∧ w.ctx = (groupOf s c g).ctx ∧ w.regsN = n ∧ ∀ j, laneOf w j = ls.getD j {} := by
  unfold startHandler handlerSlot
  dsimp only
  rw [warpOf, coreOf_modCore, if_pos rfl]
  dsimp only
  rw [mget_mput_self]
  refine ⟨rfl, rfl, rfl, rfl, fun j => ?_⟩
  rw [laneOf]
  refine (mget_foldl_zipIdx ({} : Lane) j ls 0 []).trans ?_
  split
  · rfl
  · next h => exact (List.getD_eq_default _ _ (by omega)).symm

theorem warpOf_startHandler_ne {c g n : Nat} {ls : List Lane} {s : State} {j : Nat} (h : j ≠ handlerSlot s c) :
    warpOf (startHandler c g n ls s) c j = warpOf s c j := by
  unfold startHandler
  dsimp only
  rw [warpOf, coreOf_modCore, if_pos rfl]
  dsimp only
  exact mget_mput_ne _ _ _ _ _ h

/-! ### HANDLER_DISPATCH -/

theorem keepsCores_vreadN (w : Who) (va n : Nat) : KeepsCores (vreadN w va n) :=
  keepsCores_bind (keepsCores_vread w va n) fun _ => keepsCores_pure _

/-- Records that have been written, and wait on nothing, leave the dispatch to the rest. -/
theorem records_written {k : Group} (h : ∀ r ∈ k.recs, r.wait = none ∧ r.written = true) : k.recs.any (·.wait.isSome) = false ∧
    (List.range k.recs.length).find? (fun i => !(k.recs.getD i {}).written) = none := by
  refine ⟨List.any_eq_false.2 fun r hr => by rw [(h r hr).1]; exact Bool.false_ne_true, List.find?_eq_none.2 fun i hi => ?_⟩
  have hi := List.mem_range.1 hi
  rw [List.getD_eq_getElem _ _ hi, (h _ (List.getElem_mem hi)).2]
  exact Bool.false_ne_true

/-- The halt table of a group whose records are written comes first (22 R392). -/
theorem exec_handlerDispatch_table {c g : Nat} {s u : State} (hh : (groupOf s c g).halted = true)
    (hstop : groupHalted s c (groupOf s c g) = true) (hin : (ctxOf s (groupOf s c g).ctx).in_ = true)
    (hw : ∀ r ∈ (groupOf s c g).recs, r.wait = none ∧ r.written = true) (htab : (groupOf s c g).tabDue = true)
    (ht : writeTable ⟨c, (groupOf s c g).ctx, 0⟩ g s = .ok () u) :
    exec (.handlerDispatch c g) s = .next (modGroup u c g fun k => { k with tabDue := false }) := by
  obtain ⟨hrec, hwr⟩ := records_written hw
  have hstep : dispatchHandlers c g s = some (modGroup u c g fun k => { k with tabDue := false }) := by
    unfold dispatchHandlers
    dsimp only
    rw [if_neg (by simp [hh, hstop, hin, hrec]), hwr]
    dsimp only
    rw [if_pos htab, ht]
  exact congrArg (fun o : Option State => Host.Outcome.next (o.getD s)) hstep

section Dispatch
variable {c g t : Nat} {k : Group} {s v : State}

/-- A group that may dispatch has its trap table read, and its records looked at. -/
theorem exec_handlerDispatch (h : MayDispatch s c g k t v) : exec (.handlerDispatch c g) s = .next ((startHandlers c g t v).getD s) ∧
    groupOf v c g = k := by
  obtain ⟨⟨rfl, hh, hne⟩, ⟨hstop, hin⟩, ⟨hw, htab⟩, ht⟩ := h
  obtain ⟨hrec, hwr⟩ := records_written hw
  have hstep : dispatchHandlers c g s = startHandlers c g t v := by
    unfold dispatchHandlers
    dsimp only
    rw [if_neg (by simp [hh, hstop, hin, hrec]), hwr]
    dsimp only
    rw [if_neg (by simp [htab]), if_neg (by simp [hne])]
    unfold trapBase
    rw [ht]
  exact ⟨congrArg (fun o : Option State => Host.Outcome.next (o.getD s)) hstep, ((keepsCores_vreadN _ _ _).ok ht).groupOf c g⟩

/-- Records without an entry go to the host. -/
theorem handlerDispatch_none (h : MayDispatch s c g k t v) (hn : ∀ i ∈ openRecs k, trapEntry t (k.recs.getD i {}).cause = none) :
    exec (.handlerDispatch c g) s = .next ((openRecs k).foldl (fun s i => toHost s c g i) v) := by
  obtain ⟨he, hk⟩ := exec_handlerDispatch h
  have hp : (openRecs k).partition (fun i => (trapEntry t (k.recs.getD i {}).cause).isSome) = ([], openRecs k) := by
    rw [List.partition_eq_filter_filter, List.filter_eq_nil_iff.2 fun i hi => by rw [hn i hi]; exact Bool.false_ne_true,
      List.filter_eq_self.2 fun i hi => by rw [Function.comp_apply, hn i hi]; rfl]
  have hs : startHandlers c g t v = some ((openRecs k).foldl (fun s i => toHost s c g i) v) := by
    unfold startHandlers
    rw [hk]
    dsimp only
    rw [hp]
    rfl
  rw [he, hs]
  rfl

/-- Records that all have an entry go to one handler, if it has room. -/
theorem startHandlers_all (h : MayDispatch s c g k t v) (hall : ∀ i ∈ openRecs k, (trapEntry t (k.recs.getD i {}).cause).isSome = true)
    (h32 : (openRecs k).length ≤ 32) : startHandlers c g t v =
    if (freeSlots (coreOf v c)).length < 1 ∨ 4096 < regsUsed (coreOf v c) + fld t 473 464 then
      if k.waitSince.isSome then none else some (modGroup v c g fun k => { k with waitSince := some v.clk })
    else some (modGroup (startHandler c g (fld t 473 464) ((openRecs k).map fun i =>
        handlerLane ((trapEntry t (k.recs.getD i {}).cause).getD 0) (if g < 64 then k.index else 0xFFFFFFFF) (k.recs.getD i {})) (deliverAll v)) c g
      fun x => { x with
        waitSince := none, tab := none,
        recs := x.recs.zipIdx.map fun e => if (openRecs k).contains e.2 then { e.1 with given := true } else e.1 }) := by
  have hk := (exec_handlerDispatch h).2
  have hne : openRecs k ≠ [] := h.is.2.2
  have hp : (openRecs k).partition (fun i => (trapEntry t (k.recs.getD i {}).cause).isSome) = (openRecs k, []) := by
    rw [List.partition_eq_filter_filter, List.filter_eq_self.2 hall, List.filter_eq_nil_iff.2 fun i hi => by rw [Function.comp_apply, hall i hi]; exact Bool.false_ne_true]
  unfold startHandlers
  rw [hk]
  dsimp only
  rw [hp]
  dsimp only
  rw [List.isEmpty_eq_false_iff.2 hne, if_neg Bool.false_ne_true, runs32_short hne h32]
  simp only [List.length_singleton, one_mul, List.foldl_nil, List.isEmpty_nil, if_true, List.foldl_cons]
  exact if_congr (by simp) rfl rfl

/-- Without a free slot the records wait. -/
theorem handlerDispatch_full (h : MayDispatch s c g k t v) (hall : ∀ i ∈ openRecs k, (trapEntry t (k.recs.getD i {}).cause).isSome = true)
    (h32 : (openRecs k).length ≤ 32) (hfull : freeSlots (coreOf v c) = []) (hw : k.waitSince = none) :
    exec (.handlerDispatch c g) s = .next (modGroup v c g fun k => { k with waitSince := some v.clk }) := by
  rw [(exec_handlerDispatch h).1, startHandlers_all h hall h32, if_pos (by simp [hfull]), hw, if_neg (by simp)]
  rfl

/-- With room, a handler warp starts, a thread for each record. -/
theorem handlerDispatch_starts (h : MayDispatch s c g k t v) (hall : ∀ i ∈ openRecs k, (trapEntry t (k.recs.getD i {}).cause).isSome = true)
    (h32 : (openRecs k).length ≤ 32) (hfree : freeSlots (coreOf v c) ≠ []) (hregs : regsUsed (coreOf v c) + fld t 473 464 ≤ 4096) :
    ∃ u slot, exec (.handlerDispatch c g) s = .next u ∧ (warpOf v c slot).st = .free
        ∧ (warpOf u c slot).st = .loading ∧ (warpOf u c slot).kind = .handler ∧ (warpOf u c slot).ctx = (groupOf v c g).ctx
        ∧ (warpOf u c slot).regsN = fld t 473 464
        ∧ (∀ j i, (openRecs k)[j]? = some i → HandlerThread (laneOf (warpOf u c slot) j)
            ((trapEntry t (k.recs.getD i {}).cause).getD 0) (if g < 64 then k.index else 0xFFFFFFFF) (k.recs.getD i {}))
        ∧ (∀ j, (openRecs k).length ≤ j → (laneOf (warpOf u c slot) j).st = ({} : Lane).st)
        ∧ ∀ j, j ≠ slot → warpOf u c j = warpOf v c j := by
  obtain ⟨slot, hpick, hmem⟩ := pickSlot_free hfree
  have hd := onlyTlb_of_cores (deliverAll_cores v)
  have hslot : handlerSlot (deliverAll v) c = slot := by rw [handlerSlot, coreOf, deliverAll_cores, ← coreOf, hpick]; rfl
  have hs := startHandlers_all h hall h32
  rw [if_neg (by have := List.length_pos_iff.2 hfree; omega)] at hs
  obtain ⟨h1, h2, h3, h4, h5⟩ := warpOf_startHandler c g (fld t 473 464) ((openRecs k).map fun i =>
    handlerLane ((trapEntry t (k.recs.getD i {}).cause).getD 0) (if g < 64 then k.index else 0xFFFFFFFF) (k.recs.getD i {})) (deliverAll v)
  rw [hslot] at h1 h2 h3 h4 h5
  have he := (exec_handlerDispatch h).1
  rw [hs, Option.getD_some] at he
  refine ⟨_, slot, he, (beq_iff_eq.1 (List.mem_filter.1 hmem).2 : (warpOf v c slot).st = .free), ?_⟩
  simp only [warpOf_modGroup]
  refine ⟨h1, h2, by rw [h3, hd.groupOf], h4, fun j i hj => ?_, fun j hj => ?_, fun j hj => ?_⟩
  · have hlane := h5 j
    rw [List.getD_eq_getElem?_getD, List.getElem?_map, hj] at hlane
    rw [hlane]
    exact handlerLane_thread _ _ _
  · rw [h5, List.getD_eq_default _ _ (by rw [List.length_map]; exact hj)]
  · rw [warpOf_startHandler_ne (by rw [hslot]; exact hj), hd.warpOf]

end Dispatch

/-- 10 µs without room send the records to the host (22 R394). -/
theorem exec_handlerResourceTimeout {c g since : Nat} {s : State} (h : (groupOf s c g).waitSince = some since) (ht : since + 14000 ≤ s.clk) :
    exec (.handlerResourceTimeout c g) s = .next
      (modGroup ((openRecs (groupOf s c g)).foldl (fun s i => toHost s c g i) s) c g fun k => { k with waitSince := none }) := by
  have hstep : handlerTimeout c g s =
      some (modGroup ((openRecs (groupOf s c g)).foldl (fun s i => toHost s c g i) s) c g fun k => { k with waitSince := none }) := by
    unfold handlerTimeout
    dsimp only
    rw [h]
    exact if_neg (by omega)
  exact congrArg (fun o : Option State => Host.Outcome.next (o.getD s)) hstep

/-! ### A fault is taken (22 R389-R392) -/

/-- What the writing of a record may change of it. -/
def Settles (f : FaultRec → FaultRec) : Prop := ∀ r, (f r).cause = r.cause ∧ (f r).slot = r.slot ∧ (f r).lanes = r.lanes ∧ (f r).pc = r.pc ∧
  (f r).words = r.words ∧ (f r).given = r.given ∧ ((f r).state = r.state ∨ (f r).state = 4)

theorem recs_put (s : State) (c g i : Nat) (f : FaultRec → FaultRec) :
    (groupOf (modGroup s c g fun k => { k with recs := k.recs.modify i f }) c g).recs = (groupOf s c g).recs.modify i f := by
  rw [groupOf_modGroup, if_pos ⟨rfl, rfl⟩]

/-- Writing a record changes that record alone. -/
theorem recs_writeRecord (s : State) (c g i : Nat) : ∃ f, Settles f ∧ (groupOf (writeRecord s c g i) c g).recs = (groupOf s c g).recs.modify i f := by
  unfold writeRecord
  dsimp only
  split
  · exact ⟨id, fun _ => ⟨rfl, rfl, rfl, rfl, rfl, rfl, .inl rfl⟩, (List.modify_id _ _).symm⟩
  · split
    · next u h =>
      refine ⟨fun r => { r with written := true, wait := none }, fun _ => ⟨rfl, rfl, rfl, rfl, rfl, rfl, .inl rfl⟩, ?_⟩
      rw [recs_put, ((keepsCores_vwrite _ _ _).ok h).groupOf]
    · next x q _ u h =>
      refine ⟨fun r => { r with written := false, wait := some (x, (postPage u x q).1), held := 0 }, fun _ => ⟨rfl, rfl, rfl, rfl, rfl, rfl, .inl rfl⟩, ?_⟩
      rw [recs_put, (onlyTlb_of_cores (postPage_cores u x q)).groupOf, ((keepsCores_vwrite _ _ _).error h).groupOf]
    · next u h =>
      split
      · refine ⟨fun r => { r with addr := 0, state := 4, written := true, wait := none }, fun _ => ⟨rfl, rfl, rfl, rfl, rfl, rfl, .inr rfl⟩, ?_⟩
        rw [recs_put, (onlyTlb_of_cores (logCore_cores _ _ _ _ _ _)).groupOf, ((keepsCores_vwrite _ _ _).error h).groupOf]
      · refine ⟨fun r => { r with written := true, wait := none }, fun _ => ⟨rfl, rfl, rfl, rfl, rfl, rfl, .inl rfl⟩, ?_⟩
        rw [recs_put, ((keepsCores_vwrite _ _ _).error h).groupOf]

theorem modify_concat {α : Type} (f : α → α) : ∀ (l : List α) (a : α), (l ++ [a]).modify l.length f = l ++ [f a]
  | [], _ => rfl
  | b :: l, a => congrArg (b :: ·) (modify_concat f l a)

theorem haltWarp_st (n : Nat) (w : Warp) : (haltWarp n w).st = w.st := by
  unfold haltWarp
  split
  case h_5 => rfl
  all_goals split <;> rfl

theorem haltWarp_halting (n : Nat) (w : Warp) (h : w.st ∈ [WarpSt.ready, .current, .parked, .loading] ∨ w.halting = true) :
    (haltWarp n w).halting = true := by
  unfold haltWarp
  split
  case h_5 h1 h2 h3 h4 =>
    refine h.resolve_left fun hm => ?_
    simp only [List.mem_cons, List.not_mem_nil, or_false] at hm
    rcases hm with e | e | e | e
    · exact h1 e
    · exact h2 e
    · exact h3 e
    · exact h4 e
  all_goals
    split
    · assumption
    · rfl

/-- What a group's skid changes: its warps that could go on halt, and no other. -/
theorem haltSlots_warps (c : Nat) (slots : List Nat) : ∀ (s : State) (j w : Nat), let t := haltSlots c slots s
    (warpOf t j w).lanes = (warpOf s j w).lanes ∧ (warpOf t j w).st = (warpOf s j w).st ∧
    (¬(j = c ∧ w ∈ slots) → warpOf t j w = warpOf s j w) ∧
    ((warpOf s j w).halting = true ∨ j = c ∧ w ∈ slots ∧ (warpOf s j w).st ∈ [WarpSt.ready, .current, .parked, .loading] →
      (warpOf t j w).halting = true) := by
  induction slots with
  | nil => exact fun s j w => ⟨rfl, rfl, fun _ => rfl, fun h => h.resolve_right fun h => List.not_mem_nil h.2.1⟩
  | cons sl slots ih =>
    intro s j w
    obtain ⟨u, hu⟩ : ∃ u, u = modWarp { s with choice := s.choice + 1 } c sl (haltWarp (Config.skid s.choice % 9)) := ⟨_, rfl⟩
    have hw : warpOf u j w = if j = c ∧ w = sl then haltWarp (Config.skid s.choice % 9) (warpOf s c sl) else warpOf s j w := by
      rw [hu, warpOf_modWarp]
      rfl
    obtain ⟨i1, i2, i3, i4⟩ := ih u j w
    rw [haltSlots, List.foldl_cons, ← hu, ← haltSlots]
    by_cases he : j = c ∧ w = sl
    · obtain ⟨rfl, rfl⟩ := he
      rw [if_pos ⟨rfl, rfl⟩] at hw
      rw [hw] at i1 i2 i3 i4
      refine ⟨i1.trans (haltWarp_lanes _ _), i2.trans (haltWarp_st _ _), fun h => absurd ⟨rfl, List.mem_cons_self⟩ h, fun h => ?_⟩
      exact i4 (.inl (haltWarp_halting _ _ (h.symm.imp (·.2.2) id)))
    · rw [if_neg he] at hw
      rw [hw] at i1 i2 i3 i4
      refine ⟨i1, i2, fun h => i3 fun h' => h ⟨h'.1, List.mem_cons_of_mem _ h'.2⟩, fun h => i4 (h.imp_right fun h => ⟨h.1, ?_, h.2.2⟩)⟩
      exact (List.mem_cons.1 h.2.1).resolve_left fun e => he ⟨h.1, e⟩

theorem haltSlots_groupOf (c : Nat) (slots : List Nat) : ∀ (s : State) (j g : Nat), groupOf (haltSlots c slots s) j g = groupOf s j g := by
  induction slots with
  | nil => exact fun _ _ _ => rfl
  | cons sl slots ih => exact fun s j g => (ih _ j g).trans (groupOf_modWarp _ _ _ _ _ _)

/-- The threads of a fault stop, and nothing else of their warp changes. -/
theorem stopLanes_warp (ls : List Nat) : ∀ w : Warp, let w' := ls.foldl (fun w l => modLane w l fun x => { x with stopped := true }) w
    w'.st = w.st ∧ w'.halting = w.halting ∧ ∀ j, laneOf w' j = if j ∈ ls then { laneOf w j with stopped := true } else laneOf w j := by
  induction ls with
  | nil => exact fun w => ⟨rfl, rfl, fun j => (if_neg List.not_mem_nil).symm⟩
  | cons l ls ih =>
    intro w
    obtain ⟨i1, i2, i3⟩ := ih (modLane w l fun x => { x with stopped := true })
    refine ⟨i1, i2, fun j => (i3 j).trans ?_⟩
    rw [laneOf_modLane]
    by_cases hj : j = l
    · simp [hj]
    · simp [hj]

theorem raiseFault_taken {f : FaultInfo} {s : State} (h : (warpOf s f.core f.slot).kind ≠ .handler) : FaultTaken f s (raiseFault f s) := by
  unfold raiseFault
  extract_lets w k g x free tabFree tab area l0 tabAddr warpIx gix image addr r s1 s2 s3 s4
  rw [if_neg (show ¬(w.kind == WarpKind.handler) = true by simpa using h)]
  have h1 : s1.cores = s.cores := modCtx_cores _ _ _
  have hr : r.state = 0 ∨ r.state = 4 := by
    clear_value free
    dsimp only [r]
    exact ite_eq_or_eq _ _ _
  have hw2 : ∀ c j, warpOf s2 c j = warpOf s c j := fun c j => (warpOf_modGroup s1 _ _ c j _).trans ((recsMoved_of_cores h1).1 c j)
  have hg2 : (groupOf s2 f.core w.group).halted = true ∧ (groupOf s2 f.core w.group).recs = (groupOf s f.core w.group).recs ++ [r] := by
    rw [groupOf_modGroup, if_pos ⟨rfl, rfl⟩, (onlyTlb_of_cores h1).groupOf]
    exact ⟨rfl, rfl⟩
  have hw3 : ∀ c j, warpOf s3 c j = if c = f.core ∧ j = f.slot then
      (lanesOf f.lanes).foldl (fun w l => modLane w l fun x => { x with stopped := true }) w else warpOf s c j := fun c j => by
    rw [warpOf_modWarp, hw2, hw2]
  obtain ⟨hst, hhalt, hlanes⟩ := stopLanes_warp (lanesOf f.lanes) w
  have hg4 : groupOf s4 f.core w.group = groupOf s2 f.core w.group := (haltSlots_groupOf _ _ _ _ _).trans (groupOf_modWarp _ _ _ _ _ _)
  obtain ⟨t, ht⟩ : ∃ t, t = (if free.isSome = true then writeRecord s4 f.core w.group g.recs.length else logCore s4 f.core w.ctx f.cause 0 0) := ⟨_, rfl⟩
  have ht4 : RecsMoved s4 t ∧ ∃ p, Settles p ∧ (groupOf t f.core w.group).recs = (groupOf s4 f.core w.group).recs.modify g.recs.length p := by
    rw [ht]
    split
    · exact ⟨recsMoved_writeRecord _ _ _ _, recs_writeRecord _ _ _ _⟩
    · refine ⟨recsMoved_logCore _ _ _ _ _ _, id, fun _ => ⟨rfl, rfl, rfl, rfl, rfl, rfl, .inl rfl⟩, ?_⟩
      rw [(onlyTlb_of_cores (logCore_cores _ _ _ _ _ _)).groupOf, List.modify_id]
  obtain ⟨hmoved, p, hp, hrecs⟩ := ht4
  have hwarp (c j : Nat) := haltSlots_warps f.core g.slots s3 c j
  rw [← ht]
  refine ⟨(hmoved.2 _ _).1.trans (by rw [hg4]; exact hg2.1), ⟨p r, ?_, ?_⟩, fun l => ?_, fun sl hsl hs => ?_, fun c sl hne => ?_⟩
  · rw [hrecs, hg4, hg2.2]
    exact modify_concat p (groupOf s f.core w.group).recs r
  · obtain ⟨e1, e2, e3, e4, e5, e6, e7⟩ := hp r
    refine ⟨e1, e2, e3, e4, e5, e6, ?_⟩
    exact e7.elim (fun e => hr.imp e.trans e.trans) .inr
  · rw [hmoved.1, laneOf, (hwarp f.core f.slot).1, ← laneOf, hw3, if_pos ⟨rfl, rfl⟩, hlanes]
    exact if_congr mem_lanesOf rfl rfl
  · rw [hmoved.1]
    refine (hwarp f.core sl).2.2.2 (.inr ⟨rfl, hsl, ?_⟩)
    rw [hw3]
    split
    · next e => rw [hst]; rw [e.2] at hs; exact hs
    · exact hs
  · rw [hmoved.1, (hwarp c sl).2.2.1 fun h => hne ⟨h.1, .inr h.2⟩, hw3, if_neg fun h => hne ⟨h.1, .inl h.2⟩]

/-! ### WATCHDOG -/

theorem exec_watchdog {c g since tab sl : Nat} {pre post : List Nat} {s u : State} (hp : (groupOf s c g).parkedSince = some since)
    (hh : (groupOf s c g).halted = false) (hall : allParked s c g = true) (htm : (ctxOf s (groupOf s c g).ctx).timedFrom.isSome = true)
    (hk : ∀ j ∈ (groupOf s c g).slots, (warpOf s c j).kind ≠ .handler)
    (ht : trapTab ⟨c, (groupOf s c g).ctx, 0⟩ (recField s (groupOf s c g).ctx 383 320) s = .ok tab u)
    (hku : (warpOf u c sl).kind ≠ .handler) (hn : watchLimit tab ≠ 0)
    (hlim : since + watchLimit tab * 1400000 ≤ watchTime u (groupOf s c g).ctx) (hs : (groupOf s c g).slots = pre ++ sl :: post)
    (hpre : ∀ j ∈ pre, ∀ l ∈ liveLanes (warpOf u c j), (laneOf (warpOf u c j) l).st ≠ .parked)
    (hsl : ∃ l ∈ liveLanes (warpOf u c sl), (laneOf (warpOf u c sl) l).st = .parked) :
    ∃ t, exec (.watchdog c g) s = .next t ∧ FaultTaken (watchInfo u c sl) u t := by
  have hfind : (groupOf s c g).slots.find? (fun sl => (liveLanes (warpOf u c sl)).any fun l => (laneOf (warpOf u c sl) l).st == .parked) = some sl := by
    rw [hs, List.find?_append, List.find?_eq_none.2 fun j hj => by simpa using hpre j hj, Option.none_or, List.find?_cons_of_pos]
    obtain ⟨l, hl, hlp⟩ := hsl
    exact List.any_eq_true.2 ⟨l, hl, by simpa using hlp⟩
  have hstep : watchStep c g s = some (raiseFault (watchInfo u c sl) u) := by
    unfold watchStep
    dsimp only
    rw [hp]
    dsimp only
    have htm' : (ctxOf s (groupOf s c g).ctx).timedFrom.isNone = false := by
      rw [← Option.not_isSome, htm]; rfl
    rw [if_neg (by simpa [hh, hall, htm'] using hk), trapBase, ht]
    dsimp only
    rw [decide_eq_false hn, decide_eq_false (not_lt.2 hlim), if_neg (by decide), hfind]
    rfl
  exact ⟨_, congrArg (fun o : Option State => Host.Outcome.next (o.getD s)) hstep, raiseFault_taken hku⟩

/-! ### Soft errors that are hard: their place is damaged, or zeroed with its owner (22 R399) -/

theorem mem_addGranule (g y : Nat) (gs : List Nat) : y ∈ addGranule g gs ↔ y ∈ gs ∨ y = g := by
  unfold addGranule
  split
  · next h => exact ⟨.inl, fun h' => h'.elim id fun e => e ▸ List.contains_iff_mem.1 h⟩
  · simp

theorem exec_softError_memory {pa : Nat} {s : State} (h : backed pa = true) : ∃ t, exec (.softError (.memory pa) true) s = .next t
    ∧ (∀ x, x ≠ homeSector pa → sectorOf t x = sectorOf s x)
    ∧ { sectorOf t (homeSector pa) with damaged := [] } = { sectorOf s (homeSector pa) with damaged := [] }
    ∧ ∀ y, y ∈ (sectorOf t (homeSector pa)).damaged ↔ y ∈ (sectorOf s (homeSector pa)).damaged ∨ y = granule pa := by
  have hstep : softStep (.memory pa) true s = modSector s (homeSector pa) fun k => { k with damaged := addGranule (granule pa) k.damaged } := by
    rw [softStep, h]; rfl
  refine ⟨_, congrArg Host.Outcome.next hstep, fun x hx => ?_, ?_, fun y => ?_⟩
  · rw [sectorOf_modSector, if_neg hx]
  · rw [sectorOf_modSector_self]
  · rw [sectorOf_modSector_self]; exact mem_addGranule _ _ _

theorem exec_softError_sram {pa : Nat} {s : State} (h : backed pa = true) : ∃ t, exec (.softError (.sram pa) true) s = .next t
    ∧ (∀ x, x ≠ homeSector pa → sectorOf t x = sectorOf s x)
    ∧ { sectorOf t (homeSector pa) with sramBad := [] } = { sectorOf s (homeSector pa) with sramBad := [] }
    ∧ ∀ y, y ∈ (sectorOf t (homeSector pa)).sramBad ↔ y ∈ (sectorOf s (homeSector pa)).sramBad ∨ y = pa / 8 * 8 := by
  have hstep : softStep (.sram pa) true s = modSector s (homeSector pa) fun k => { k with sramBad := addGranule (pa / 8 * 8) k.sramBad } := by
    rw [softStep, h]; rfl
  refine ⟨_, congrArg Host.Outcome.next hstep, fun x hx => ?_, ?_, fun y => ?_⟩
  · rw [sectorOf_modSector, if_neg hx]
  · rw [sectorOf_modSector_self]
  · rw [sectorOf_modSector_self]; exact mem_addGranule _ _ _

theorem onlyCore_refl (s : State) (c : Nat) : OnlyCore s s c := ⟨rfl, fun _ _ => rfl⟩
theorem onlyCore_trans {s t u : State} {c : Nat} (h : OnlyCore s t c) (h' : OnlyCore t u c) : OnlyCore s u c :=
  ⟨h'.1.trans h.1, fun d hd => (h'.2 d hd).trans (h.2 d hd)⟩
theorem onlyCore_modCore (s : State) (c : Nat) (f : Core → Core) : OnlyCore s (modCore s c f) c :=
  ⟨rest_modCore s c f, fun _ hd => (coreOf_modCore s c _ f).trans (if_neg hd)⟩
theorem onlyCore_modWarp (s : State) (c slot : Nat) (f : Warp → Warp) : OnlyCore s (modWarp s c slot f) c :=
  ⟨rest_modWarp s c slot f, fun _ hd => coreOf_modWarp_ne slot f hd⟩
theorem onlyCore_modGroup (s : State) (c g : Nat) (f : Group → Group) : OnlyCore s (modGroup s c g f) c := onlyCore_modCore s c _

theorem coreOf_modCore_self (s : State) (c : Nat) (f : Core → Core) : coreOf (modCore s c f) c = f (coreOf s c) :=
  (coreOf_modCore s c c f).trans (if_pos rfl)

theorem exec_softError_pad (c a : Nat) (s : State) : ∃ t, exec (.softError (.pad c a) true) s = .next t ∧ OnlyCore s t c
    ∧ { coreOf t c with padBad := [] } = { coreOf s c with padBad := [] }
    ∧ ∀ y, y ∈ (coreOf t c).padBad ↔ y ∈ (coreOf s c).padBad ∨ y = a / 8 * 8 := by
  refine ⟨modCore s c fun k => { k with padBad := addGranule (a / 8 * 8) k.padBad }, rfl, onlyCore_modCore _ _ _, ?_, fun y => ?_⟩
  · rw [coreOf_modCore_self]
  · rw [coreOf_modCore_self]; exact mem_addGranule _ _ _

/-- A damaged warp's state. -/
theorem hurtsWarp_damageWarp (c slot : Nat) (e : Nat × Nat × Nat) (s : State) : HurtsWarp s (damageWarp c slot e s) c slot e := by
  intro j
  rw [damageWarp, warpOf_modWarp]
  by_cases hj : j = slot
  · rw [if_pos ⟨rfl, hj⟩, hj]
    by_cases hf : (warpOf s c slot).st = .free
    · rw [if_pos (by simpa using hf), if_neg (by simp [hf])]
    · rw [if_neg (by simpa using hf), if_pos ⟨rfl, hf⟩]
  · rw [if_neg fun h => hj h.2, if_neg fun h => hj h.1]

theorem exec_softError_warp {x : SoftWhere} {c slot : Nat} {e : Nat × Nat × Nat} (s : State)
    (h : (∃ l n, x = .register c slot l n ∧ e = (0, l, n)) ∨ (∃ l, x = .predicates c slot l ∧ e = (1, l, 0)) ∨
      (∃ l, x = .code c slot l ∧ e = (2, l, 0)) ∨ (∃ k, x = .mask c slot k ∧ e = (3, 0, k)) ∨
      (∃ l, x = .pcEntry c slot l ∧ e = (4, l, 0)) ∨ (∃ l, x = .skipCount c slot l ∧ e = (5, l, 0))) :
    ∃ t, exec (.softError x true) s = .next t ∧ OnlyCore s t c ∧ HurtsWarp s t c slot e := by
  refine ⟨damageWarp c slot e s, ?_, onlyCore_modWarp _ _ _ _, hurtsWarp_damageWarp _ _ _ _⟩
  rcases h with ⟨l, n, rfl, rfl⟩ | ⟨l, rfl, rfl⟩ | ⟨l, rfl, rfl⟩ | ⟨k, rfl, rfl⟩ | ⟨l, rfl, rfl⟩ | ⟨l, rfl, rfl⟩ <;> rfl

/-! ### Groups that are damaged -/

/-- The groups of a list that satisfy a test become damaged; nothing else of their core changes. -/
theorem damageGroups (c : Nat) (p : Nat × Group → Bool) : ∀ (l : List (Nat × Group)) (s : State),
    let t := l.foldl (fun s g => if p g then damageGroup c g.1 s else s) s
    OnlyCore s t c ∧ { coreOf t c with groups := [] } = { coreOf s c with groups := [] } ∧
    ∀ g, groupOf t c g = if (∃ e ∈ l, e.1 = g ∧ p e = true) then { groupOf s c g with damaged := true } else groupOf s c g
  | [], s => ⟨onlyCore_refl s c, rfl, fun g => (if_neg (by simp)).symm⟩
  | a :: l, s => by
    obtain ⟨u, hu⟩ : ∃ u, u = (if p a then damageGroup c a.1 s else s) := ⟨_, rfl⟩
    have h0 : OnlyCore s u c ∧ { coreOf u c with groups := [] } = { coreOf s c with groups := [] } ∧
        ∀ g, groupOf u c g = if a.1 = g ∧ p a = true then { groupOf s c g with damaged := true } else groupOf s c g := by
      rw [hu]
      split
      · next h =>
        refine ⟨onlyCore_modGroup _ _ _ _, by rw [damageGroup, modGroup, coreOf_modCore_self], fun g => ?_⟩
        rw [damageGroup, groupOf_modGroup]
        by_cases hg : g = a.1
        · rw [if_pos ⟨rfl, hg⟩, if_pos ⟨hg.symm, h⟩, hg]
        · rw [if_neg fun e => hg e.2, if_neg fun e => hg e.1.symm]
      · next h => exact ⟨onlyCore_refl s c, rfl, fun g => (if_neg fun e => h e.2).symm⟩
    obtain ⟨i1, i2, i3⟩ := damageGroups c p l u
    rw [List.foldl_cons, ← hu]
    refine ⟨onlyCore_trans h0.1 i1, i2.trans h0.2.1, fun g => ?_⟩
    rw [i3, h0.2.2]
    by_cases ha : a.1 = g ∧ p a = true
    · rw [if_pos ha]
      exact (ite_self _).trans (if_pos ⟨a, List.mem_cons_self, ha⟩).symm
    · rw [if_neg ha]
      exact if_congr (by simp [ha]) rfl rfl

theorem groupOf_modCore {s : State} {c : Nat} {f : Core → Core} (h : (f (coreOf s c)).groups = (coreOf s c).groups) (g : Nat) :
    groupOf (modCore s c f) c g = groupOf s c g := by
  rw [groupOf, coreOf_modCore_self, h]
  rfl

theorem exec_softError_deck {c i : Nat} {f : Frame} {s : State} (h : (coreOf s c).deck[i]? = some f) :
    ∃ t, exec (.softError (.deck c i) true) s = .next t
    ∧ OnlyCore s t c ∧ (coreOf t c).deck = (coreOf s c).deck.modify i (fun f => { f with bits := 0 })
    ∧ ∀ g, groupOf t c g = if (∃ e ∈ (coreOf s c).groups, e.1 = g ∧ e.2.launch = f.tag)
        then { groupOf s c g with damaged := true } else groupOf s c g := by
  obtain ⟨u, hu⟩ : ∃ u, u = modCore s c fun k => { k with deck := k.deck.modify i fun f => { f with bits := 0 } } := ⟨_, rfl⟩
  have hcu : coreOf u c = { coreOf s c with deck := (coreOf s c).deck.modify i fun f => { f with bits := 0 } } := by
    rw [hu, coreOf_modCore_self]
  obtain ⟨h1, h2, h3⟩ := damageGroups c (fun g => g.2.launch == f.tag) (coreOf u c).groups u
  have hstep : softStep (.deck c i) true s = (coreOf u c).groups.foldl (fun s g => if g.2.launch == f.tag then damageGroup c g.1 s else s) u := by
    rw [softStep, if_pos rfl, h, hu]
  refine ⟨_, congrArg Host.Outcome.next hstep, onlyCore_trans (hu ▸ onlyCore_modCore _ _ _) h1, (congrArg Core.deck h2 : _).trans ?_, fun g => (h3 g).trans ?_⟩
  · rw [hcu]
  · rw [hu, groupOf_modCore rfl, ← hu, hcu]
    exact if_congr (by simp) rfl rfl

theorem exec_softError_barrier {c g : Nat} (n : Nat) {s : State} (h : ∃ e ∈ (coreOf s c).groups, e.1 = g) :
    ∃ t, exec (.softError (.barrier c g n) true) s = .next t ∧ OnlyCore s t c ∧ (groupOf t c g).damaged = true
    ∧ ∀ m, mget {} (groupOf t c g).bars m = if m = n then {} else mget {} (groupOf s c g).bars m := by
  have hany : (coreOf s c).groups.any (·.1 == g) = true := by simpa using h
  have hstep : softStep (.barrier c g n) true s = damageGroup c g (modGroup s c g fun k => { k with bars := mput {} k.bars n {} }) := by
    rw [softStep, if_pos rfl, if_pos hany]
  refine ⟨_, congrArg Host.Outcome.next hstep, onlyCore_trans (onlyCore_modGroup _ _ _ _) (onlyCore_modGroup _ _ _ _), ?_, fun m => ?_⟩
  · rw [damageGroup, groupOf_modGroup, if_pos ⟨rfl, rfl⟩]
  · rw [damageGroup, groupOf_modGroup, if_pos ⟨rfl, rfl⟩, groupOf_modGroup, if_pos ⟨rfl, rfl⟩]
    dsimp only
    rw [mget_mput]

theorem exec_softError_tile (c k r j : Nat) (s : State) : ∃ t, exec (.softError (.tile c k r j) true) s = .next t ∧ OnlyCore s t c
    ∧ (∀ m, mget 0 (tileOf t c k).words m = if m = r * 256 + j then 0 else mget 0 (tileOf s c k).words m)
    ∧ ∀ g, groupOf t c g = if g < 64 ∧ (∃ e ∈ (coreOf s c).groups, e.1 = g)
        then { groupOf s c g with damaged := true } else groupOf s c g := by
  obtain ⟨u, hu⟩ : ∃ u, u = modTile s c k fun t => { t with words := mput 0 t.words (r * 256 + j) 0 } := ⟨_, rfl⟩
  have hcu : coreOf u c = { coreOf s c with matrix := (coreOf u c).matrix } := by
    rw [hu, modTile, modMatrix, coreOf_modCore_self]
  have htile : tileOf u c k = { tileOf s c k with words := mput 0 (tileOf s c k).words (r * 256 + j) 0 } := by
    rw [hu, tileOf, modTile, modMatrix, coreOf_modCore_self]
    exact mget_mput_self _ _ _ _
  obtain ⟨h1, h2, h3⟩ := damageGroups c (fun g => decide (g.1 < 64)) (coreOf u c).groups u
  have hstep : softStep (.tile c k r j) true s =
      (coreOf u c).groups.foldl (fun s g => if decide (g.1 < 64) = true then damageGroup c g.1 s else s) u := by
    rw [softStep, if_pos rfl, hu]
    simp only [decide_eq_true_eq]
  refine ⟨_, congrArg Host.Outcome.next hstep, onlyCore_trans (hu ▸ onlyCore_modCore _ _ _) h1, fun m => ?_, fun g => (h3 g).trans ?_⟩
  · rw [tileOf, (congrArg Core.matrix h2 : _), ← tileOf, htile]
    dsimp only
    rw [mget_mput]
  · have hg : groupOf u c g = groupOf s c g := by rw [hu]; exact groupOf_modCore rfl g
    have hgs : (coreOf u c).groups = (coreOf s c).groups := by rw [hcu]
    rw [hg, hgs]
    refine if_congr ⟨fun ⟨e, he, h1, h2⟩ => ⟨h1 ▸ of_decide_eq_true h2, e, he, h1⟩, fun ⟨h64, e, he, h1⟩ => ⟨e, he, h1, decide_eq_true (h1 ▸ h64)⟩⟩ rfl rfl

theorem exec_softError_weight (c p r j : Nat) (s : State) : ∃ t, exec (.softError (.weight c p r j) true) s = .next t ∧ OnlyCore s t c
    ∧ { coreOf t c with matrix := {} } = { coreOf s c with matrix := {} }
    ∧ ∀ q m, mget 0 (mget {} (coreOf t c).matrix.planes q).words m =
        if q = p ∧ m = r * 256 + j then 0 else mget 0 (mget {} (coreOf s c).matrix.planes q).words m := by
  refine ⟨modCore s c fun k => { k with matrix := { k.matrix with planes := mput {} k.matrix.planes p { mget {} k.matrix.planes p with
    words := mput 0 (mget {} k.matrix.planes p).words (r * 256 + j) 0 } } }, rfl, onlyCore_modCore _ _ _, ?_, fun q m => ?_⟩
  · rw [coreOf_modCore_self]
  · rw [coreOf_modCore_self]
    dsimp only
    rw [mget_mput]
    by_cases hq : q = p
    · rw [if_pos hq]
      dsimp only
      rw [mget_mput, hq]
      exact if_congr (by simp) rfl rfl
    · rw [if_neg hq, if_neg fun h => hq h.1]

/-! ### Corrected errors and health (22 R388) -/

/-- CORRECTED and the spare rows stand in other bits of HEALTH. -/
theorem fld_spares_putBits (h x : Nat) : fld (putBits h 31 0 x) 47 32 = fld h 47 32 := by
  unfold putBits fld
  norm_num
  omega

theorem applyWrite_parts (s : State) (o pa : Nat) (bs : List Byte) : (applyWrite s o pa bs).parts = s.parts :=
  (congrArg State.parts (applyWrite_only s o pa bs) :)
theorem applyWrite_mgmt (s : State) (o pa : Nat) (bs : List Byte) : (applyWrite s o pa bs).mgmt = s.mgmt :=
  (congrArg State.mgmt (applyWrite_only s o pa bs) :)
theorem partOf_of_parts {s t : State} (h : t.parts = s.parts) (x : Nat) : partOf t x = partOf s x := by
  simp only [partOf, partAt, h]

theorem partOf_putHealth (s : State) (x v y : Nat) : partOf (putHealth s x v) y = partOf s y :=
  partOf_of_parts (applyWrite_parts s x (healthAddr x) _) y

theorem corrected_count {x row source addr h : Nat} {s : State} {hits : List (Nat × Nat)} (hh : h = health s x)
    (hhits : hits = (sectorOf s x).rowHits.filter (fun e => s.clk < e.2 + 24 * 3600 * 1400000000))
    (hc : (hits.filter (·.1 == row)).length < 2 ∨ fld h 47 32 = 0) :
    corrected x row addr source s = putHealth (modSector s x fun k => { k with rowHits := hits ++ [(row, s.clk)] }) x
        (putBits h 31 0 (fld h 31 0 + 1)) := by
  unfold corrected
  dsimp only
  rw [← hh, ← hhits, fld_spares_putBits]
  exact if_neg (by simpa using fun h3 => hc.resolve_left (by omega))

theorem corrected_spare {x row source addr h v : Nat} {s : State} {hits : List (Nat × Nat)} (hh : h = health s x)
    (hhits : hits = (sectorOf s x).rowHits.filter (fun e => s.clk < e.2 + 24 * 3600 * 1400000000))
    (hc : 2 ≤ (hits.filter (·.1 == row)).length) (hs : 0 < fld h 47 32)
    (hv : v = putBits (putBits (putBits h 31 0 (fld h 31 0 + 1)) 47 32 (fld h 47 32 - 1)) 62 62 1) :
    corrected x row addr source s = logError (putHealth (modSector s x fun k => { k with rowHits := hits.filter (·.1 != row) }) x
        (if fld h 47 32 = 1 then putBits v 63 63 1 else v)) x 0x47 addr 0 ((partOf s x).getD 0) 0 255
        (detail source 15 3 (fld h 47 32 - 1)) := by
  unfold corrected
  dsimp only
  rw [← hh, ← hhits, fld_spares_putBits, ← hv, if_pos (by simp; omega)]
  have hleft : (if fld h 47 32 - 1 = 0 then putBits v 63 63 1 else v) = if fld h 47 32 = 1 then putBits v 63 63 1 else v :=
    if_congr (by omega) rfl rfl
  rw [hleft, partOf_putHealth]
  rfl

theorem exec_softError_corrected {pa : Nat} {s : State} (h : backed pa = true) :
    (∃ row, exec (.softError (.memory pa) false) s
      = .next (corrected (homeSector pa) row (pa / 1024 * 1024) (if inTier2 pa then 3 else 2) s)) ∧
    ∃ row, exec (.softError (.sram pa) false) s = .next (corrected (homeSector pa) row (pa / 64 * 64) 1 s) := by
  have hm : softStep (.memory pa) false s =
      corrected (homeSector pa) (rowName 2 0 (pa / 1024)) (pa / 1024 * 1024) (if inTier2 pa then 3 else 2) s := by rw [softStep, h]; rfl
  have hs : softStep (.sram pa) false s = corrected (homeSector pa) (rowName 1 0 (pa / 64)) (pa / 64 * 64) 1 s := by rw [softStep, h]; rfl
  exact ⟨⟨_, congrArg Host.Outcome.next hm⟩, ⟨_, congrArg Host.Outcome.next hs⟩⟩

theorem exec_softError_correctedCore {x : SoftWhere} {c : Nat} (s : State)
    (h : (∃ i, x = .deck c i) ∨ (∃ l, x = .code c 0 l) ∨ (∃ g n, x = .barrier c g n) ∨ (∃ k r j, x = .tile c k r j) ∨
      (∃ sl l n, x = .register c sl l n)) : ∃ row, exec (.softError x false) s = .next (corrected (secOf c) row 0 4 s) := by
  rcases h with ⟨i, rfl⟩ | ⟨l, rfl⟩ | ⟨g, n, rfl⟩ | ⟨k, r, j, rfl⟩ | ⟨sl, l, n, rfl⟩ <;> exact ⟨_, rfl⟩

theorem exec_coreDisabled {c : Nat} (source : Nat) {s : State} (hc : c < 192) (ho : (coreOf s c).off = false) :
    ∃ u, u = modCore (logError (putHealth s (secOf c) (healthOff (health s (secOf c)))) (secOf c) 0x48 0 0
      (if (coreOf s c).holder = 0 then (partOf s (secOf c)).getD 0 else ((coreOf s c).holder - 1) / 64)
      (if (coreOf s c).holder = 0 then 0 else ((coreOf s c).holder - 1) % 64) c
      (detail source 15 3 ((coreOf s c).groups.filter fun g => g.1 < 64).length)) c (fun k => { k with off := true })
    ∧ exec (.coreDisabled c source) s = .next (if (coreOf s c).holder = 0 then u else leaveCore 2 40 c u)
    ∧ (coreOf u c).off = true ∧ (coreOf u c).holder = (coreOf s c).holder := by
  refine ⟨_, rfl, congrArg Host.Outcome.next (if_pos (by simp [hc, ho])), ?_, ?_⟩
  · rw [coreOf_modCore_self]
  · rw [coreOf_modCore_self, coreOf, logError_cores, putHealth, applyWrite_cores]
    rfl

/-! ### Retraining (04 R91, 23 R415) -/

section Retrain
variable {n : Nat} {s : State} (hen : (stackAt s n).en = true) (hdue : (stackAt s n).last + (stackAt s n).interval * 1400000 ≤ s.clk)
include hen hdue

theorem exec_hbmRetrain_next (h : saveRuns s (n / 2) = false ∨ (∃ since, (stackAt s n).since = some since ∧ since + 2800000 ≤ s.clk)) :
    ∃ t, exec (.hbmRetrain n) s = .next t ∧ { t with hbm := [] } = { s with hbm := [] } ∧ (∀ j, j ≠ n → stackAt t j = stackAt s j)
        ∧ (stackAt t n).lastCh = .ofNat 8 (stackAt s n).nextCh ∧ (stackAt t n).count = (stackAt s n).count + 1 ∧ (stackAt t n).last = s.clk
        ∧ (stackAt t n).since = none ∧ (stackAt t n).en = true ∧ (stackAt t n).interval = (stackAt s n).interval := by
  obtain ⟨t, ht⟩ : ∃ t, t = modStack s n fun k => { k with
    lastCh := .ofNat 8 k.nextCh, nextCh := (k.nextCh + 1) % (Config.channels % 256 + 1), count := k.count + 1,
    last := s.clk, since := none } := ⟨_, rfl⟩
  have hdefer : (saveRuns s (n / 2) && (match (stackAt s n).since with | some t => decide (s.clk < t + 2800000) | none => true)) = false := by
    rcases h with h | ⟨t, ht, hl⟩
    · rw [h, Bool.false_and]
    · rw [ht]; simp [hl]
  have hstep : retrainStep n s = some t := by
    unfold retrainStep
    dsimp only
    rw [if_neg (by simp [hen, hdue]), ht]
    exact if_neg (ne_true_of_eq_false hdefer)
  have hself : stackAt t n = _ := (congrArg (fun t => stackAt t n) ht).trans ((stackAt_modStack _ _ _ _).trans (if_pos rfl))
  refine ⟨t, congrArg (fun o : Option State => Host.Outcome.next (o.getD s)) hstep, by rw [ht]; rfl, fun j hj => ?_, ?_⟩
  · rw [ht, stackAt_modStack, if_neg hj]
  · rw [hself]
    exact ⟨rfl, rfl, rfl, rfl, hen, rfl⟩

theorem exec_hbmRetrain_defer (h : saveRuns s (n / 2) = true) (hs : (stackAt s n).since = none) :
    ∃ t, exec (.hbmRetrain n) s = .next t ∧ { t with hbm := [] } = { s with hbm := [] }
      ∧ ∀ j, stackAt t j = if j = n then { stackAt s n with deferred := true, since := some s.clk } else stackAt s j := by
  have hstep : retrainStep n s = some (modStack s n fun k => { k with deferred := true, since := some s.clk }) := by
    unfold retrainStep
    dsimp only
    rw [if_neg (by simp [hen, hdue]), h, hs]
    rfl
  exact ⟨modStack s n fun k => { k with deferred := true, since := some s.clk },
    congrArg (fun o : Option State => Host.Outcome.next (o.getD s)) hstep, rfl, fun j => stackAt_modStack _ _ _ _⟩

end Retrain

/-! ### Time (21 R378, 23 R417) -/

theorem exec_ptpLock (time : Nat) (offset : BitVec 32) (s : State) :
    (s.mgmt.ptpEn = true → ∃ t, exec (.ptpLock time offset) s = .next t ∧ t.mgmt = { s.mgmt with
        locked := true, everLocked := true, offset := offset }
      ∧ fabtime t = time
      ∧ { t with mgmt := {}, fabBase := 0, fabClk := 0, fabNum := 0, fabDen := 0 }
          = { s with mgmt := {}, fabBase := 0, fabClk := 0, fabNum := 0, fabDen := 0 }) ∧
    (s.mgmt.ptpEn = false → exec (.ptpLock time offset) s = .next s) := by
  have hd : (discipline time s).mgmt = s.mgmt ∧ fabtime (discipline time s) = time ∧
      { discipline time s with mgmt := {}, fabBase := 0, fabClk := 0, fabNum := 0, fabDen := 0 }
        = { s with mgmt := {}, fabBase := 0, fabClk := 0, fabNum := 0, fabDen := 0 } := by
    unfold discipline fabtime
    dsimp only
    split
    · exact ⟨rfl, by simp, rfl⟩
    · exact ⟨rfl, by simp, rfl⟩
  obtain ⟨hm, hf, hr⟩ := hd
  refine ⟨fun h => ⟨_, congrArg Host.Outcome.next (if_neg (by simp [h])), ?_, hf, hr⟩, fun h => congrArg Host.Outcome.next (if_pos (by simp [h]))⟩
  exact congrArg (fun g : Mgmt => { g with locked := true, everLocked := true, offset := offset }) hm

/-! ### SYNC_INTERVAL (21 R378) -/

/-- A header field does not see the data above the header. -/
theorem fld_header (v b : Nat) {hi lo : Nat} (hl : lo ≤ hi) (hh : hi < 256) : fld (v + b * 2 ^ 256) hi lo = fld v hi lo := by
  have e1 : (2 : Nat) ^ 256 = 2 ^ lo * 2 ^ (256 - lo) := by rw [← pow_add]; congr 1; omega
  have e2 : (2 : Nat) ^ (256 - lo) = 2 ^ (hi - lo + 1) * 2 ^ (255 - hi) := by rw [← pow_add]; congr 1; omega
  rw [fld, fld, e1, Nat.mul_left_comm, Nat.add_mul_div_left _ _ (by positivity), e2, Nat.mul_left_comm, Nat.add_mul_mod_self_left]

theorem length_netBytes (n v : Nat) : (netBytes n v).length = n := by
  rw [netBytes, List.length_reverse, length_leBytes]

theorem length_delayReq (s : State) : (delayReq s).length = 44 := by
  simp only [delayReq, portIdentity, List.length_append, List.length_cons, List.length_nil, List.length_replicate, List.length_map,
    List.length_range, length_netBytes]

/-- The packet of a Delay_Req. -/
def delayPacket (s : State) : Nat := 0x20 * 2 ^ 248 + 44 * 2 ^ 64 + 2 * 2 ^ 243 + 2 * 2 ^ 241 + ofBytes (delayReq s) * 2 ^ 256

/-- The state once it stands on PTPCTL.PORT's list. -/
def sentDelay (s : State) : State := { s with
  ports := mput {} s.ports s.mgmt.ptpPort.toNat { portAt s s.mgmt.ptpPort.toNat with
    outbox := (portAt s s.mgmt.ptpPort.toNat).outbox ++ [(2, 3, 0, delayPacket s)] } }

theorem posted_delayPacket (s : State) : Posted s (sentDelay s) s.mgmt.ptpPort.toNat 2 0x20 (delayReq s) (delayPacket s) ∧ pLen (delayPacket s) = 44 := by
  have hf {hi lo : Nat} (hl : lo ≤ hi) (hh : hi < 256) : fld (delayPacket s) hi lo = fld (0x20 * 2 ^ 248 + 44 * 2 ^ 64 + 2 * 2 ^ 243 + 2 * 2 ^ 241) hi lo :=
    fld_header _ _ hl hh
  refine ⟨⟨rfl, fun j hj => ?_, ?_, ?_, ?_, ?_, ?_⟩, ?_⟩
  · exact mget_mput_ne _ _ _ _ _ hj
  · rw [length_delayReq]; exact mget_mput_self _ _ _ _
  · rw [pKind, hf (by omega) (by omega)]; rfl
  · rw [pVc, hf (by omega) (by omega)]; rfl
  · rw [pFlits, hf (by omega) (by omega), length_delayReq]; rfl
  · rw [delayPacket, Nat.add_mul_div_right _ _ (by positivity), Nat.div_eq_of_lt (by norm_num), Nat.zero_add]
  · rw [pLen, hf (by omega) (by omega)]; rfl

theorem exec_syncInterval (s : State) : (s.mgmt.ptpEn = true → ∃ t bs v, exec .syncInterval s = .next t ∧ bs.length = 44
      ∧ Posted s { t with mgmt := s.mgmt } s.mgmt.ptpPort.toNat 2 0x20 bs v ∧ pLen v = 44
      ∧ netField bs 0 1 = 1 ∧ netField bs 4 1 = s.mgmt.ptpDomain.toNat ∧ netField bs 30 2 = s.mgmt.ptpSeq % 65536
      ∧ t.mgmt = { s.mgmt with ptpReq := some (s.mgmt.ptpSeq, fabtime s), ptpSeq := (s.mgmt.ptpSeq + 1) % 65536 }) ∧
    (s.mgmt.ptpEn = false → exec .syncInterval s = .next s) := by
  have hpost : postPacket s.mgmt.ptpPort.toNat 2 0 (0x20 * 2 ^ 248 + 44 * 2 ^ 64) (delayReq s) s = sentDelay s := by
    rw [postPacket, length_delayReq]
    rfl
  obtain ⟨hp, hlen⟩ := posted_delayPacket s
  refine ⟨fun h => ?_, fun h => congrArg Host.Outcome.next (if_pos (by simp [h]))⟩
  have hstep : exec .syncInterval s = .next { sentDelay s with mgmt := { s.mgmt with
      ptpReq := some (s.mgmt.ptpSeq, fabtime s), ptpSeq := (s.mgmt.ptpSeq + 1) % 65536 } } := by
    refine congrArg Host.Outcome.next ((if_neg (by simp [h])).trans ?_)
    rw [hpost]
    rfl
  refine ⟨_, delayReq s, delayPacket s, hstep, length_delayReq s, hp, hlen, rfl, rfl, ?_, rfl⟩
  have hseq : (((delayReq s).drop 30).take 2).reverse = leBytes 2 s.mgmt.ptpSeq := rfl
  rw [netField, hseq, ofBytes_leBytes]
  rfl

/-! ### Display frames (21 R376, R377) -/

theorem runCtx_done {α : Type} {ctx : Nat} {m : M α} {s u : State} {a : α} (hw : (ctxOf s ctx).wait = none) (hf : (ctxOf s ctx).failed = false)
    (h : m s = .ok a u) : runCtx ctx m s = .done a u := by
  unfold runCtx
  dsimp only
  rw [hw, hf, h]
  rfl

section Frame
variable {ctx h surf time : Nat} {s u : State} (hk : (headOf s ctx h).encoding = some (surf, time))
  (hw : (ctxOf s ctx).wait = none) (hf : (ctxOf s ctx).failed = false)
include hk hw hf

theorem exec_frameEncodeComplete_drop (he : encodeFrame (ctxWho s ctx 15) (headOf s ctx h) surf time s = .ok none u) :
    exec (.frameEncodeComplete ctx h) s = .next
      (modHead u ctx h fun k => { k with drops := k.drops + 1, encoding := k.waiting, waiting := none }) := by
  have hstep : frameStep ctx h s = some (modHead u ctx h fun k => { k with drops := k.drops + 1, encoding := k.waiting, waiting := none }) := by
    unfold frameStep
    dsimp only
    rw [hk]
    dsimp only
    rw [runCtx_done hw hf he]
  exact congrArg (fun o : Option State => Host.Outcome.next (o.getD s)) hstep

theorem exec_frameEncodeComplete_frame {n : Nat} (he : encodeFrame (ctxWho s ctx 15) (headOf s ctx h) surf time s = .ok (some n) u) :
    exec (.frameEncodeComplete ctx h) s = .next
      (modHead (deliverAll u) ctx h fun k => { k with
        frames := k.frames + 1, pos := k.pos + n, encoding := k.waiting, waiting := none }) := by
  have hstep : frameStep ctx h s = some (modHead (deliverAll u) ctx h fun k => { k with
        frames := k.frames + 1, pos := k.pos + n, encoding := k.waiting, waiting := none }) := by
    unfold frameStep
    dsimp only
    rw [hk]
    dsimp only
    rw [runCtx_done hw hf he]
  exact congrArg (fun o : Option State => Host.Outcome.next (o.getD s)) hstep

end Frame

theorem encodeFrame_fits {w : Who} {k : DHead} {surf time log : Nat} {pixels bs : List Byte} {s u : State} (hl : log = k.out.toNat % 32)
    (hr : vread w surf (surfaceBytes k.cfg) s = .ok pixels u) (hb : bs = frameBytes k.frames time (temporalUnit k.cfg k.frames pixels)) :
    (log < 16 ∨ 30 < log ∨ 2 ^ log < bs.length → encodeFrame w k surf time s = .ok none u) ∧
    ∀ v, 16 ≤ log → log ≤ 30 → bs.length ≤ 2 ^ log → ringWrite w (fld k.out.toNat 56 12 * 4096) (2 ^ log) k.pos bs u = .ok () v →
      encodeFrame w k surf time s = .ok (some bs.length) v := by
  have he : encodeFrame w k surf time s = (if log < 16 || 30 < log || 2 ^ log < bs.length then pure none else do
      ringWrite w (fld k.out.toNat 56 12 * 4096) (2 ^ log) k.pos bs
      return some bs.length : M (Option Nat)) u := by
    rw [encodeFrame, hb, hl]
    show EStateM.bind _ _ s = _
    rw [EStateM.bind, hr]
  refine ⟨fun h => ?_, fun v h16 h30 hlen hw => ?_⟩
  · rw [he, if_pos (by simpa [or_assoc] using h)]
    rfl
  · rw [he, if_neg (by simp; omega)]
    show EStateM.bind _ _ u = _
    rw [EStateM.bind, hw]
    rfl

theorem leBytes_add (m : Nat) : ∀ (n v : Nat), leBytes (n + m) v = leBytes n v ++ leBytes m (v / 256 ^ n)
  | 0, v => by rw [Nat.zero_add, pow_zero, Nat.div_one]; rfl
  | n + 1, v => by
    rw [Nat.add_right_comm, leBytes, leBytes, leBytes_add m n, Nat.div_div_eq_div_mul, ← Nat.pow_succ']
    rfl

theorem leBytes_mod (n : Nat) : ∀ v, leBytes n (v % 256 ^ n) = leBytes n v := by
  induction n with
  | zero => exact fun _ => rfl
  | succ n ih =>
    intro v
    rw [leBytes, leBytes, Nat.pow_succ', Nat.mod_mul_right_div_self, ih]
    congr 1
    exact BitVec.eq_of_toNat_eq (by rw [BitVec.toNat_ofNat, BitVec.toNat_ofNat]; exact Nat.mod_mod_of_dvd _ (Dvd.intro _ rfl))

theorem leBytes_congr {n v w : Nat} (h : v % 256 ^ n = w % 256 ^ n) : leBytes n v = leBytes n w := by
  rw [← leBytes_mod, h, leBytes_mod]

/-- A frame's header, field by field. -/
theorem frameBytes_eq (n time : Nat) (x : List Byte) : frameBytes n time x =
    leBytes 4 n ++ (leBytes 4 x.length ++ (leBytes 8 time ++ (x ++ List.replicate ((64 - (16 + x.length) % 64) % 64) 0))) := by
  have h1 : (n % 2 ^ 32 + x.length % 2 ^ 32 * 2 ^ 32 + time % 2 ^ 64 * 2 ^ 64) % 256 ^ 4 = n % 256 ^ 4 := by norm_num; omega
  have h2 : (n % 2 ^ 32 + x.length % 2 ^ 32 * 2 ^ 32 + time % 2 ^ 64 * 2 ^ 64) / 256 ^ 4 % 256 ^ 4 = x.length % 256 ^ 4 := by norm_num; omega
  have h3 : (n % 2 ^ 32 + x.length % 2 ^ 32 * 2 ^ 32 + time % 2 ^ 64 * 2 ^ 64) / 256 ^ 4 / 256 ^ 4 % 256 ^ 8 = time % 256 ^ 8 := by norm_num; omega
  unfold frameBytes
  dsimp only
  rw [List.length_append, length_leBytes, show (16 : Nat) = 4 + (4 + 8) from rfl, leBytes_add, leBytes_add, leBytes_congr h1, leBytes_congr h2,
    leBytes_congr h3]
  simp only [List.append_assoc]

theorem frameBytes_layout (n time : Nat) (x : List Byte) : (frameBytes n time x).length = (16 + x.length + 63) / 64 * 64
    ∧ ofBytes ((frameBytes n time x).take 4) = n % 2 ^ 32 ∧ ofBytes (((frameBytes n time x).drop 4).take 4) = x.length % 2 ^ 32
    ∧ ofBytes (((frameBytes n time x).drop 8).take 8) = time % 2 ^ 64 ∧ ((frameBytes n time x).drop 16).take x.length = x
    ∧ ∀ b ∈ (frameBytes n time x).drop (16 + x.length), b = 0 := by
  have h4 (v : Nat) := length_leBytes 4 v
  have h8 (v : Nat) := length_leBytes 8 v
  have hd4 : (frameBytes n time x).drop 4 = leBytes 4 x.length ++ (leBytes 8 time ++ (x ++ List.replicate ((64 - (16 + x.length) % 64) % 64) 0)) := by
    rw [frameBytes_eq, List.drop_left' (h4 n)]
  have hd8 : (frameBytes n time x).drop 8 = leBytes 8 time ++ (x ++ List.replicate ((64 - (16 + x.length) % 64) % 64) 0) := by
    have e : ((frameBytes n time x).drop 4).drop 4 = (frameBytes n time x).drop (4 + 4) := List.drop_drop
    exact e.symm.trans (by rw [hd4, List.drop_left' (h4 _)])
  have hd16 : (frameBytes n time x).drop 16 = x ++ List.replicate ((64 - (16 + x.length) % 64) % 64) 0 := by
    have e : ((frameBytes n time x).drop 8).drop 8 = (frameBytes n time x).drop (8 + 8) := List.drop_drop
    exact e.symm.trans (by rw [hd8, List.drop_left' (h8 _)])
  refine ⟨?_, ?_, ?_, ?_, ?_, fun b hb => ?_⟩
  · rw [frameBytes_eq]
    simp only [List.length_append, length_leBytes, List.length_replicate]
    omega
  · rw [frameBytes_eq, List.take_left' (h4 n), ofBytes_leBytes]; rfl
  · rw [hd4, List.take_left' (h4 _), ofBytes_leBytes]; rfl
  · rw [hd8, List.take_left' (h8 _), ofBytes_leBytes]; rfl
  · rw [hd16, List.take_left' rfl]
  · rw [← List.drop_drop, hd16, List.drop_left' rfl] at hb
    exact List.eq_of_mem_replicate hb

/-! ### Attestation and boot (21 R379, R380) -/

theorem exec_attestComplete {s : State} (h : s.mgmt.attBusy = true) : ∃ t regs sig, exec .attestComplete s = .next t
    ∧ regs = (List.range 4).flatMap (fun x => leBytes 8 (pglim s x)) ++ (List.range 4).flatMap (fun p => leBytes 8 (partValue (partAt s p)))
    ∧ t.mgmt = { s.mgmt with
        attBusy := false, attDone := true, reports := s.mgmt.reports + 1,
        report := (List.range 4).flatMap (fun i => leBytes 8 (mget 0 s.mgmt.nonce i).toNat) ++ s.mgmt.measurement ++ sha256 regs
          ++ (List.range 16).map Config.serial ++ leBytes 8 (s.mgmt.reports + 1) ++ List.replicate 8 0 ++ sig }
    ∧ sig.length = 64 ∧ { t with mgmt := {}, choice := 0 } = { s with mgmt := {}, choice := 0 } := by
  obtain ⟨sig, hsig⟩ : ∃ sig, sig = (Config.attSignature (reportBody s) s.choice ++ List.replicate 64 0).take 64 := ⟨_, rfl⟩
  have hstep : attestStep s = some { s with choice := s.choice + 1, mgmt := { s.mgmt with
      attBusy := false, attDone := true, report := reportBody s ++ sig, reports := s.mgmt.reports + 1 } } := by
    rw [hsig]
    exact if_neg (by simp [h])
  refine ⟨_, _, sig, congrArg (fun o : Option State => Host.Outcome.next (o.getD s)) hstep, rfl, rfl, ?_, rfl⟩
  rw [hsig, List.length_take, List.length_append, List.length_replicate]
  omega

theorem bootRings_mgmt (l : List Nat) (s : State) : (l.foldl bootRing s).mgmt = s.mgmt :=
  List.foldlRecOn (motive := fun t : State => t.mgmt = s.mgmt) l bootRing rfl fun _ h _ _ => (applyWrite_mgmt _ _ _ _).trans h

theorem exec_bootComplete {s : State} {img body : List Byte} (h : s.mgmt.booting = true) (hi : img = firmware s)
    (hb : body = img.take (img.length - 64)) : ∃ t, exec .bootComplete s = .next t ∧
      if 64 ≤ img.length ∧ ecdsaOk Config.vendorKey (ofBE (sha256 body)) (ofBE ((img.drop (img.length - 64)).take 32))
          (ofBE ((img.drop (img.length - 64)).drop 32)) = true
      then t.mgmt = { s.mgmt with
          booting := false, ready := true, version := Config.firmwareVersion img, measurement := sha256 body }
      else t = { s with mgmt := { s.mgmt with booting := false, fail := true } } := by
  obtain ⟨good, hg⟩ : ∃ good, good = (decide (64 ≤ img.length) && ecdsaOk Config.vendorKey (ofBE (sha256 body))
    (ofBE ((img.drop (img.length - 64)).take 32)) (ofBE ((img.drop (img.length - 64)).drop 32))) := ⟨_, rfl⟩
  have hiff : (64 ≤ img.length ∧ ecdsaOk Config.vendorKey (ofBE (sha256 body)) (ofBE ((img.drop (img.length - 64)).take 32))
          (ofBE ((img.drop (img.length - 64)).drop 32)) = true) ↔ good = true := by
    rw [hg, Bool.and_eq_true, decide_eq_true_eq]
  have hstep : bootStep s = if good then some ([0, 1, 2, 3].foldl bootRing { s with mgmt := { s.mgmt with
        booting := false, ready := true, version := Config.firmwareVersion img, measurement := sha256 body } })
      else some { s with mgmt := { s.mgmt with booting := false, fail := true } } := by
    rw [hg, hb, hi]
    exact if_neg (by simp [h])
  have hx : exec .bootComplete s = .next ((bootStep s).getD s) := rfl
  rw [hx, hstep]
  cases hgood : good with
  | true =>
    refine ⟨_, rfl, ?_⟩
    rw [if_pos (hiff.2 hgood)]
    exact bootRings_mgmt _ _
  | false =>
    refine ⟨_, rfl, ?_⟩
    rw [if_neg fun h => Bool.false_ne_true (hgood.symm.trans (hiff.1 h))]
    rfl

/-- Settles O60: each step by the lemma of its instruction. -/
theorem faultAndServiceSteps : Obligations.FaultAndServiceSteps :=
  ⟨fun _ _ _ _ _ _ h => ⟨handlerDispatch_none h, handlerDispatch_starts h, handlerDispatch_full h⟩,
    fun _ _ _ _ _ hk hh hstop hin hw htab ht => by
      subst hk
      exact exec_handlerDispatch_table hh hstop hin hw htab ht,
    fun _ _ _ _ _ hk hw ht => by
      subst hk
      exact exec_handlerResourceTimeout hw ht,
    fun _ _ _ _ _ _ _ _ _ _ hk hp hh hall htm hkind ht hku hn hlim hs hpre hsl => by
      subst hk
      exact exec_watchdog hp hh hall htm hkind ht hku hn hlim hs hpre hsl,
    fun _ _ h => exec_softError_memory h,
    fun _ _ h => exec_softError_sram h,
    exec_softError_pad,
    fun _ _ _ _ s h => exec_softError_warp s h,
    fun _ _ _ _ h => exec_softError_deck h,
    fun _ _ n _ h => exec_softError_barrier n h,
    exec_softError_tile,
    exec_softError_weight,
    fun _ _ _ _ _ _ _ hh hhits => ⟨corrected_count hh hhits, fun _ => corrected_spare hh hhits⟩,
    fun _ _ h => exec_softError_corrected h,
    fun _ _ s h => exec_softError_correctedCore s h,
    fun _ source _ hc ho => exec_coreDisabled source hc ho,
    fun _ _ _ hk hen hdue => by
      subst hk
      exact ⟨exec_hbmRetrain_next hen hdue, exec_hbmRetrain_defer hen hdue⟩,
    exec_ptpLock,
    fun _ => rfl,
    exec_syncInterval,
    fun _ _ _ _ _ _ _ hk he hw hf => by
      subst hk
      exact ⟨exec_frameEncodeComplete_drop he hw hf, fun _ => exec_frameEncodeComplete_frame he hw hf⟩,
    fun _ _ _ _ _ _ _ _ _ hl hr hb => encodeFrame_fits hl hr hb,
    frameBytes_layout,
    fun _ h => exec_attestComplete h,
    fun _ _ _ h hi hb => exec_bootComplete h hi hb⟩

end Sys2Proof.Machine
end
